-- ==== Sys2Proof/Word.lean ====
section
/-! DEFINITION. The words of the block: bytes, 32-bit and 64-bit register words, FP32 patterns, and the sparse table
that every store of the model is kept in (memories, register file, tables indexed by a number). -/

namespace Sys2Proof

/-- One byte (R12: every multi-byte field is little-endian). -/
abbrev Byte := BitVec 8

/-- A BAR0 register word, a scalar register, a vector lane (R18, R46). -/
abbrev Word := BitVec 32

/-- A 64-bit register or a global address (R18, R37). -/
abbrev DWord := BitVec 64

/-- A sparse table: (index, value) pairs, indices strictly rising, no value equal to the default of its index.
A byte memory is `Tab Byte`, which is a list of `Host.Cell`. -/
abbrev Tab (α : Type) := List (Nat × α)

end Sys2Proof
end

