-- ==== Sys2Proof/Syntax.lean ====
section
/-! DEFINITION. The commands of the block: one constructor per row of spec/opcode_table.json, and the types of the
operands that the outside (host, clocks, links, sensors, media) brings with an event. -/

namespace Sys2Proof

/-- Who writes a register: a PCIe function by its index (R306), or Husk over the register bus (R32, R82). -/
inductive Agent where
  | pcie (fn : Nat)
  | husk
deriving DecidableEq, Repr

/-- What a tile operation's SRAM accesses wait for (R49): the banks on which the riser group wants the same tile cycle, and
the tile cycles spent behind a higher-ranked local requester. -/
structure BankWait where
  riser  : List Nat := []
  behind : Nat := 0
deriving DecidableEq, Repr

/-- A tile and the waits of the SRAM accesses of its operation. -/
structure BankedOp where
  tile  : Nat
  waits : BankWait := {}
deriving DecidableEq, Repr

/-- A 32-bit read of a word, or a 64-bit read of a register whole (R18). -/
inductive BarRead where
  | half (off : Nat)
  | whole (off : Nat)
deriving DecidableEq, Repr

/-- An output of a router, and whether this is the cycle right after a VC 1 flit took it (R60). -/
structure RouterOutput where
  out  : Nat
  next : Bool
deriving DecidableEq, Repr

/-- The bits in error of each code word of a flit, payload words first, then the sideband's: as it leaves the buffer of the
router that sends it, and as it comes off the link (R63). -/
structure FlitErrors where
  buffer : List Nat := []
  link   : List Nat := []
deriving DecidableEq, Repr

/-- A stream engine of a pod (R182). -/
structure EngineAt where
  pod : Nat
  eng : Nat
deriving DecidableEq, Repr

/-- A granule of a tier, and a stack or half of one: the D-tier's, else the N-tier's. -/
structure GranuleAt where
  dTier   : Bool
  granule : Nat
deriving DecidableEq, Repr

structure UnitAt where
  dTier : Bool
  unit  : Nat
deriving DecidableEq, Repr

/-- A block of an F-tier channel (R229). -/
structure BlockAt where
  channel : Nat
  block   : Nat
deriving DecidableEq, Repr

/-- Work of an F-tier channel, with the service time in 0.1 ns that it took. -/
structure ChannelWork where
  channel : Nat
  service : Nat
deriving DecidableEq, Repr

/-- An access to a ring's doorbell page (R315), of a width in bytes. -/
inductive BellAccess where
  | write (width : Nat) (value : Word)
  | read (width : Nat)
deriving DecidableEq, Repr

/-- What a device-issued read of a submission queue returns (R316). -/
inductive SqRead where
  /-- The 64 B entries read, in ring order. -/
  | entries (es : List (BitVec 512))
  /-- Unsupported Request, Completer Abort, poisoned data or completion timeout. -/
  | failed
deriving DecidableEq, Repr

/-- What a device-issued DMA read of a host buffer returns (R335). -/
inductive HostRead where
  | data (bytes : List Byte)
  /-- The read ends in error; `addr` is the failing host address. -/
  | failed (addr : Nat)
deriving DecidableEq, Repr

/-- The operation of an atomic (R223). -/
inductive AtomKind where
  | add | max | min
deriving DecidableEq, Repr

/-- The operand type of an atomic (R223). -/
inductive AtomType where
  | i32 | i64 | fp32
deriving DecidableEq, Repr

/-- A tier or tile-space operation (R199, R223). -/
inductive TierOp where
  | read (len : Nat)
  | write (data : List Byte)
  | atomic (k : AtomKind) (ty : AtomType) (operand : DWord)
deriving DecidableEq, Repr

/-- What an access names: a global address (R37), or a plane of a tensor by handle (R198). -/
inductive Target where
  | addr (g : DWord)
  | handle (h : Nat) (scale : Bool) (off : Nat)
deriving DecidableEq, Repr

/-- The requesters of R200. -/
inductive Requester where
  /-- Chunk `chunk` of the descriptor that runs as `job` on engine `eng` of pod `pod`. -/
  | stream (pod eng job chunk : Nat)
  /-- The serving-engine ports of a hull. -/
  | hullPort (hull : Nat)
  /-- The bulk data port or a host command of a PCIe function (0 is the PF). -/
  | fn (fn : Nat)
  | cxl
  | husk
  /-- A hull's traffic of another device, arriving over Nygoham. -/
  | remote (dev : Nat)
  /-- The bulk data port of another device's PF. -/
  | remotePf (dev : Nat)
  /-- Husk of another device. -/
  | remoteHusk (dev : Nat)
deriving DecidableEq, Repr

/-- A tier access with the class it carries when no hull is named for it (R264). -/
structure AccessReq where
  who    : Requester
  target : Target
  op     : TierOp
  cls    : Nat
deriving DecidableEq, Repr

/-- Where an access that arrives at a controller comes from: the crossbar (a chunk that a stream engine issued), or
another requester directly. -/
inductive AccessSrc where
  | xbar (id : Nat)
  | direct (req : AccessReq)
deriving DecidableEq, Repr

/-- The cause the device names for a wait beyond its class-1 bound (R270, R271). -/
inductive BlockCause where
  | guardian | twin | other
deriving DecidableEq, Repr

/-- The scheduled resources of R258. -/
inductive Resource where
  | nTier | dTier | fTier | fabric
deriving DecidableEq, Repr

/-- One codeword of an F-tier chunk read (R236): the step at which it decoded and the bits it corrected; or a codeword that
decoded to the 16 B of metadata given (R234): row, channel, extent, archive generation and CRC-32. -/
inductive Codeword where
  | named (row channel extent gen crc : Nat)
  | hard (bits : Nat)
  | retry (step bits : Nat)
  | soft (bits : Nat)
  | outer
  | lost
deriving DecidableEq, Repr

/-- Which requester of another device sent a REQ packet (R200). -/
inductive RemoteWho where
  | hull | pf | husk
deriving DecidableEq, Repr

/-- The access whose deadline expires (R224): one in a controller, or the next that a command or an engine makes in one
event. -/
inductive DueAccess where
  | queued (id : Nat)
  | next
deriving DecidableEq, Repr

/-- How a tensor's move ends (R215, R225): whole, with the service in 0.1 ns that it took at each resource it used, or abandoned because an
access of it ended LATE, at an OFFSET of the copy. -/
inductive MoveEnd where
  | done (handle service : Nat)
  | late (handle off : Nat)
deriving DecidableEq, Repr

/-- The header fields that every fabric packet carries (R376), with the hop number of the virtual channel that it arrives on
(R367) and the class in its flits' CLASS field (R365, R368). -/
structure PktHdr where
  tag   : Nat
  src   : Nat
  slice : Nat
  dst   : Nat
  hop   : Nat := 0
  cls   : Nat := 2
  /-- The port that a packet came in by; of an answer, the port of its request (R369). -/
  port  : Nat := 0
deriving DecidableEq, Repr

/-- What an RSP packet carries (R376): the response code of R199 and the data or old value. -/
structure Rsp where
  code : Nat
  data : List Byte
deriving DecidableEq, Repr

/-- What each end reports in PEER_CHECK (R362): device ID, port, slice and twin role. -/
structure PeerInfo where
  idValid : Bool
  id      : Nat
  port    : Nat
  slice   : Nat
  role    : Bool
deriving DecidableEq, Repr

/-- What DETECT senses at the far end of a port (R362, R363). -/
inductive Detected where
  | nothing | receiver | transmitter
deriving DecidableEq, Repr

/-- The result of a lane training (R363). -/
inductive Training where
  | failed
  | locked (lanes : Nat) (reversed : Bool) (polarity : Nat)
deriving DecidableEq, Repr

/-- A C0 route update (R373): the sender and its links, each with its state. -/
structure RouteUpdate where
  origin : Nat
  gen    : Nat
  slice  : Nat
  standsFor : Option Nat
  /-- Peer IDs of the sender's links that carry traffic, with the sender's port and the lanes in use. -/
  links  : List (Nat × Nat × Nat)
deriving DecidableEq, Repr

/-- A manifest segment (R278). -/
structure Seg where
  req    : Nat
  tenant : Nat
  seqPos : Nat
  row    : Nat
  len    : Nat
  /-- 0 = PREFILL, 1 = DECODE, 2 = PASS. -/
  kind   : Nat
  guess  : List Nat
deriving DecidableEq, Repr

/-- What a device that does not lead its hull learns of the next step: what it reads of the manifest at the lead device's
address (R278), and whether the lead committed the step before. -/
structure StepPlan where
  start     : DWord
  number    : Nat
  rowsUsed  : Nat
  segs      : List Seg
  committed : Bool
deriving DecidableEq, Repr

/-- What a device's part of a step tells the lead of the requests that it served (R302): UNWRITTEN met, a breach, a bound
exceeded, and the rows with a selection DROPPED or DEGRADED. -/
structure PartMarks where
  unwritten : Bool
  breach    : Bool
  boundOver : Bool
  dropped   : List Nat
  degraded  : List Nat
deriving DecidableEq, Repr

/-- How a device's part of a step ended (R280): clean, with its marks, or with a tier or fabric error as a status and its
DETAIL (R225). -/
inductive PartEnd where
  | clean (marks : PartMarks)
  | failed (status : Nat) (addr : DWord)
deriving DecidableEq, Repr

/-- The report of a device, by its index in the hull (R280). -/
structure PartReport where
  dev  : Nat
  fate : PartEnd
deriving DecidableEq, Repr

/-- A C0 fault notice (R76). -/
structure FaultNote where
  hull   : Nat
  graph  : DWord
  record : DWord
deriving DecidableEq, Repr

/-- The header of a twin epoch (R386). -/
structure EpochHdr where
  epoch   : Nat
  /-- 0 = STEP, 1 = COMMAND, 2 = SNAPSHOT. -/
  kind    : Nat
  hull    : Nat
  records : Nat
  step    : DWord
  bytes   : Nat
deriving DecidableEq, Repr

/-- One item of an epoch's body, by the kinds of state that R385 mirrors. -/
inductive MirrorRec where
  /-- A tier granule: global address and 64 B. -/
  | granule (g : DWord) (data : List Byte)
  /-- A tensor table entry (R207); of an F-origin tensor also its archive (0 = the base) and its position in it. -/
  | tensor (h : Nat) (entry : BitVec 512) (archive place : Nat)
  /-- A tenant slot: identity, owner, RATE, BURST, FLOOR, LEVEL, RESERVED. -/
  | slot (i : Nat) (bound : Bool) (identity owner rate burst floor level reserved : Nat)
  /-- A schedule entry of a bank (R259), and the bank in use. -/
  | cyc (bank index : Nat) (entry : Word)
  | cycBank (bank : Nat)
  /-- A request: table index, ring, function, command entry, state, PROGRESS, STEP, steps, last committed token, prefilled
  positions, KV reservations in the two pools. -/
  | request (i ring fn : Nat) (entry : BitVec 512) (state progress : Nat) (step : DWord)
      (steps lastTok prefilled kvN kvD : Nat)
  /-- Committed output bytes of a request: function, host address, bytes. -/
  | output (fn addr : Nat) (data : List Byte)
  /-- A completion and its CQ position. -/
  | completion (ring pos : Nat) (raw : BitVec 256)
  /-- Ring configuration, RING_CFG to RING_COALESCE as words, SQ_BASE, CQ_BASE, and SQ_HEAD, SQ_TAIL, CQ_TAIL. -/
  | ring (n : Nat) (cfg owner irq : Word) (sqBase cqBase sqHead sqTail cqTail : Nat)
  /-- A hull: ID, whether it exists, the entry of its HULL_CREATE, its package's handle, its tier requests' handles and
  the places of its save blocks. -/
  | hull (i : Nat) (live : Bool) (entry : BitVec 512) (pkg : Nat) (handles saves : List Nat)
  /-- A SHELL_LOAD's result: hull, slot, configuration, package. -/
  | shell (hull slot cfg pkg : Nat)
deriving DecidableEq, Repr

/-- One sensor reading in 1/16 °C, and the current in 10 mA of a regulator (R426, R428, R455). -/
structure Reading where
  sensor  : Nat
  temp    : Int
  current : Nat
deriving DecidableEq, Repr

/-- What becomes of a sample: written, failed in a write, or skipped as its forerunner is not fully written yet (R457). -/
inductive CaptureFate where
  | written
  | writeError
  | skipped
deriving DecidableEq, Repr

/-- What the guardian samples every 10 µs (R426). -/
structure GuardSample where
  /-- 10 mV units. -/
  volts    : Nat
  /-- W. -/
  power    : Nat
  /-- A. -/
  current  : Nat
  sensors  : List Reading
  /-- Domains whose rail stands above its fused maximum for 2 µs; 100 names an always-on rail. -/
  rails    : List Nat
  /-- Bit masks of the connected P54 and RTN pins (R432). -/
  p54      : Nat
  rtn      : Nat
deriving DecidableEq, Repr

/-- SPDM requests (R408). -/
inductive SpdmReq where
  | getVersion
  | getCapabilities
  | negotiateAlgorithms
  | getDigests
  | getCertificate (slot off len : Nat)
  | challenge (slot : Nat) (nonce : BitVec 256)
  /-- Index 0 asks for the count, 255 for every block. -/
  | getMeasurements (index : Nat) (signed : Bool) (nonce : BitVec 256)
  | other (code : Nat)
deriving DecidableEq, Repr

/-- IEEE 1149.1 instructions (R437). -/
inductive TapInstr where
  | extest | samplePreload | bypass | idcode
  | other (code : Nat)
deriving DecidableEq, Repr

/-- ACTION of TWIN_ARM (R384): 0 disarms, 1 asks for the active's part, 2 for the standby's. -/
inductive ArmAction where
  | disarm
  | active
  | standby
deriving DecidableEq, Repr

/-- The four timestamps of a counter exchange, in units of 0.5 ns (R381). -/
structure TimeExchange where
  t1 : Nat
  t2 : Nat
  t3 : Nat
  t4 : Nat
deriving DecidableEq, Repr

/-- The commands and events of the block. A host command names the ring whose oldest fetched entry Husk takes (R337);
a tile operation names the tile (pod × 160 + local index) whose next operation word it is. -/
inductive Instr where
  -- Host commands (Command Reference)
  | nop (ring : Nat)
  | hello (ring : Nat)
  | queryDevice (ring : Nat)
  | queryRequest (ring : Nat)
  | tenantBind (ring : Nat)
  | tenantUnbind (ring : Nat)
  | budgetSet (ring : Nat)
  | budgetQuery (ring : Nat)
  | hullCreate (ring : Nat)
  | hullResize (ring : Nat)
  | hullDestroy (ring : Nat)
  | hullDrain (ring : Nat)
  | hullRestore (ring : Nat)
  | shellLoad (ring : Nat)
  | shellSelect (ring : Nat)
  | tensorDefine (ring : Nat)
  | tensorWrite (ring : Nat)
  | tensorRead (ring : Nat)
  | tensorFree (ring : Nat)
  | tensorClass (ring : Nat)
  | variantLoad (ring : Nat)
  | variantArchive (ring : Nat)
  | baseInstall (ring : Nat)
  | baseStage (ring : Nat)
  | runGraph (ring : Nat)
  | generate (ring : Nat)
  | cancel (ring : Nat)
  | fence (ring : Nat)
  | cycleTableWrite (ring : Nat)
  | cycleTableArm (ring : Nat)
  | prioritySet (ring : Nat)
  | sliceSet (ring : Nat)
  | routeQuery (ring : Nat)
  | twinArm (ring : Nat)
  | twinSwitch (ring : Nat)
  | counterSync (ring : Nat)
  | recorderArm (ring : Nat)
  | recorderClear (ring : Nat)
  | traceMask (ring : Nat)
  | sampleStart (ring : Nat)
  | sampleStop (ring : Nat)
  | telemetryRead (ring : Nat)
  | powerPolicy (ring : Nat)
  | rampSet (ring : Nat)
  | lifecycleAdvance (ring : Nat)
  | wipe (ring : Nat)
  | firmwareStage (ring : Nat)
  | firmwareActivate (ring : Nat)
  -- Host interface: doorbells, rings, interrupts, functions
  | sqDoorbell (fn ring off : Nat) (access : BellAccess)
  | cqDoorbell (fn ring off : Nat) (access : BellAccess)
  | ringEnable (fn ring : Nat) (value : Word)
  | ringDisable (fn ring : Nat) (value : Word)
  | sqFetch (ring : Nat) (data : SqRead)
  | interruptCoalesceTimeout (ring : Nat)
  | msixVectorUnmask (fn vector : Nat)
  | vfFlr (fn : Nat)
  | pfFlr
  | bdpWindowWrite (fn chan off : Nat) (data : List Byte) (poisoned : Bool)
  | bdpWindowRead (fn chan off len : Nat)
  | bdpBufferDrain (chan : Nat)
  | devCtrSelWrite (fn : Nat) (value : Word)
  | counterClear (fn : Nat) (sameCycle : Bool)
  | counterClearAll (fn : Nat)
  | cxlDecoderCommit (base : Nat)
  | cxlDecoderDecommit
  | cxlMemRead (hpa len : Nat)
  | cxlMemWrite (hpa : Nat) (data : List Byte)
  | bar0LowHalfRead (fn : Nat) (read : BarRead)
  | bar0HighHalfRead (fn off : Nat)
  | bar0LowHalfWrite (fn off : Nat) (value : Word)
  | bar0HighHalfWrite (fn off : Nat) (value : Word)
  | bar0BadAccess (fn off width : Nat) (write : Bool)
  | registerWrite (agent : Agent) (off : Nat) (wide : Bool) (value : DWord) (setNow : List (Nat × Nat))
  | heatLookupWrite (fn : Nat) (value : Word)
  | ftBlkSelWrite (fn : Nat) (value : Word)
  | fabInstallCommit (fn : Nat) (value : Word)
  | evrWindowAutoRead (fn : Nat)
  | logEnable (fn : Nat)
  | logTailWrite (fn : Nat) (value : Word)
  | logEntryWrite (failed : Bool)
  | spdmRequest (req : SpdmReq)
  | i3cRead (off : Nat)
  | boundaryScanInstruction (instr : TapInstr)
  -- Pod events
  | streamStop (pod eng : Nat)
  | quiescenceReached (hull : Nat)
  | shellLoadDone (pod : Nat)
  | scanOutDone (pod : Nat)
  | scanInDone (pod : Nat)
  -- Tile operations
  | endOp (tile : Nat)
  | repeatOp (tile : Nat)
  | waitOp (tile : Nat)
  | inGraphFence (tile : Nat)
  | planeRun (op : BankedOp)
  | streamOp (tile : Nat)
  | sop (tile : Nat)
  | vint (tile : Nat)
  | vfp (tile : Nat)
  | vxlane (tile : Nat)
  | vcvt (tile : Nat)
  | vload (op : BankedOp)
  | vstore (op : BankedOp)
  | vpush (tile : Nat)
  | vpop (tile : Nat)
  | vsfu (tile : Nat)
  -- Hull and tile events
  | hullFaultHandling (hull : Nat)
  | stepStart (hull : Nat)
  | stepBoundaryReached (tile : Nat)
  | queueEntrySend (tile q : Nat)
  | creditReturnSend (tile q : Nat)
  | meshFlitForward (x y : Nat) (port : RouterOutput) (errors : FlitErrors)
  | dataFlitArrive (tile : Nat)
  | creditFlitArrive (tile : Nat)
  | sfuGrant (pod k : Nat)
  | sfuResultWrite (tile : Nat)
  | stall (hull : Nat)
  | chunkIssue (pod eng : Nat)
  | streamResume (engine : EngineAt) (cycles : Nat)
  | chunkResponse (pod eng : Nat)
  | descriptorComplete (pod eng : Nat)
  -- Tier controllers and placement
  | tierAccess (src : AccessSrc)
  | arbiterGrant (res : Resource) (unit waited service : Nat) (cause : BlockCause)
  | tierAccessEnd (id : Nat)
  | ceWriteback (place : GranuleAt) (service : Nat)
  | recoveryComplete (id : Nat) (ok : Bool)
  | accessDeadlineExpiry (due : DueAccess)
  | perBankRefresh (dTier : Bool) (unit bank : Nat)
  | calibrationWindow (place : UnitAt) (ns : Nat)
  | calOverdue (dTier : Bool) (unit : Nat)
  | scrubRead (place : GranuleAt) (service : Nat)
  | frameBoundary
  | slotBoundary
  | promotionStart (handle : Nat)
  | moveComplete (fate : MoveEnd)
  -- Flash tier
  | ftChunkRead (chunk : Nat) (codewords : List Codeword)
  | ftProgramDone (failed : List Nat)
  | ftEraseDone (place : BlockAt) (ok : Bool) (service : Nat)
  | ftScrub (place : BlockAt) (retryMean32 maxBits service : Nat)
  | blockRelocationDone (work : ChannelWork)
  | compaction
  | staticLevelling (channel : Nat)
  | ftChannelFailure (channel : Nat)
  -- Serving engine
  | boundaryReport (hull : Nat) (report : PartReport)
  | stepCommit (hull : Nat)
  | startNotice (hull : Nat) (plan : StepPlan)
  | emitEntry (pod : Nat)
  | servingPortEntry (pod port : Nat)
  | expertDispatch (hull : Nat) (halfB : Bool)
  | kvAdmission (hull : Nat)
  -- Nygoham fabric
  | fabricFlitReceive (port : Nat) (flit : BitVec 4352)
  | ackTimer (port : Nat)
  | laneLockLoss (port lane : Nat)
  | laneRetrain (port lane : Nat) (clean : Bool)
  | portDetect (port : Nat) (seen : Detected)
  | portTrainingDone (port : Nat) (result : Training)
  | peerCheck (port : Nat) (peer : PeerInfo)
  | linkRetrainTimer (port : Nat)
  | crossedRecheck (port : Nat) (gone : Bool)
  | cableRemoved (port : Nat)
  | linkDownDetect (port : Nat)
  | routeUpdate (u : RouteUpdate)
  | pathChangeRelease (dest : Nat)
  | remoteRequest (hdr : PktHdr) (who : RemoteWho) (g : DWord) (op : TierOp)
  | remoteResponse (hdr : PktHdr) (rsp : Rsp)
  | fabricTimeout (tag : Nat)
  | queueOpen (hdr : PktHdr) (x y q : Nat)
  | queueGrant (hdr : PktHdr) (credits : Nat)
  | queueEntry (hdr : PktHdr) (x y q : Nat) (data : BitVec 512)
  | queueCredit (hdr : PktHdr) (pod route credits : Nat)
  | faultNotice (n : FaultNote)
  | timestampExchange (x : TimeExchange)
  -- Twin pairs
  | twinHeartbeatSend
  | twinHeartbeatTimeout
  | takingOverAnnounce
  | epochReceive (hdr : EpochHdr) (body : List MirrorRec)
  | epochMarkerReceive (epoch : Nat) (abort : Bool) (crc : DWord)
  | epochAckReceive (epoch : Nat)
  | snapshotApplied
  | twinArmTimeout
  | twaFault (code : Nat)
  | hullPeerLoss (dev : Nat)
  -- Power, reset and boot
  | powerGood
  | inputUndervoltage
  | inputOutOfRange
  | perstAssert
  | hotReset
  | pcieLinkDown
  | mgmtWatchdogExpiry
  | resetReq
  | tripRecovery
  | imageVerify
  | huskStart
  | systemLoad
  | dramTrain
  | bootWipe
  | tensorRegistration
  | bootReady
  | guardianSample (g : GuardSample)
  | guardianRestore (pod : Nat)
  | rampGrant
  | podPointChangeDone (pod : Nat)
  | domainPowerUpDone (domain : Nat)
  | podIdleTimeout (pod : Nat)
  | inputShort
  | prsntBreak
  | storageLowAssert
  | storageLowRelease
  | sidebandReversed
  -- Observability
  | eventPersist
  | sampleCapture (fate : CaptureFate)
  -- Host link, late rows of the table
  | pcieLinkTrained (speed width : Nat) (flit cxl : Bool)
  | vfEnableWrite (enable : Bool) (numVfs : Nat)
  | hostDmaCompletion (tag : Nat) (r : HostRead)
  | complementaryArm (action : ArmAction) (role : Bool) (ifMajor ifMinor : Nat)
  | newSnapshotRequest (epoch cause : Nat)
  | twinSwitchSaveBlocks (blocks : List (Nat × List (Nat × List Byte)))
deriving DecidableEq, Repr

end Sys2Proof
end

