-- ==== Sys2Proof/Machine/State.lean ====
section
/-! DEFINITION. The state of the block as plain data. Every register of a BAR0 map is a word of `bar` (its reset value is
`regReset` of Machine/Regs.lean, so an unlisted word reads its reset value); what the manual gives the machine beside its
registers stands in the structures below. Every field's default is its value at reset, and `State.reset` is all defaults:
a module as shipped, at power-good, with the boot ROM about to run (R400 step 2). -/

namespace Sys2Proof.Machine

/-- The block's commands raise no machine fault: every error the manual describes is a status, a response, a flag or an
event. The one reason here is raised by no command; it keeps the type inhabited for the host's interface. Safe. -/
inductive Fault where
  | none
deriving DecidableEq, Repr

/-- Why a command has no meaning. -/
inductive Refusal where
  /-- No meaning yet; raised by exec's arms only. Safe. -/
  | notModelled (mnemonic : String)
  /-- R437: a boundary-scan instruction other than the four named, in state FACTORY, acts, and the manual does not say
  how. Raised by BOUNDARY_SCAN_INSTRUCTION. Safe. -/
  | privateTapInstruction
deriving DecidableEq, Repr

/-- A flit of the mesh: the sideband of R57 and its 64 B payload. -/
structure Flit where
  destX   : Nat
  destY   : Nat
  destQ   : Nat
  credit  : Bool
  hull    : Nat
  payload : BitVec 512
deriving DecidableEq, Repr

/-- One message of the twin link (R385, R386, R389, R392). -/
inductive TwinMsg where
  | heartbeat
  | arm (active : Bool) (role : Bool) (ifMajor ifMinor : Nat)
  | disarm
  | header (h : EpochHdr)
  | record (r : MirrorRec)
  | marker (epoch : Nat) (abort : Bool) (crc : Nat)
  | ack (epoch : Nat)
  | snapshotRequest (epoch cause : Nat)
  /-- A hull's save blocks by logical pod (R154, R392). -/
  | saveBlocks (hull : Nat) (blocks : List (Nat × List Byte))
  | takingOver
deriving DecidableEq, Repr

/-- What travels on the links: REQ and RSP packets (R376), the messages of C0 (R367) and those of the twin link (R385). -/
inductive Packet where
  /-- A REQ packet, with the kind of its requester, which the target judges (R200). -/
  | request (hdr : PktHdr) (who : RemoteWho) (g : DWord) (op : TierOp)
  | response (hdr : PktHdr) (r : Rsp)
  | queueOpen (hdr : PktHdr) (x y q : Nat)
  | queueGrant (hdr : PktHdr) (credits : Nat)
  | queueEntry (hdr : PktHdr) (x y q : Nat) (data : BitVec 512)
  | queueAck (hdr : PktHdr)
  | queueCredit (hdr : PktHdr) (credits x y q : Nat)
  /-- A QUEUE_CREDIT packet of another device, passed on towards the hub route that it names. -/
  | creditForward (hdr : PktHdr) (pod route credits : Nat)
  /-- C0 messages between management complexes, with the device that one is bound for (R367). -/
  | routeUpdate (u : RouteUpdate)
  | faultNotice (dst : Nat) (n : FaultNote)
  | boundaryReport (dst hull : Nat) (fate : PartEnd)
  | startNotice (dst hull : Nat) (start : DWord)
  | twin (m : TwinMsg)
deriving DecidableEq, Repr

/-- Bytes of a packet in a flit's payload: `len` of them from byte `off` of the packet (R365). -/
structure FlitPart where
  pkt : Packet
  off : Nat
  len : Nat
deriving DecidableEq, Repr

/-- A flit of a link, by its fields (R365). What its parts leave of the 512 B is a NULL packet. -/
structure LinkFlit where
  seq     : Nat
  ack     : Nat
  nak     : Bool
  vc      : Nat
  cls     : Nat
  /-- The seven credit returns, VC 0 first. -/
  credits : List Nat
  /-- The timestamp message, in half ns (R381). -/
  time    : Option Nat
  parts   : List FlitPart
deriving DecidableEq, Repr

/-- An SPDM response of the device (R408). -/
inductive SpdmRsp where
  | version (versions : List Nat)
  | capabilities (cert chal measSig : Bool)
  | algorithms
  | digest (d : BitVec 384)
  | certificate (bytes : List Byte) (remainder : Nat)
  | challengeAuth (nonce : BitVec 256) (signature : BitVec 768)
  | measurements (count : Nat) (blocks : List (Nat × List Byte)) (signature : Option (BitVec 768))
  | error (code : Nat)
deriving DecidableEq, Repr

/-- What leaves the block, oldest first: posted writes, messages, read answers, packets and sideband levels. It is the
model's record of what an outside observer sees, in the order of R306. -/
inductive Out where
  /-- A 32 B completion written to slot `slot` of a ring's CQ (R318, R338). -/
  | completion (fn ring slot addr : Nat) (raw : BitVec 256)
  | dmaWrite (fn addr : Nat) (data : List Byte)
  | dmaRead (tag fn addr len : Nat)
  | shadow (fn addr : Nat) (value : Word)
  | msi (fn vector : Nat)
  | readData (fn off : Nat) (value : DWord)
  | bdpData (fn chan : Nat) (data : List Byte)
  | cxlData (hpa : Nat) (data : List Byte) (poison : Bool)
  | cxlNotCommitted
  | spdm (r : SpdmRsp)
  | i3c (value : Word)
  | tdo (value : Word)
  /-- A flit leaves by a port (R365); `flitRaw` gives its 544 bytes. -/
  | flit (port : Nat) (f : LinkFlit)
  /-- An acknowledgement or NAK that no flit with data carries, with the credits that it returns (R366, R367). -/
  | linkAck (port seq : Nat) (nak : Bool) (credits : List Nat)
  | twaOut (code : Nat)
  | thermAlert (low : Bool)
  | pwrOk (high : Bool)
deriving DecidableEq, Repr

/-! ### PCIe configuration space -/

/-- The capabilities of R305; one that the list does not name is absent. -/
inductive PciCap where
  | pciExpress | powerManagement | msix | aer | sriov | ari | serialNumber | doe | dataLinkFeature
  | physical16 | physical32 | physical64 | laneMargining | cxlDvsec | tags10 | tags14 | functionLevelReset
deriving DecidableEq, Repr

/-- A BAR of R311: its number, its size per function, and whether it is prefetchable; each is 64 bits wide, and the next
BAR is its upper half. -/
structure PciBar where
  number   : Nat
  size     : Nat
  prefetch : Bool
deriving DecidableEq, Repr

/-- What a function presents in configuration space (R6, R305, R311). -/
structure PciFunction where
  vendorId   : Nat := 0x1F6B
  deviceId   : Nat
  classCode  : Nat := 0x120000
  /-- Stepping B1 (R4): the letter in the high nibble, the digit in the low one. -/
  revisionId : Nat := 0x11
  caps       : List PciCap
  bars       : List PciBar := [⟨0, 0x1000000, false⟩, ⟨2, 0x10000000, true⟩, ⟨4, 0x1000000, false⟩]
  maxPayload : Nat := 4096
  maxRead    : Nat := 4096
deriving DecidableEq, Repr

/-- The power states of R305; D3cold is not supported. -/
inductive PciPower where
  | d0 | d3hot
deriving DecidableEq, Repr

/-- Configuration space of the device: the PF's functions and the VFs', the SR-IOV capability (R306) and the bound on
outstanding non-posted requests (R305). -/
structure PciConfig where
  pf : PciFunction := { deviceId := 0x2640, caps := [.pciExpress, .powerManagement, .msix, .aer, .sriov, .ari, .serialNumber,
    .doe, .dataLinkFeature, .physical16, .physical32, .physical64, .laneMargining, .cxlDvsec, .tags10, .tags14,
    .functionLevelReset] }
  vf : PciFunction := { deviceId := 0x2641, caps := [.pciExpress, .powerManagement, .msix, .aer, .tags10, .tags14,
    .functionLevelReset] }
  totalVfs      : Nat := 255
  firstVfOffset : Nat := 1
  vfStride      : Nat := 1
  vfDeviceId    : Nat := 0x2641
  /-- Supported Page Sizes in bytes. -/
  pageSizes     : List Nat := [4096]
  maxNonPosted  : Nat := 1024
  /-- The power state of each function. -/
  power         : Tab PciPower := []
deriving DecidableEq, Repr

/-! ### Host interface -/

/-- A function's read latch (R18): the register's low-half offset and its latched high half. -/
structure Latch where
  held : Bool := false
  off  : Nat := 0
  high : Word := 0
deriving DecidableEq, Repr

/-- A function's HELLO (R409, R410). -/
structure Hello where
  done  : Bool := false
  minor : Nat := 0
deriving DecidableEq, Repr

/-- What a ring holds beside its registers (R319, R320, R337). -/
structure RingAux where
  /-- Completions written since the enable. -/
  written   : Nat := 0
  /-- Completions since the vector was last signalled, and whether the timer runs. -/
  coalCount : Nat := 0
  coalTimer : Bool := false
  /-- PRIORITY_SET's value; reset value 2 (R354). -/
  priority  : Nat := 2
deriving DecidableEq, Repr

/-- A command entry fetched into Husk's command queue, with its order of arrival (R316, R337). -/
structure Fetched where
  ring  : Nat
  entry : BitVec 512
  seqNo : Nat
deriving DecidableEq, Repr

/-- What a running command waits for, by opcode (R335, R337 and the opcode's own rules). -/
inductive RunKind where
  /-- TENSOR_WRITE by DMA: handle, plane, next offset, bytes left, bytes done. -/
  | tensorWrite (h : Nat) (scale : Bool) (off left done : Nat)
  /-- TENSOR_READ waiting for a move of its tensor. -/
  | tensorRead (h : Nat) (scale : Bool) (off left done : Nat)
  /-- TENSOR_WRITE or TENSOR_READ through a channel: bytes left. -/
  | channel (chan : Nat) (write : Bool) (left done : Nat)
  | variantList (count : Nat)
  /-- VARIANT_LOAD pulling planes: those left as (handle, plus 2^20 for the scale plane; host address; offset; bytes),
  bytes moved, all handles. -/
  | variantPull (left : List (Nat × Nat × Nat × Nat)) (done : Nat) (all : List Nat)
  | archiveList (count : Nat)
  /-- VARIANT_ARCHIVE programming: rows left, user bytes, the record to write. -/
  | archiving (rows bytes id : Nat)
  | baseManifest (count : Nat)
  /-- BASE_INSTALL programming: rows left, user bytes, the parsed manifest. -/
  | installing (rows bytes : Nat)
  /-- BASE_STAGE: tensors whose staging has not been started, tensors in staging, bytes staged, the shortfall of the first
  tensor that found no room. -/
  | baseStaging (fresh left : List Nat) (done : Nat) (short : Option Nat)
  | cycleSource (first count mask : Nat)
  | cyclePinning (frame : Nat) (hulls handles : List Nat)
  | cycleArmed (frame : Nat)
  | imageRead (len : Nat)
  /-- WIPE whose pods are being powered off. -/
  | wiping
  /-- HULL_CREATE: hull, 0 = powering, 1 = loading, 2 = pinning. -/
  | creating (hull phase : Nat)
  /-- HULL_RESIZE: hull, 0 = draining, 1 = restoring (relocation), 2 = halting, 3 = loading (repackaging), and the stage
  of R251 and the pods chosen; 4 = halting for a repackaging whose package has failed its first checks, with DETAIL. -/
  | resizing (hull phase stage : Nat) (pods : List Nat)
  /-- SHELL_LOAD: hull, slot, configuration, package. -/
  | loading (hull slot cfg pkg : Nat)
  | draining (hull : Nat)
  | restoring (hull : Nat)
  | destroying (hull : Nat)
  | fencing (before : Nat) (remote : Bool)
  /-- TWIN_ARM waiting for its complement, or for READY: action, TWIN_STATUS.STATE before it, whether the pair is formed. -/
  | arming (active : Bool) (was : Nat) (paired : Bool)
  /-- COUNTER_SYNC waiting for its exchange (R381). -/
  | syncing
  /-- SLICE_SET waiting for the domain's routes to settle, with the counter value of the change (R373, R379). -/
  | slicing (since : Nat)
  /-- TWIN_SWITCH: hulls not yet drained, and all of them. -/
  | switching (left all : List Nat)
  /-- A standby's creation of a mirrored hull: hull, 0 = powering, 1 = loading (R385). -/
  | mirroring (hull phase : Nat)
  | request (index : Nat)
  | cancelling (index : Nat)
deriving DecidableEq, Repr

/-- A command that has started and lacks its completion. -/
structure Running where
  ring  : Nat
  fn    : Nat
  entry : BitVec 512
  seqNo : Nat
  kind  : RunKind
  /-- A read met UNWRITTEN (R211). -/
  unwritten : Bool := false
  /-- Its function has been reset: no completion is written (R307). -/
  quiet   : Bool := false
deriving DecidableEq, Repr

/-- What an outstanding DMA read is for. -/
inductive DmaUse where
  /-- A running command of a ring, by its order of arrival. -/
  | command (seqNo : Nat)
  /-- Input staging of a segment of a hull's step: request index, first row, rows (R353). -/
  | staging (hull req row rows : Nat)
deriving DecidableEq, Repr

structure DmaRead where
  tag  : Nat
  fn   : Nat
  addr : Nat
  len  : Nat
  use  : DmaUse
  /-- The read is on the link; false while the bound of R305 holds it back. -/
  issued : Bool := true
  /-- Bytes that its earlier pieces have brought. -/
  got    : List Byte := []
deriving DecidableEq, Repr

/-- An access of a bulk-data-port channel, kept in its order of arrival until it ends (R325): the function that made it, and a
write with its data in the channel's buffer (R327), or a read of `read` bytes in progress. `sent` is its number in a
controller, once it stands there. -/
structure ChanAccess where
  fn     : Nat
  mode1  : Bool
  scale  : Bool
  cursor : DWord
  data   : List Byte
  read   : Option Nat := none
  sent   : Option Nat := none
deriving DecidableEq, Repr

structure HostState where
  latches   : Tab Latch := []
  /-- Write buffer of each function: low-half offset and value (R18). -/
  buffers   : Tab Latch := []
  ctrSel    : Tab Word := []
  ctrVal    : Tab Word := []
  /-- MSI-X table words, keyed function × 8192 + word; unlisted entries are masked (PCIe). -/
  msix      : Tab Word := []
  /-- Pending bits, keyed function × 2048 + vector. -/
  pba       : Tab Bool := []
  /-- W1C companion counters, keyed BAR0 offset × 32 + bit (R16, R330). -/
  companion : Tab (BitVec 16) := []
  hello     : Tab Hello := []
  rings     : Tab RingAux := []
  /-- The ring after the last one served by the fetch round-robin (R316). -/
  fetchNext : Nat := 0
  husk      : List Fetched := []
  /-- Commands of a serialized group that Husk has taken and not started, in the order taken (R250, R406). -/
  held      : List Fetched := []
  running   : List Running := []
  dma       : List DmaRead := []
  nextTag   : Nat := 0
  nextSeq   : Nat := 0
  /-- The accesses of the bulk-data-port channels that have not ended, oldest first. -/
  bdpBuf    : Tab (List ChanAccess) := []
  linkUp    : Bool := false
  perstLow  : Bool := true
  /-- Decoder base of a committed CXL window (R309). -/
  cxlBase   : Nat := 0
  cfg       : PciConfig := {}
deriving DecidableEq, Repr

/-! ### Tiles, pods and the mesh -/

/-- The 16 B state of a channel (R79). -/
structure Chan where
  head    : Nat := 0
  count   : Nat := 0
  credits : Nat := 0
  owed    : Nat := 0
deriving DecidableEq, Repr

/-- A REPEAT record (R192). -/
structure Rep where
  left  : Nat
  first : Nat
  len   : Nat
deriving DecidableEq, Repr

/-- A ticket in use (R192): descriptor index, engine and pod-wide job number. -/
structure Ticket where
  busy : Bool := false
  desc : Nat := 0
  job  : Nat := 0
deriving DecidableEq, Repr

/-- An SFU request (R113): function, source lanes, destination, and whether it has been granted. -/
structure SfuReq where
  fn      : Nat
  lanes   : List Word
  dst     : Nat
  granted : Bool
  /-- Grants to other tiles since presentation (R115). -/
  waited  : Nat
deriving DecidableEq, Repr

/-- A buffer of the weight latch: element bytes and scale bytes (R91, R92). -/
structure LatchBuf where
  data  : List Byte := []
  scale : List Byte := []
deriving DecidableEq, Repr

/-- The drain of a WEIGHT iteration (R170): the last unit of the iteration, its half of the accumulator file, and the row
that leaves next. -/
structure Drain where
  unit : Nat
  half : Nat
  row  : Nat := 0
deriving DecidableEq, Repr

/-- Progress of a PLANE_RUN nest (R168, R175). The units of a nest are its (WEIGHT, REDUCTION) index vectors in order;
one latch load serves one unit. -/
structure Nest where
  unit     : Nat := 0
  /-- 0 = before the swap to the unit's latch buffer, 1 = accumulating, 2 = the iteration waits for its drain, 3 = all
  units done. -/
  stage    : Nat := 0
  row      : Nat := 0
  drain    : Option Drain := none
  /-- Units whose latch load has ended; the load of unit u goes into buffer u mod 2 (R91). -/
  loaded   : Nat := 0
  latch0   : LatchBuf := {}
  latch1   : LatchBuf := {}
  /-- Entries sent and received in the rotation's present round, and that round. -/
  rotSent  : Nat := 0
  rotRecv  : Nat := 0
  round    : Nat := 0
deriving DecidableEq, Repr

/-- Bytes popped from the nest's channels and not yet consumed, which the next PLANE_RUN takes first (R171), and drain bytes
not yet pushed (R170). -/
structure Leftover where
  act    : List Byte := []
  actS   : List Byte := []
  wgt    : List Byte := []
  wgtS   : List Byte := []
  out    : List Byte := []
deriving DecidableEq, Repr

/-- The loop sequencer (R160, R192). -/
structure Seq where
  index   : Nat := 0
  /-- 0 = at a boundary, 1 = issuing, 2 = in PLANE_RUN, 3 = END issued and waiting for its boundary. -/
  phase   : Nat := 0
  reps    : List Rep := []
  nest    : Nest := {}
  accOpen : Bool := false
  /-- The half of the accumulator file that the present WEIGHT iteration uses (R170). -/
  half    : Nat := 0
  /-- The first of the two entries of the VPUSH at `index` has been pushed (R112). -/
  pushed  : Bool := false
deriving DecidableEq, Repr

structure Tile where
  sreg    : Tab Word := []
  /-- Lane l of vector register r at 32 × r + l. -/
  vreg    : Tab Word := []
  sram    : Tab Byte := []
  queues  : Tab Byte := []
  shell   : Tab Byte := []
  /-- Bits in error of each aligned 8 B word: data SRAM words from 0, queue store words from 0x6000 (R50), accumulator
  words from 0x8000, words of latch buffer 0 from 0xA000 and of buffer 1 from 0xA200 (R104). -/
  bad     : Tab Nat := []
  chans   : Tab Chan := []
  active  : Nat := 0
  pend    : Option Nat := none
  fault   : DWord := 0
  seq     : Seq := {}
  tickets : Tab Ticket := []
  /-- Accumulator file entry row × L + lane (R91), and whether a value was written since the last clear. -/
  acc     : Tab Word := []
  left    : Leftover := {}
  sfu     : Option SfuReq := none
  /-- Entries waiting in the crossing to the router and from it (R55). -/
  toMesh  : List Flit := []
  toTile  : List Flit := []
  /-- The riser crossings (R55): entries on their way to a hub endpoint, each with the endpoint and its channel, and credits
  on their way back to a channel. -/
  riserUp   : List (Nat × Nat × BitVec 512) := []
  riserDown : List (Nat × Nat) := []
  /-- Banks on which the riser group lost the previous conflict, and so wins the next (R49). -/
  bankTurn : Tab Bool := []
  /-- Channels on which the tile waited for a pop, and for a push, at its last refused issue (R73 STALL, R458). -/
  waitPop  : List Nat := []
  waitPush : List Nat := []
  /-- The word at the sequencer's index waits at issue (R192). -/
  stalled  : Bool := false
  /-- Entries pushed to remote routes and not yet accepted at their target (R221). -/
  remoteOut : Nat := 0
deriving DecidableEq, Repr

/-- A descriptor on an engine's queue (R177, R182, R188). -/
structure Desc where
  job     : Nat
  index   : Nat
  raw     : BitVec 512
  tile    : Nat
  ticket  : Nat
  next    : Nat := 0
  /-- Chunks issued and not yet delivered or acknowledged. -/
  flying  : List Nat := []
  halted  : Option Nat := none
  direct  : Bool := false
  failed  : Bool := false
  /-- WRITE data taken from a hub port, by chunk, until the chunk is acknowledged (R188). -/
  kept    : List (Nat × List Byte) := []
  /-- Bytes of the first flying READ chunk already delivered into a queue (R184). -/
  part    : Nat := 0
deriving DecidableEq, Repr

structure Engine where
  queue : List Desc := []
  /-- Job whose chunk was issued last: the running descriptors issue in turn (R183). -/
  turn  : Nat := 0
deriving DecidableEq, Repr

/-- A shell load that runs in a pod (R144): slot, configuration, package handle; one that SHL_CTRL.START began reads its
images at SHL_SRC (R159). -/
structure Load where
  slot : Nat
  cfg  : Nat
  pkg  : Nat
  bare : Bool := false
deriving DecidableEq, Repr

/-- A remote route's source side (R377). -/
structure RouteCredit where
  opened  : Bool := false
  granted : Bool := false
  credits : Nat := 0
  depth   : Nat := 0
deriving DecidableEq, Repr

structure Sfu where
  lastCol : Nat := 15
  /-- Tile (local column) whose grant is not yet written, oldest first. -/
  granted : List Nat := []
deriving DecidableEq, Repr

structure Pod where
  engines : Tab Engine := []
  nextJob : Nat := 0
  /-- Entries at the 64 hub endpoints, oldest first, each with the channel that pushed it: tile × 16 + q (R180). -/
  hub     : Tab (List (Nat × BitVec 512)) := []
  sfus    : Tab Sfu := []
  load    : Option Load := none
  /-- 0 = none, 1 = scan-out, 2 = scan-in; and whether the latest one met an error (R50, R156, R159). -/
  scan    : Nat := 0
  scanBad : Bool := false
  routes  : Tab RouteCredit := []
  /-- Channels of the pod's tiles granted to a remote producer: tile × 16 + q, with 64 + source device (R377). -/
  inbound : Tab Nat := []
  /-- The point that the ramp governor has granted, and a change in progress (R424, R425). -/
  rampPoint : Nat := 0
  changing  : Bool := false
  /-- A fault record is kept since TILE_FAULT or STALL was last cleared, and the counter value and the local index of the
  tile that raised it; 160 for a fault that names no tile (R77). -/
  faultKept : Bool := false
  faultAt   : DWord := 0
  faultTile : Nat := 0
  /-- Consecutive guardian samples below the restore temperature. -/
  coolFor   : Nat := 0
  /-- Samples since the guardian last moved the pod by one point for its temperature, or restored it; kept to 20. -/
  sinceStep : Nat := 20
  /-- Lowered for a temperature, and lowered for the input (peak, power, current, undervoltage). -/
  hot       : Bool := false
  drawn     : Bool := false
deriving DecidableEq, Repr

/-- A mesh router (R59, R60): ports N = 0, S = 1, W = 2, E = 3, L = 4; queues keyed port × 2 + VC. -/
structure Router where
  inputs  : Tab (List Flit) := []
  /-- The input served last at an output. -/
  served  : Tab Nat := []
  lastVc1 : Tab Bool := []
deriving DecidableEq, Repr

/-! ### Hulls and serving -/

/-- A step formed or in progress (R277–R280). -/
structure Step where
  number    : Nat
  start     : DWord
  segs      : List Seg
  rowsUsed  : Nat
  halfSplit : Nat
  begun     : Bool := false
  /-- Device indexes that have reported their boundary. -/
  reported  : List Nat := []
  emits     : List (BitVec 512) := []
  extra     : Nat := 0
  output    : List Byte := []
  /-- Tier or fabric error of the step: status code and DETAIL (R225, R281). -/
  error     : Option (Nat × DWord) := none
  unwritten : Bool := false
  breach    : Bool := false
  boundOver : Bool := false
  /-- Twin epoch sent for the commit and awaiting acknowledgement (R29, R280). -/
  epoch     : Option Nat := none
  /-- Segments whose host input has not arrived (R353). -/
  staging   : Nat := 0
  /-- Expert layer in progress: layer index, gate entries and rows taken for each half. -/
  layer     : Nat := 0
  gateA     : List (BitVec 512) := []
  gateB     : List (BitVec 512) := []
  rowsA     : List (BitVec 512) := []
  rowsB     : List (BitVec 512) := []
  halfDone  : Bool := false
  dropped   : List Nat := []
  degraded  : List Nat := []
  /-- The hull's expert map as it stood at the step's start (R295). -/
  map       : List Byte := []
  /-- Granules (global address div 64) that the step wrote on an active twin, for its epoch (R385). -/
  wrote     : List Nat := []
deriving DecidableEq, Repr

/-- An entry of a tier request list (R209). -/
structure TierReq where
  kind  : Nat
  flags : Nat
  fmt   : Nat
  lpod  : Nat
  imp   : Nat
  elem  : Nat
  scale : Nat
  src   : Nat
deriving DecidableEq, Repr

structure Hull where
  live      : Bool := false
  /-- The entry of the HULL_CREATE that made it. -/
  entry     : BitVec 512 := 0
  /-- Physical pod of each logical pod (R252). -/
  pods      : List Nat := []
  stage     : Nat := 0
  graph     : DWord := 0
  pkg       : Nat := 0
  configs   : Nat := 0
  compat    : Bool := false
  multi     : Bool := false
  realtime  : Bool := false
  devIndex  : Nat := 0
  devCount  : Nat := 1
  wdog      : Nat := 24
  rows      : Nat := 0
  sprouts   : Nat := 0
  kvb       : Nat := 0
  /-- The tier request list of the hull's present package (R254), and the handle of each of its entries. -/
  reqs      : List TierReq := []
  handles   : List Nat := []
  /-- Remote routes of the hull's pods, as Husk has configured them, keyed logical pod × 16 + n (R193, R194). -/
  routes    : Tab Nat := []
  kvN       : Option Nat := none
  kvD       : Option Nat := none
  manifest  : Option Nat := none
  expmap    : Option Nat := none
  kvNUsed   : Nat := 0
  kvDUsed   : Nat := 0
  /-- N-tier OFFSET of each logical pod's save block, and whether a drain has filled it (R153, R155). -/
  saves     : List Nat := []
  drained   : Bool := false
  drainStep : DWord := 0
  /-- The record of the hull's fault, the counter value at which it was raised, and its pod (R76, R77). -/
  fault     : Option DWord := none
  faultAt   : DWord := 0
  faultPod  : Nat := 0
  faultTile : Nat := 0
  /-- The fault has been handled by Husk (R76 steps 3–5). -/
  faultDone : Bool := false
  awaiting  : Bool := false
  destroying : Bool := false
  /-- Halting at the next step boundary for a drain, a destroy, a resize or a park. -/
  stopping  : Bool := false
  select    : Option Nat := none
  stepNo    : Nat := 0
  committed : Nat := 0
  lastStart : DWord := 0
  step      : Option Step := none
  /-- Slot after the tenant served first in the previous step (R277). -/
  nextSlot  : Nat := 0
  pinned    : List Nat := []
  /-- Devices of the hull by index (fabric IDs), for a hull that spans devices. -/
  devices   : List Nat := []
  /-- Configurations that SHELL_LOAD has put into slots: slot, configuration, package. -/
  shells    : List (Nat × Nat × Nat) := []
deriving DecidableEq, Repr

structure Slot where
  bound    : Bool := false
  identity : Nat := 0
  owner    : Nat := 0
  rate     : Nat := 0
  burst    : Nat := 0
  floor    : Nat := 0
  level    : Nat := 0
  reserved : Nat := 0
  /-- Tokens committed in the floor window, whether a request was left out for lack of rows, and the cause of the
  shortfall (R291): 0 = none, else the rank of R269. -/
  window   : Nat := 0
  leftOut  : Bool := false
  cause    : Nat := 0
  /-- Frame at which the present binding or FLOOR began. -/
  since    : Nat := 0
deriving DecidableEq, Repr

structure Request where
  used     : Bool := false
  ring     : Nat := 0
  fn       : Nat := 0
  entry    : BitVec 512 := 0
  seqNo    : Nat := 0
  hull     : Nat := 0
  tenant   : Nat := 0
  gen      : Bool := false
  /-- 0 = QUEUED … 5 = FAILED (R341). -/
  state    : Nat := 0
  paused   : Bool := false
  everPaused : Bool := false
  progress : Nat := 0
  stepVal  : DWord := 0
  steps    : Nat := 0
  rejected : Nat := 0
  prefilled : Nat := 0
  lastTok  : Nat := 0
  guesses  : List Nat := []
  kvN      : Nat := 0
  kvD      : Nat := 0
  /-- PASS segments already run (R285). -/
  passes   : Nat := 0
  truncated : Bool := false
  unwritten : Bool := false
  breach   : Bool := false
  boundOver : Bool := false
  floorMiss : Bool := false
  /-- A step of it has run within its slot's present floor window (R270, R291). -/
  ran      : Bool := false
  degraded : Bool := false
  dropped  : Bool := false
  replayed : Bool := false
  cancel   : Bool := false
  /-- Its function has been reset: no output and no completion is written (R307). -/
  quiet    : Bool := false
  order    : Nat := 0
  finalRaw : BitVec 256 := 0
  /-- Order of reaching its final state (R274). -/
  finalAt  : Nat := 0
deriving DecidableEq, Repr

structure Serving where
  hulls   : Tab Hull := []
  slots   : Tab Slot := []
  reqs    : Tab Request := []
  order   : Nat := 0
  /-- Ring and SEQ of the requests that this device turned away because it does not lead their hull (R276). -/
  elsewhere : List (Nat × Nat) := []
deriving DecidableEq, Repr

/-! ### Tiers and placement -/

/-- A tensor table entry (R207). -/
structure Tensor where
  valid    : Bool := false
  fixed    : Bool := false
  readOnly : Bool := false
  workset  : Bool := false
  share    : Bool := false
  cls      : Nat := 0
  origin   : Nat := 0
  inN      : Bool := false
  inD      : Bool := false
  move     : Nat := 0
  moveUp   : Bool := false
  format   : Nat := 0
  hull     : Nat := 0
  owned    : Bool := false
  tenant   : Nat := 0
  bound    : Bool := false
  elem     : Nat := 0
  scale    : Nat := 0
  nBase    : Nat := 0
  dBase    : Nat := 0
  fBase    : Nat := 0
  heat     : Nat := 0
  gen      : Nat := 1
  binds    : Nat := 0
  /-- F-origin whose archive was removed: its F_BASE is invalid (R240). -/
  fGone    : Bool := false
  /-- Archive that holds the origin; 0 = base region. -/
  archive  : Nat := 0
deriving DecidableEq, Repr

/-- Who holds a run of tier space (R198). -/
inductive Holder where
  | copy (h : Nat)
  | region (h : Nat)
  | save (hull : Nat)
  | cxl
  | staging
deriving DecidableEq, Repr

structure Alloc where
  dTier : Bool
  base  : Nat
  size  : Nat
  who   : Holder
deriving DecidableEq, Repr

/-- A move of a tensor (R213, R215, R218). kind: 1 = promotion, 2 = demotion, 3 = staging. -/
structure Move where
  handle  : Nat
  kind    : Nat
  cls     : Nat
  bg      : Bool
  /-- A promotion admitted and waiting for its victims' space. -/
  started : Bool
  victims : List Nat
deriving DecidableEq, Repr

/-- Whom an access's answer goes to: a requester that takes it from the ended accesses (a stream engine, or one of
TIER_ACCESS), the CXL.mem window, a bulk-data-port channel, a running command, or another device. -/
inductive AccessUse where
  | plain
  | cxl
  | channel (chan : Nat)
  | command (seqNo : Nat)
  | remote (hdr : PktHdr)
deriving DecidableEq, Repr

/-- An access in a controller (R199, R224). -/
structure Access where
  id      : Nat
  req     : AccessReq
  hull    : Option Nat
  use     : AccessUse := .plain
  granted : Bool := false
  /-- Waits on a recovery of a granule (R204). -/
  recover : Bool := false
deriving DecidableEq, Repr

/-- The response of an ended access (R199). -/
structure Ended where
  id   : Nat
  req  : AccessReq
  code : Nat
  addr : DWord
  data : List Byte
deriving DecidableEq, Repr

structure TierState where
  nmem    : Tab Byte := []
  dmem    : Tab Byte := []
  /-- Written bits by 2 MiB page (R211). -/
  nWritten : Tab Bool := []
  dWritten : Tab Bool := []
  /-- Symbols in error of each 64 B granule, and its POISON tag (R202). -/
  nBad    : Tab Nat := []
  dBad    : Tab Nat := []
  nPoison : Tab Bool := []
  dPoison : Tab Bool := []
  /-- Dirty bits by N-tier OFFSET div 64 KiB (R216). -/
  dirty   : Tab Bool := []
  /-- Granules of movable tensors that steps have written, keyed handle × 2^40 + granule of the copy (R385). -/
  stepped : Tab Bool := []
  /-- Page heat counters, keyed handle × 2^20 + page (R213). -/
  pages   : Tab Nat := []
  tensors : Tab Tensor := []
  allocs  : List Alloc := []
  moves   : List Move := []
  xbar    : List Access := []
  queue   : List Access := []
  ended   : List Ended := []
  nextId  : Nat := 0
  /-- Granules corrected and awaiting write-back (R203): tier, granule. -/
  writeback : List (Bool × Nat) := []
  /-- Banks or units blocked by maintenance: (D-tier, unit, bank; bank 1000 = whole unit). -/
  blocked : List (Bool × Nat × Nat) := []
  /-- The next access that a command or an engine makes in one event ends LATE (R224). -/
  overdue : Bool := false
deriving DecidableEq, Repr

/-! ### Flash tier -/

structure Block where
  erases  : Nat := 0
  band    : Nat := 0
  retired : Bool := false
  /-- Page reads since the last program or scrub, mean retry step × 32 and most corrected bits at the last scrub. -/
  reads   : Nat := 0
  retry   : Nat := 0
  bits    : Nat := 0
  /-- Counter value at the last program or scrub (R244). -/
  since   : Nat := 0
  /-- Due for retirement while its channel has no spare (R245). -/
  due     : Bool := false
deriving DecidableEq, Repr

/-- Base manifest entry (R238) or archive member. -/
structure FTensor where
  format : Nat
  cls    : Nat
  elem   : Nat
  scale  : Nat
  fBase  : Nat
deriving DecidableEq, Repr

structure Archive where
  live    : Bool := false
  members : List FTensor := []
  rows    : Nat := 0
  firstRow : Nat := 0
  handles : List Nat := []
deriving DecidableEq, Repr

/-- A row waiting to be programmed for VARIANT_ARCHIVE or BASE_INSTALL: the command, the row's number (OFFSET div 244 ×
64 KiB), its user bytes that count, and its bytes that are not zero, by place in the row. -/
structure FtRow where
  seqNo : Nat
  row   : Nat
  bytes : Nat
  data  : List (Nat × Byte)
deriving DecidableEq, Repr

structure Flash where
  fmem     : Tab Byte := []
  blocks   : Tab Block := []
  /-- Physical block that holds extent e on channel c, keyed c × 8192 + e; unlisted = e (as shipped). -/
  extMap   : Tab Nat := []
  /-- 0 = free, 1 = base, 2 = archive, 3 = open archive extent. -/
  extents  : Tab Nat := []
  base     : List FTensor := []
  archives : Tab Archive := []
  /-- Next row (OFFSET div row bytes) of the open extent. -/
  openExt  : Option Nat := none
  openRow  : Nat := 0
  rows     : List FtRow := []
  /-- Relocations in progress: channel, old block, and the block that the data is to go to where levelling has named it. -/
  relocs   : List (Nat × Nat × Option Nat) := []
  /-- Blocks being erased before reuse: channel, block. -/
  erasing  : List (Nat × Nat) := []
  baseKey  : Nat := 0
  archKey  : Nat := 0
  /-- Staged manifest of a running BASE_INSTALL. -/
  newBase  : List FTensor := []
  /-- 4 KiB units of F-tier space that a read has found lost to both codes (R236, R237), by OFFSET div 4,096. -/
  lost     : Tab Bool := []
deriving DecidableEq, Repr

/-! ### Schedule, power, boot, fabric, twin, observability -/

structure Sched where
  /-- Entry of bank b, slot n, resource r at 2048 × b + 4 × n + r (R259). -/
  table   : Tab Word := []
  /-- Frame in progress (R257). -/
  frame   : Nat := 0
  slot    : Nat := 0
  /-- Frame boundaries that the step counter has passed in one step of its own and whose work has not been done. -/
  due     : Nat := 0
  /-- Class-3 meter with its debt, service of classes 0 and 3 in this frame, and maintenance in this frame, in 0.1 ns of
  one arbiter, each keyed resource × 256 + metered unit (R267). -/
  bg      : Tab Nat := []
  c0      : Tab Nat := []
  c3      : Tab Nat := []
  maint   : Tab Nat := []
  /-- Class-3 service at the F-tier in up to 15 frames before this one, newest first (R267). -/
  fLast   : List Nat := []
  /-- Class granted last at an arbiter, keyed resource × 4096 + unit: true = class 0 (R265). -/
  lastC0  : Tab Bool := []
  /-- The hull after the one served last at an arbiter within its class: where the round-robin goes on (R265). -/
  lastHull : Tab Nat := []
  /-- Parties of GUARANTEE_BREACH events recorded this frame (R270). -/
  breaches : List (Nat × Nat × Nat × Nat) := []
  /-- Calibration windows waiting, and when (in frames) one was last taken. -/
  calLast : Tab Nat := []
deriving DecidableEq, Repr

/-- A request to the ramp governor (R429). -/
inductive RampAct where
  | domainOn (d : Nat)
  | domainOff (d : Nat)
  | pointUp (pod : Nat)
  | pointDown (pod : Nat)
  | restore (pod : Nat)
deriving DecidableEq, Repr

structure Power where
  /-- The 54 V input is in range (power-good). -/
  good     : Bool := true
  /-- The input must be removed 1 s after a short (R432). -/
  shorted  : Bool := false
  present  : Bool := true
  /-- Ramp budget in µW, which may fall below zero, and the step-counter value to which it has risen (R429). -/
  budget   : Int := 20000000
  budgetAt : Nat := 0
  ramp     : List RampAct := []
  /-- Domains on their way up (R421). -/
  rising   : List Nat := []
  tripped  : Bool := false
  /-- Step-counter value of the previous trip, for the 10-minute rule. -/
  lastTrip : Option Nat := none
  secondTrip : Bool := false
  /-- Guardian samples with the input above the limit in a row, and samples below the restore level. -/
  overFor  : Nat := 0
  underFor : Nat := 0
  /-- The input power of up to 1,000 samples, newest first. -/
  recent   : List Nat := []
  /-- Sensors whose latest reading is out of range. -/
  badSensors : List Nat := []
  /-- Samples since the last cut for power or current, kept to 5. -/
  sinceCut : Nat := 5
  /-- THERM_ALERT# as last driven. -/
  alertLow : Bool := false
  /-- Latest readings by sensor number (1/16 °C, two's complement 16 bits). -/
  temps    : Tab Nat := []
  /-- Latest currents of the regulators, in 10 mA. -/
  currents : Tab Nat := []
  /-- Stacks at half rate. -/
  halfRate : List Nat := []
  coolFor  : Tab Nat := []
  /-- GUARDIAN_THROTTLE events of this frame, by domain (R426). -/
  throttled : List Nat := []
  /-- Round-robin pointer of the power action. -/
  nextPod  : Nat := 0
  /-- When RESET_REQ# was last known to stand low; none since power-good if it never was (R435). -/
  resetLow : Option Nat := none
  reversed : Bool := false
  tap      : TapInstr := .idcode
deriving DecidableEq, Repr

/-- A Husk image slot beyond its register (R403, R404). -/
structure Image where
  keyIndex : Nat := 0
  revoke   : Nat := 0
  /-- Digest of header and body; none for the image of a module as shipped. -/
  digest   : Option (BitVec 384) := none
  /-- Header, signature and digests check out, revocation and SVN apart. -/
  sound    : Bool := true
  /-- A TRIAL image has booted once without being confirmed. -/
  tried    : Bool := false
  /-- Consecutive boots of the confirmed image that failed to reach READY. -/
  failures : Nat := 0
deriving DecidableEq, Repr

structure Boot where
  images    : Tab Image := []
  /-- Pending life-cycle target (R415). -/
  lcTarget  : Nat := 0
  recovery  : Bool := false
  /-- Step of R400 completed. -/
  done      : Nat := 1
  /-- Parked by a HELLO of the PF with another major version (R410). -/
  helloPark : Bool := false
  /-- Parked by a twin rule, which holds completions back (R389). -/
  mute      : Bool := false
  /-- Events held by Husk until the recorder is reloaded (R443): code, hull, tenant, payload, stamp. -/
  held      : List (Nat × Option Nat × Option Nat × BitVec 768 × DWord) := []
  prevTime  : Nat := 0
  /-- Step-counter value at power-good or at the assertion of the reset (R400, R418). -/
  since     : Nat := 0
deriving DecidableEq, Repr

structure PortState where
  /-- Next sequence number expected, next to send, oldest unacknowledged, modulo 4,096 (R366). -/
  rxSeq    : Nat := 0
  txSeq    : Nat := 0
  acked    : Nat := 0
  ackDue   : Bool := false
  /-- The retry buffer: flits sent and not yet acknowledged, oldest first (R366). -/
  retry    : List LinkFlit := []
  /-- Places of the peer's 512-flit buffer that this port's flits hold, by VC (R367). -/
  used     : Tab Nat := []
  /-- Places freed here and not yet returned in a CREDITS field. -/
  owed     : Tab Nat := []
  /-- Replays in a row without a new acknowledgement. -/
  failures : Nat := 0
  /-- Lanes as last trained; they carry traffic in UP and DEGRADED alone (R362). -/
  lanes    : Nat := 0
  /-- Consecutive clean trainings of each lane (R364). -/
  clean    : Tab Nat := []
  trainFails : Nat := 0
  /-- Packets waiting at the egress, oldest first, each with its hull if it is a hull's traffic (R258); those of one virtual
  channel are its stream (R365). -/
  egress   : List (Option Nat × Packet) := []
  /-- Bytes sent of the first packet of each virtual channel's stream. -/
  sent     : Tab Nat := []
  /-- A timestamp message is to leave with the next flit (R381). -/
  timeDue  : Bool := false
deriving DecidableEq, Repr

/-- A REQ packet without its response (R376). -/
inductive ReqUse where
  | stream (pod eng job chunk : Nat)
  | queueOpen (pod route : Nat)
  | queueEntry (pod route tile : Nat)
  | dispatch (hull : Nat)
  /-- A channel's access: bytes, and whether it is a read. -/
  | bdp (chan fn len : Nat) (read : Bool)
  /-- An access of another requester of TIER_ACCESS (R38). -/
  | direct (req : AccessReq)
  | ack
deriving DecidableEq, Repr

structure PendingReq where
  tag  : Nat
  dst  : Nat
  use  : ReqUse
  /-- Global address that the request names. -/
  addr : DWord := 0
deriving DecidableEq, Repr

/-- The route to a destination ID (R372, R375). -/
structure Route where
  state : Nat := 4
  links : Nat := 0
  port  : Nat := 0
  via   : List Nat := []
  bw    : Nat := 0
  /-- New packets are held while the old path settles (R373). -/
  held  : Bool := false
deriving DecidableEq, Repr

structure Fabric where
  ports    : Tab PortState := []
  routes   : Tab Route := []
  /-- Link reports of other devices, by origin (R373). -/
  reports  : List RouteUpdate := []
  pending  : List PendingReq := []
  nextTag  : Nat := 0
  /-- Packets held for a destination across a path change, with the hull of each. -/
  heldOut  : List (Nat × Option Nat × Packet) := []
  updGen   : Nat := 0
  /-- Route recomputations since reset (R375). -/
  routeGen : Nat := 0
  /-- FAB_INSTALL as last committed to the F-tier system blocks, with COMMIT set once an ID is committed (R371). -/
  installed : Nat := 0
deriving DecidableEq, Repr

/-- An epoch staged on a standby (R386). -/
structure Staged where
  hdr    : EpochHdr
  body   : List MirrorRec
  marked : Bool := false
deriving DecidableEq, Repr

structure Twin where
  /-- The partner's arm, seen before this module's: active, role, IF_MAJOR, IF_MINOR (R384). -/
  armed    : Option (Bool × Bool × Nat × Nat) := none
  /-- The partner's fabric ID, as the twin port's PEER_CHECK reported it (R362, R390). -/
  partner  : Option Nat := none
  /-- Number of the next epoch that this module sends, and of the next whose header it expects (R386). -/
  nextEpoch : Nat := 1
  expect   : Nat := 1
  staged   : List Staged := []
  /-- Active: the snapshot sent and not yet acknowledged. Standby: the snapshot whose marker has arrived. -/
  snapEpoch : Option Nat := none
  /-- Standby: the mirrored rings' records by ring (R385). -/
  rings    : Tab (Option MirrorRec) := []
  /-- Standby: the mirrored completion of the highest position of each CQ slot, keyed ring × 65536 + slot (R391). -/
  cq       : Tab (BitVec 256) := []
  /-- Standby: committed outputs of the epochs whose marker arrived: function, host address, bytes (R390). -/
  outputs  : List (Nat × Nat × List Byte) := []
  /-- Commands, by ring and SEQ, whose effects an applied epoch records beyond their ring's mirrored SQ_HEAD (R391). -/
  skips    : List (Nat × Nat) := []
  /-- Mirror bytes that stood unsent at the marker of each step's epoch that the active waits for (R387). -/
  unsent   : Tab Nat := []
  twaOut   : Nat := 4
  twaIn    : Nat := 0
  seenTakeover : Bool := false
deriving DecidableEq, Repr

/-- An event record (R444). -/
structure Record where
  stamp   : DWord
  code    : Nat
  index   : Nat
  hull    : Option Nat
  tenant  : Option Nat
  devByte : Nat
  gen     : Nat
  payload : BitVec 768
deriving DecidableEq, Repr

/-- A log entry waiting in Husk's buffer (R450, R451). -/
structure LogEntry where
  stamp : DWord
  kind  : Nat
  id    : Nat
  seq   : Nat
  len   : Nat
  body  : BitVec 384
deriving DecidableEq, Repr

structure Sample where
  buf    : Nat := 0
  len    : Nat := 0
  mask   : Nat := 0
  period : Nat := 0
  /-- Bytes written to BUF, and samples captured, in this session. -/
  pos    : Nat := 0
  taken  : Nat := 0
deriving DecidableEq, Repr

structure Observe where
  /-- The records are in the recorder; false from power-good until the reload at step 6 (R443). -/
  loaded  : Bool := false
  records : List Record := []
  /-- Copy in the F-tier system blocks, and the saved LOST, FIRST_LOST, GEN (R443). -/
  copy    : List Record := []
  savedLost : Nat := 0
  savedFirst : DWord := 0
  savedGen : Nat := 0
  /-- Records of each event code written in this frame (R442). -/
  perCode : Tab Nat := []
  log     : List LogEntry := []
  logSeq  : Nat := 0
  dropped : Nat := 0
  sample  : Sample := {}
  traceRate : Nat := 0
deriving DecidableEq, Repr

/-- The block. -/
structure State where
  /-- BAR0 register words by offset; an unlisted word reads its reset value. -/
  bar     : Tab Word := []
  /-- The 64-bit step counter, 1 ns a tick (R13, R398). -/
  counter : DWord := 0
  host    : HostState := {}
  tiles   : Tab Tile := []
  pods    : Tab Pod := []
  routers : Tab Router := []
  srv     : Serving := {}
  tier    : TierState := {}
  flash   : Flash := {}
  sched   : Sched := {}
  pwr     : Power := {}
  boot    : Boot := {}
  fab     : Fabric := {}
  twin    : Twin := {}
  obs     : Observe := {}
  /-- Model's own: the count of free values taken (Config.freeWord). No rule of the manual names it. -/
  free    : Nat := 0
  /-- Model's own: what has left the block, oldest first. -/
  out     : List Out := []
  /-- Model's own: commands and events waiting, first in, first out. -/
  pending : List Instr := []
deriving DecidableEq, Repr

/-- The block right after a power-on reset of a module as shipped: nothing listed, every register at its reset value. -/
def State.reset : State := {}

end Sys2Proof.Machine
end

