-- ==== Sys2Proof/Machine/Tab.lean ====
section
/-! DEFINITION. The operations on sparse tables and byte memories, bit fields, byte order and checksums. A table holds
what differs from its default and nothing else, in rising order of index, so that equal contents are equal lists. -/

namespace Sys2Proof.Machine

/-- The value at index `k`, or the default `d`. -/
def tget {α : Type} : Tab α → Nat → α → α
  | [], _, d => d
  | (j, v) :: t, k, d => if j = k then v else tget t k d

/-- The table without index `k`. -/
def tdel {α : Type} (t : Tab α) (k : Nat) : Tab α := t.filter (fun e => e.1 != k)

/-- `(k, v)` put in its place in rising order. -/
def tins {α : Type} : Tab α → Nat → α → Tab α
  | [], k, v => [(k, v)]
  | (j, w) :: t, k, v => if k < j then (k, v) :: (j, w) :: t else (j, w) :: tins t k v

/-- The table with `v` at `k`; writing the default removes the entry. -/
def tput {α : Type} [DecidableEq α] (t : Tab α) (k : Nat) (v d : α) : Tab α :=
  if v = d then tdel t k else tins (tdel t k) k v

/-- The table with every index of `[lo, hi)` back at its default. -/
def tclear {α : Type} (t : Tab α) (lo hi : Nat) : Tab α := t.filter (fun e => e.1 < lo || hi ≤ e.1)

/-- The indices a table lists. -/
def tkeys {α : Type} (t : Tab α) : List Nat := t.map (·.1)

/-- The canonical form: indices strictly rising, and no value equal to the default. -/
def twf {α : Type} [DecidableEq α] (d : α) : Tab α → Bool
  | [] => true
  | (k, v) :: t => (v != d) && t.all (fun e => k < e.1) && twf d t

/-- The canonical form of a byte memory whose unlisted bytes read zero. -/
def Memory.wf (m : Tab Byte) : Bool := twf 0#8 m

/-- The bytes of a memory from `base`, `len` of them. -/
def mread (m : Tab Byte) (base len : Nat) : List Byte :=
  (List.range len).map (fun i => tget m (base + i) 0#8)

/-- The memory with `data` stored from `base`. -/
def mwrite (m : Tab Byte) : Nat → List Byte → Tab Byte
  | _, [] => m
  | base, b :: bs => mwrite (tput m base b 0#8) (base + 1) bs

/-- Bits [lo + w − 1 : lo] of a number. -/
def bits (v lo w : Nat) : Nat := (v >>> lo) % 2 ^ w

/-- One bit of a number. -/
def bit (v lo : Nat) : Bool := bits v lo 1 = 1

/-- A number with bits [lo + w − 1 : lo] replaced by `x`. -/
def setBits (v lo w x : Nat) : Nat := v - bits v lo w * 2 ^ lo + (x % 2 ^ w) * 2 ^ lo

/-- Two's complement reading of a `w`-bit number. -/
def signed (v w : Nat) : Int := if bit v (w - 1) then (v % 2 ^ w : Nat) - (2 ^ w : Nat) else (v % 2 ^ w : Nat)

/-- The `w`-bit two's complement of an integer. -/
def wrap (v : Int) (w : Nat) : Nat := (v % (2 ^ w : Nat)).toNat

/-- A Bool as a bit. -/
def b2n (b : Bool) : Nat := if b then 1 else 0

/-- Little-endian value of bytes (R12). -/
def leNat : List Byte → Nat
  | [] => 0
  | b :: bs => b.toNat + 256 * leNat bs

/-- The `n` little-endian bytes of a value (R12). -/
def leBytes : Nat → Nat → List Byte
  | _, 0 => []
  | v, n + 1 => BitVec.ofNat 8 v :: leBytes (v / 256) n

/-- `n` zero bytes. -/
def zeros (n : Nat) : List Byte := List.replicate n 0#8

/-- Rounded up to a multiple of `m`. -/
def roundUp (v m : Nat) : Nat := (v + m - 1) / m * m

/-- ⌈v ÷ m⌉. -/
def ceilDiv (v m : Nat) : Nat := (v + m - 1) / m

/-- One bit of a reflected CRC with polynomial `poly`. -/
def crcBit (poly crc : Nat) : Nat := if crc % 2 = 1 then (crc / 2) ^^^ poly else crc / 2

/-- One byte of a reflected CRC. -/
def crcByte (poly crc : Nat) (b : Byte) : Nat :=
  (List.range 8).foldl (fun c _ => crcBit poly c) (crc ^^^ b.toNat)

/-- CRC-32 with the IEEE 802.3 polynomial (R137, R147, R154). -/
def crc32 (bs : List Byte) : Nat := (bs.foldl (crcByte 0xEDB88320) 0xFFFFFFFF) ^^^ 0xFFFFFFFF

/-- One bit of the CRC-64 with the ECMA-182 polynomial, most significant bit first. -/
def crc64Bit (crc : Nat) : Nat :=
  if bit crc 63 then (crc * 2 % 2 ^ 64) ^^^ 0x42F0E1EBA9EA3693 else crc * 2 % 2 ^ 64

/-- CRC-64 with the ECMA-182 polynomial (R365, R386). -/
def crc64 (bs : List Byte) : Nat :=
  bs.foldl (fun c b => (List.range 8).foldl (fun c _ => crc64Bit c) (c ^^^ (b.toNat * 2 ^ 56))) 0

/-- Saturating addition of a `w`-bit counter. -/
def satAdd (w v n : Nat) : Nat := min (v + n) (2 ^ w - 1)

/-- A list with element `i` replaced. -/
def setAt {α : Type} (l : List α) (i : Nat) (v : α) : List α := l.set i v

/-- Insertion of an element into a list ordered by `le`, after its equals. -/
def insertBy {α : Type} (le : α → α → Bool) (x : α) : List α → List α
  | [] => [x]
  | y :: ys => if le y x then y :: insertBy le x ys else x :: y :: ys

/-- A stable sort by `le`. -/
def sortBy {α : Type} (le : α → α → Bool) (l : List α) : List α :=
  l.foldl (fun acc x => insertBy le x acc) []

/-- `f` applied `n` times. -/
def iterate {α : Type} (f : α → α) : Nat → α → α
  | 0, a => a
  | n + 1, a => iterate f n (f a)

end Sys2Proof.Machine
end

