-- ==== Sys2Proof/Machine/Float.lean ====
section
/-! DEFINITION. FP32 arithmetic with one rounding (R90, R98, R110), the narrow float formats (R89, R122), and the special
functions of the SFUs in both modes (R117, R121, R130, R131). A finite FP32 value is an integer multiple of 2^−149. -/

namespace Sys2Proof.Machine

/-- What an FP32 pattern denotes: NaN, an infinity, or `v × 2^−149` with the sign of a zero kept. -/
inductive FpVal where
  | nan
  | inf (neg : Bool)
  | fin (neg : Bool) (v : Int)
deriving DecidableEq, Repr

/-- The canonical quiet NaN (R90). -/
def canonNaN : Word := 0x7FC00000#32

def fpInf (neg : Bool) : Word := if neg then 0xFF800000#32 else 0x7F800000#32
def fpZero (neg : Bool) : Word := if neg then 0x80000000#32 else 0#32
def fpOne : Word := 0x3F800000#32

/-- The value of an FP32 pattern. -/
def fpVal (w : Word) : FpVal :=
  let n := w.toNat
  let neg := bit n 31
  let e := bits n 23 8
  let f := bits n 0 23
  if e = 255 then (if f = 0 then .inf neg else .nan)
  else
    let m := if e = 0 then f else (f + 2 ^ 23) * 2 ^ (e - 1)
    .fin neg (if neg then -(m : Int) else m)

/-- A magnitude `m × 2^(k − 149)` packed as FP32 after one rounding: to nearest, ties to even, or toward zero. -/
def fpPack (rz neg : Bool) (m : Nat) (k : Int) : Word :=
  let len : Int := (Nat.log2 m : Int) + 1
  let q : Int := max (k + len - 24) 0
  let sh := q - k
  let top := if sh ≤ 0 then m * 2 ^ (-sh).toNat else m / 2 ^ sh.toNat
  let rem := if sh ≤ 0 then 0 else m % 2 ^ sh.toNat
  let half := if sh ≤ 0 then 1 else 2 ^ (sh.toNat - 1)
  let up := !rz && (decide (half < rem) || (rem == half && top % 2 == 1))
  let t := top + b2n up
  let t2 := if t = 2 ^ 24 then 2 ^ 23 else t
  let q2 := if t = 2 ^ 24 then q + 1 else q
  let sign := b2n neg * 2 ^ 31
  if 254 ≤ q2 then (if rz then BitVec.ofNat 32 (sign + 0x7F7FFFFF) else fpInf neg)
  else if t2 < 2 ^ 23 then BitVec.ofNat 32 (sign + t2)
  else BitVec.ofNat 32 (sign + (q2.toNat + 1) * 2 ^ 23 + (t2 - 2 ^ 23))

/-- The exact value `v × 2^(k − 149)` rounded to FP32; an exact zero takes the sign `zneg`. -/
def fpRound (rz : Bool) (v : Int) (k : Int) (zneg : Bool) : Word :=
  if v = 0 then fpZero zneg else fpPack rz (decide (v < 0)) v.natAbs k

def fpIsNaN (w : Word) : Bool := fpVal w == .nan
def fpNeg? (w : Word) : Bool := bit w.toNat 31

/-- Addition with one rounding. -/
def fpAddR (rz : Bool) (a b : Word) : Word :=
  match fpVal a, fpVal b with
  | .nan, _ => canonNaN
  | _, .nan => canonNaN
  | .inf x, .inf y => if x = y then fpInf x else canonNaN
  | .inf x, .fin _ _ => fpInf x
  | .fin _ _, .inf y => fpInf y
  | .fin x u, .fin y v => fpRound rz (u + v) 0 (x && y)

/-- Multiplication with one rounding (R98). -/
def fpMulR (rz : Bool) (a b : Word) : Word :=
  match fpVal a, fpVal b with
  | .nan, _ => canonNaN
  | _, .nan => canonNaN
  | .inf x, .inf y => fpInf (x != y)
  | .inf x, .fin y v => if v = 0 then canonNaN else fpInf (x != y)
  | .fin x u, .inf y => if u = 0 then canonNaN else fpInf (x != y)
  | .fin x u, .fin y v => fpRound rz (u * v) (-149) (x != y)

/-- Division of a finite value by a finite non-zero one with one rounding (used by R131 alone). -/
def fpDivR (rz : Bool) (a b : Word) : Word :=
  match fpVal a, fpVal b with
  | .fin x u, .fin y v =>
    if v = 0 then canonNaN else
    let n := u.natAbs * 2 ^ 300
    let q := n / v.natAbs * 2 + b2n (decide (n % v.natAbs ≠ 0))
    fpRound rz (if x != y then -(q : Int) else q) (-152) (x != y)
  | _, _ => canonNaN

def fpAdd : Word → Word → Word := fpAddR false
def fpMul : Word → Word → Word := fpMulR false

/-- Negation; a NaN gives the canonical NaN (R90, R110). -/
def fpNegate (a : Word) : Word := if fpIsNaN a then canonNaN else a ^^^ 0x80000000#32

def fpAbs (a : Word) : Word := if fpIsNaN a then canonNaN else a &&& 0x7FFFFFFF#32

def fpSub (a b : Word) : Word := fpAdd a (fpNegate b)

/-- Fused multiply-add, one rounding (R110). -/
def fpFma (a b c : Word) : Word :=
  match fpVal a, fpVal b, fpVal c with
  | .fin x u, .fin y v, .fin z w =>
    fpRound false (u * v + w * 2 ^ 149) (-149) ((x != y) && z)
  | .fin _ _, .fin _ _, .inf z => fpInf z
  | _, _, _ => fpAdd (fpMul a b) c

/-- Whether a < b, where both are numbers. -/
def fpLt (a b : Word) : Bool :=
  match fpVal a, fpVal b with
  | .nan, _ => false
  | _, .nan => false
  | .inf x, .inf y => x && !y
  | .inf x, .fin _ _ => x
  | .fin _ _, .inf y => !y
  | .fin _ u, .fin _ v => decide (u < v)

/-- Whether a = b as numbers. -/
def fpEq (a b : Word) : Bool := !fpIsNaN a && !fpIsNaN b && !fpLt a b && !fpLt b a

def fpLe (a b : Word) : Bool := fpLt a b || fpEq a b

/-- Max: NaN if either is NaN; max(+0, −0) is +0 (R110). -/
def fpMax (a b : Word) : Word :=
  if fpIsNaN a || fpIsNaN b then canonNaN
  else if fpLt a b then b else if fpLt b a then a else if fpNeg? a then b else a

/-- Min: NaN if either is NaN; min(+0, −0) is −0 (R110). -/
def fpMin (a b : Word) : Word :=
  if fpIsNaN a || fpIsNaN b then canonNaN
  else if fpLt a b then a else if fpLt b a then b else if fpNeg? a then a else b

/-- An integer as FP32, rounded to nearest, ties to even. -/
def fpOfInt (v : Int) : Word := fpRound false v 149 false

/-- `v × 2^−149` rounded to an integer, to nearest with ties to even or toward zero. -/
def fpIntRound (rz : Bool) (v : Int) : Int :=
  let m := v.natAbs
  let top := m / 2 ^ 149
  let rem := m % 2 ^ 149
  let up := !rz && (decide (2 ^ 148 < rem) || (rem == 2 ^ 148 && top % 2 == 1))
  let t : Int := (top + b2n up : Nat)
  if v < 0 then -t else t

def clampInt (v lo hi : Int) : Int := max lo (min hi v)

/-- FP32 to a two's complement integer of `w` bits: saturating, 0 for NaN (R110, R122). -/
def fpToInt (rz : Bool) (w : Nat) (a : Word) : Nat :=
  let lo : Int := -(2 ^ (w - 1) : Nat)
  let hi : Int := (2 ^ (w - 1) : Nat) - 1
  match fpVal a with
  | .nan => 0
  | .inf neg => wrap (if neg then lo else hi) w
  | .fin _ v => wrap (clampInt (fpIntRound rz v) lo hi) w

/-! ### BF16 and FP16 (R89, R122, R132) -/

/-- BF16 to FP32, exact; a NaN becomes canonical. -/
def bf16ToFp (n : Nat) : Word :=
  let w := BitVec.ofNat 32 (n % 65536 * 65536)
  if fpIsNaN w then canonNaN else w

/-- FP16 to FP32, exact; a NaN becomes canonical. -/
def fp16ToFp (n : Nat) : Word :=
  let neg := bit n 15
  let e := bits n 10 5
  let f := bits n 0 10
  if e = 31 then (if f = 0 then fpInf neg else canonNaN)
  else
    let m := if e = 0 then f else (f + 1024) * 2 ^ (e - 1)
    fpRound false (if neg then -(m : Int) else m) 125 neg

/-- A finite magnitude `m × 2^−149` rounded to a float format of `p` significand bits, `ew` exponent bits and least
quantum 2^(qmin − 149): the pattern without its sign. -/
def narrow (rz : Bool) (p ew qmin : Nat) (m : Nat) : Nat :=
  let len := Nat.log2 m + 1
  let q := max (len - p) qmin
  let top := m / 2 ^ q
  let rem := m % 2 ^ q
  let up := !rz && (decide (2 ^ q < 2 * rem) || (2 * rem == 2 ^ q && top % 2 == 1))
  let t := top + b2n up
  let t2 := if t = 2 ^ p then 2 ^ (p - 1) else t
  let q2 := if t = 2 ^ p then q + 1 else q
  let infPat := (2 ^ ew - 1) * 2 ^ (p - 1)
  if m = 0 then 0
  else if t2 < 2 ^ (p - 1) then t2
  else
    let e := q2 - qmin + 1
    if 2 ^ ew - 1 ≤ e then (if rz then infPat - 1 else infPat) else e * 2 ^ (p - 1) + (t2 - 2 ^ (p - 1))

/-- FP32 to BF16 (R122, R132). -/
def fpToBf16 (rz : Bool) (a : Word) : Nat :=
  match fpVal a with
  | .nan => 0x7FC0
  | .inf neg => b2n neg * 0x8000 + 0x7F80
  | .fin neg v => b2n neg * 0x8000 + narrow rz 8 8 16 v.natAbs

/-- FP32 to FP16 (R122, R132). -/
def fpToFp16 (rz : Bool) (a : Word) : Nat :=
  match fpVal a with
  | .nan => 0x7E00
  | .inf neg => b2n neg * 0x8000 + 0x7C00
  | .fin neg v => b2n neg * 0x8000 + narrow rz 11 5 125 v.natAbs

/-! ### Fixed-point series, in units of 2^−`fxBits` -/

/-- Fraction bits of the fixed-point evaluation: far beyond what the rounding of an FP32 result can need. -/
def fxBits : Nat := 448

def fxOne : Int := (2 ^ fxBits : Nat)

def fxMul (a b : Int) : Int := a * b / fxOne

/-- Σ z^(2i+1)/(2i+1), with alternating signs for arctan: `n` terms. -/
def fxAtan (alt : Bool) (z : Int) (n : Nat) : Int :=
  let z2 := fxMul z z
  ((List.range n).foldl (fun (acc : Int × Int) (i : Nat) =>
    let term := acc.2 / ((2 * i + 1 : Nat) : Int)
    (if alt && i % 2 == 1 then acc.1 - term else acc.1 + term, fxMul acc.2 z2)) (0, z)).1

/-- ln 2 = 2 artanh(1/3). -/
def fxLn2 : Int := 2 * fxAtan false (fxOne / 3) 150

/-- π by Machin's formula. -/
def fxPi : Int := 16 * fxAtan true (fxOne / 5) 110 - 4 * fxAtan true (fxOne / 239) 40

/-- Σ y^i/i!, `n` terms. -/
def fxExp (y : Int) (n : Nat) : Int :=
  ((List.range n).foldl (fun (acc : Int × Int) (i : Nat) =>
    (acc.1 + acc.2, fxMul acc.2 y / ((i + 1 : Nat) : Int))) (0, fxOne)).1

/-- Σ (−1)^i y^(2i+s)/(2i+s)!: cosine for s = 0, sine for s = 1. -/
def fxTrig (s : Nat) (y : Int) (n : Nat) : Int :=
  let y2 := fxMul y y
  ((List.range n).foldl (fun (acc : Int × Int) (i : Nat) =>
    (acc.1 + acc.2, -(fxMul acc.2 y2 / (((2 * i + s + 1) * (2 * i + s + 2) : Nat) : Int))))
    (0, if s = 0 then fxOne else y)).1

/-- 2^r for 0 ≤ r < 1. -/
def fxExp2 (r : Int) : Int := fxExp (fxMul r fxLn2) 90

/-- log2 of a magnitude `m × 2^−149`, m > 0: exact for a power of two. -/
def fxLog2 (m : Nat) : Int :=
  let k := Nat.log2 m
  let d : Int := (m : Int) - (2 ^ k : Nat)
  let s : Int := (m : Int) + (2 ^ k : Nat)
  let z := d * fxOne / s
  ((k : Int) - 149) * fxOne + (if d = 0 then 0 else 2 * fxAtan false z 150 * fxOne / fxLn2)

/-- A fixed-point value, not exact, rounded to FP32. -/
def fxRound (v : Int) : Word := fpRound false (2 * v + (if v < 0 then -1 else 1)) (148 - (fxBits : Int)) false

/-! ### EXP2, LOG2, SIN, COS in normal mode (R117, R121) -/

def sfuExp2 (x : Word) : Word :=
  match fpVal x with
  | .nan => canonNaN
  | .inf neg => if neg then 0#32 else fpInf false
  | .fin _ v =>
    if (128 * 2 ^ 149 : Int) ≤ v then fpInf false
    else if v ≤ -(150 * 2 ^ 149 : Int) then 0#32
    else
      let n := v / 2 ^ 149
      let r := v % 2 ^ 149
      if r = 0 then fpRound false 1 (149 + n) false
      else
        let m := fxExp2 (r * 2 ^ (fxBits - 149))
        fpRound false (2 * m + 1) (148 - (fxBits : Int) + n) false

def sfuLog2 (x : Word) : Word :=
  match fpVal x with
  | .nan => canonNaN
  | .inf neg => if neg then canonNaN else fpInf false
  | .fin _ v =>
    if v < 0 then canonNaN
    else if v = 0 then fpInf true
    else
      let m := v.natAbs
      let k := Nat.log2 m
      if m = 2 ^ k then fpOfInt ((k : Int) - 149) else fxRound (fxLog2 m)

/-- Sine (s = 1) or cosine (s = 0) of a finite FP32 with |x| < 2^20. -/
def trigFin (s : Nat) (v : Int) : Int :=
  let x := v * 2 ^ (fxBits - 149)
  let half := fxPi / 2
  let n := (2 * x + half) / (2 * half)
  let y := x - n * half
  let q := (n % 4).toNat
  let which := (s + q) % 2
  let t := fxTrig which y 60
  let negated := if s = 1 then q = 2 || q = 3 else q = 1 || q = 2
  if negated then -t else t

def sfuSin (x : Word) : Word :=
  match fpVal x with
  | .fin neg v =>
    if v = 0 then fpZero neg
    else if v.natAbs ≥ 2 ^ 169 then canonNaN else fxRound (trigFin 1 v)
  | _ => canonNaN

def sfuCos (x : Word) : Word :=
  match fpVal x with
  | .fin _ v =>
    if v = 0 then fpOne
    else if v.natAbs ≥ 2 ^ 169 then canonNaN else fxRound (trigFin 0 v)
  | _ => canonNaN

/-! ### The logarithmic table (R95) and the compatibility functions (R130, R131) -/

/-- 2^(f / 2^fb) correctly rounded to a 24-bit significand, as FP32 in [1, 2). -/
def lnTable (fb f : Nat) : Word :=
  if f = 0 then fpOne else fpRound false (2 * fxExp2 ((f : Int) * fxOne / (2 ^ fb : Nat)) + 1) (148 - (fxBits : Int)) false

/-- A finite value scaled by 2^n, rounded to nearest where the scaling is not exact. -/
def fpScale (a : Word) (n : Int) : Word :=
  match fpVal a with
  | .fin neg v => fpRound false v n neg
  | _ => a

/-- The product of a finite FP32 value and an exact fraction of `d` × 2^-149, rounded toward zero. -/
def fpMulExact (p : Word) (d : Int) : Word :=
  match fpVal p with
  | .fin neg v => fpRound true (v * d) (-149) neg
  | _ => p

/-- EXP2 in compatibility mode (R130). DEDUCED (log 160): r and d are exact, and for x just below 0 they have more bits than
an FP32 value; rz_mul then rounds the product of its first operand and the exact d. -/
def exp2Compat (x : Word) : Word :=
  match fpVal x with
  | .nan => canonNaN
  | .inf neg => if neg then 0#32 else fpInf false
  | .fin _ v =>
    if (128 * 2 ^ 149 : Int) ≤ v then fpInf false
    else if v < -(126 * 2 ^ 149 : Int) then 0#32
    else
      let n := v / 2 ^ 149
      let r := v % 2 ^ 149
      let j := (r / 2 ^ 145).toNat
      let d := r % 2 ^ 145
      let p := fpMulExact 0x3D635847#32 d
      let p := fpAddR true p 0x3E75FDF0#32
      let p := fpMulExact p d
      let p := fpAddR true p 0x3F317218#32
      let p := fpMulExact p d
      let p := fpAddR true p fpOne
      fpScale (fpMulR true (lnTable 4 j) p) n

def log2Compat (x : Word) : Word :=
  match fpVal x with
  | .nan => canonNaN
  | .inf neg => if neg then canonNaN else fpInf false
  | .fin _ v =>
    if v < 0 then canonNaN
    else if v < 2 ^ 23 then fpInf true
    else
      let k : Int := (Nat.log2 v.natAbs : Int) - 149
      let m := fpScale x (-k)
      let j := ((List.range 16).filter (fun j => fpLe (lnTable 4 j) m)).length - 1
      let u := fpDivR true m (lnTable 4 j)
      let z := fpAddR true u 0xBF800000#32
      let p := fpMulR true z 0xBE800000#32
      let p := fpAddR true p 0x3EAAAAAB#32
      let p := fpMulR true p z
      let p := fpAddR true p 0xBF000000#32
      let p := fpMulR true p z
      let p := fpAddR true p fpOne
      let w := fpMulR true p z
      let l := fpMulR true w 0x3FB8AA3B#32
      fpAddR true (fpRound true (16 * k + (j : Int)) 145 false) l

/-- The SFU function `fn` (R162: 0 = EXP2, 1 = LOG2, 2 = SIN, 3 = COS) of one lane. -/
def sfuLane (compat : Bool) (fn : Nat) (x : Word) : Word :=
  match fn with
  | 0 => if compat then exp2Compat x else sfuExp2 x
  | 1 => if compat then log2Compat x else sfuLog2 x
  | 2 => sfuSin x
  | _ => sfuCos x

end Sys2Proof.Machine
end

