-- ==== Sys2Proof/Machine/Format.lean ====
section
/-! DEFINITION. The number formats of R84, the products and group sums of the multiply-accumulate plane (R85–R102), and
the converters of the vector path in both modes (R122–R128, R132). -/

namespace Sys2Proof.Machine

/-! ### Format codes and geometry (R84, R92) -/

def fmtDefined (f : Nat) : Bool := f ≤ 6
def fmtIsLN (f : Nat) : Bool := f ≤ 2

/-- Element size in bits (R84). -/
def fmtBits (f : Nat) : Nat :=
  match f with
  | 0 => 4 | 1 => 8 | 2 => 16 | 3 => 8 | 4 => 16 | 5 => 16 | _ => 32

/-- Fraction bits of an LN code (R85). -/
def lnFB (f : Nat) : Nat := match f with | 0 => 1 | 1 => 4 | _ => 9

/-- Largest LN code. -/
def lnMax (f : Nat) : Nat := 2 ^ (fmtBits f - 1) - 1

/-- Output lanes L (R92). -/
def fmtLanes (f : Nat) : Nat := match f with | 0 => 16 | 1 => 8 | 2 => 2 | 3 => 4 | _ => 1

/-- Accumulator rows (R92). -/
def fmtRows (f : Nat) : Nat := 4096 / fmtLanes f

/-- Element bytes of one group of 32: GB of R168. -/
def fmtGroup (f : Nat) : Nat := 4 * fmtBits f

/-- Element bytes of a latch buffer (R92). -/
def fmtLatch (f : Nat) : Nat := fmtLanes f * fmtGroup f

/-! ### Elements -/

/-- Element `i` of packed bytes given as a little-endian number: LN4 packs two to a byte (R87). -/
def elemAt (f : Nat) (v i : Nat) : Nat := bits v (fmtBits f * i) (fmtBits f)

/-- A linear element as FP32, exact (R89, R97). -/
def linToFp (f e : Nat) : Word :=
  match f with
  | 3 => fpOfInt (signed e 8)
  | 4 => bf16ToFp e
  | 5 => fp16ToFp e
  | _ => if fpIsNaN (BitVec.ofNat 32 e) then canonNaN else BitVec.ofNat 32 e

/-- TABLE[f] × 2^e with sign, rounded once (R94, R96). -/
def lnRound (fb f : Nat) (e : Int) (neg : Bool) : Word :=
  let w := fpScale (lnTable fb f) e
  if neg then w ^^^ 0x80000000#32 else w

/-- A logarithmic product (R94). -/
def lnProduct (f a aScale b bScale : Nat) : Word :=
  let top := fmtBits f - 1
  let ca := bits a 0 top
  let cb := bits b 0 top
  let nan := aScale = 255 || bScale = 255 || (ca = 0 && bit a top) || (cb = 0 && bit b top)
  if nan then canonNaN
  else if ca = 0 || cb = 0 then 0#32
  else
    let t := (ca - 1) + (cb - 1)
    let fb := lnFB f
    lnRound fb (t % 2 ^ fb) ((t / 2 ^ fb : Nat) + (aScale : Int) + bScale - 254) (bit a top != bit b top)

/-- A product of the plane as FP32 (R94, R97, R98). -/
def planeProduct (f a aScale b bScale : Nat) : Word :=
  if fmtIsLN f then lnProduct f a aScale b bScale
  else if f = 3 then fpOfInt (signed a 8 * signed b 8)
  else fpMul (linToFp f a) (linToFp f b)

/-- The exact value of a finite product in units of 2^−149. -/
def fpExact (w : Word) : Int := match fpVal w with | .fin _ v => v | _ => 0

/-- The group sum G: exact, then rounded once, with the special values in the order of R101. -/
def groupSum (ps : List Word) : Word :=
  let vs := ps.map fpVal
  let pos := vs.contains (.inf false)
  let neg := vs.contains (.inf true)
  if vs.contains .nan || (pos && neg) then canonNaN
  else if pos then fpInf false
  else if neg then fpInf true
  else fpRound false ((ps.map fpExact).foldl (· + ·) 0) 0 (ps.all (· == fpZero true))

/-- The dot product of an activation group with one lane's weight group (R100): packed elements and block scales. -/
def groupDot (f act aScale wgt wScale : Nat) : Word :=
  groupSum ((List.range 32).map (fun i => planeProduct f (elemAt f act i) aScale (elemAt f wgt i) wScale))

/-! ### Conversion to and from LN (R123–R128, R132) -/

/-- |x| as a multiple of 2^−149; a NaN or an infinity gives 0. -/
def absExact (w : Word) : Nat := (fpExact w).natAbs

/-- Magnitude that the compatibility mode sees: a subnormal counts as zero (R132). -/
def compatMag (compat : Bool) (m : Nat) : Nat := if compat && decide (m < 2 ^ 23) then 0 else m

/-- q of R124 in fixed point for a magnitude m > 0. -/
def lnQ (f : Nat) (e : Nat) (m : Nat) : Int :=
  (fxLog2 m - ((e : Int) - 127) * fxOne) * (2 ^ lnFB f : Nat) + fxOne

/-- The block scale for a maximum magnitude (R123; R132 in compatibility mode). -/
def lnScale (compat : Bool) (f : Nat) (m : Nat) : Nat :=
  if m = 0 then 0
  else if compat then
    let k : Int := (Nat.log2 m : Int) - 149
    let sub : Int := match f with | 0 => 3 | 1 => 7 | _ => 63
    (clampInt (127 + k - sub) 0 254).toNat
  else
    let fb : Int := (2 ^ lnFB f : Nat)
    -- smallest E with (log2 M − (E − 127)) × 2^FB + 1 < max + 0.5
    let bound := (2 * fb * fxLog2 m - (2 * (lnMax f : Int) - 1) * fxOne) / (2 * fb * fxOne) + 127 + 1
    (clampInt bound 0 254).toNat

/-- The unlimited code of a magnitude under scale E (R124, R132): 0 below one half (below one, truncating). -/
def lnCode (compat : Bool) (f e m : Nat) : Nat :=
  if m = 0 then 0
  else
    let q := lnQ f e m
    (if compat then q / fxOne else (2 * q + fxOne) / (2 * fxOne)).toNat

/-- One element, and whether its code was limited. -/
def lnElem (compat : Bool) (f e : Nat) (x : Word) : Nat × Bool :=
  let c := lnCode compat f e (compatMag compat (absExact x))
  let c2 := min c (lnMax f)
  (if c2 = 0 then 0 else c2 + b2n (fpNeg? x) * 2 ^ (fmtBits f - 1), decide (lnMax f < c))

/-- An LN element under scale E as FP32 (R126). -/
def lnToFp (f e v : Nat) : Word :=
  let top := fmtBits f - 1
  let c := bits v 0 top
  if e = 255 || (c = 0 && bit v top) then canonNaN
  else if c = 0 then 0#32
  else
    let fb := lnFB f
    lnRound fb ((c - 1) % 2 ^ fb) (((c - 1) / 2 ^ fb : Nat) + (e : Int) - 127) (bit v top)

/-- The largest |x| over the lanes that are not NaN, as FP32 (R127). -/
def laneMax (xs : List Word) : Word :=
  xs.foldl (fun m x => if fpIsNaN x then m else fpMax m (x &&& 0x7FFFFFFF#32)) 0#32

/-- What a conversion from FP32 gives: packed elements, block scale, block maximum, limited lanes, special or not. -/
structure Cvt where
  packed  : Nat
  scale   : Option Nat
  maximum : Word
  limited : Nat
  special : Bool

/-- Elements packed in lane order at the format's element size (R87, R122, R123). -/
def packElems (f : Nat) (es : List Nat) : Nat :=
  (es.zip (List.range es.length)).foldl (fun acc e => acc + e.1 * 2 ^ (fmtBits f * e.2)) 0

/-- A lane as an element of a linear format (R122, R132). -/
def fpToLin (compat : Bool) (f : Nat) (x : Word) : Nat :=
  match f with
  | 3 => fpToInt compat 8 x
  | 4 => fpToBf16 compat x
  | 5 => fpToFp16 compat x
  | _ => if fpIsNaN x then canonNaN.toNat else x.toNat

/-- Conversion of 32 FP32 lanes to format `f`; `stored` is the tensor maximum of delayed scaling (R128). -/
def cvtFrom (compat : Bool) (f : Nat) (stored : Option Word) (xs : List Word) : Cvt :=
  let m := laneMax xs
  let hasNaN := xs.any fpIsNaN
  if fmtIsLN f then
    let special := hasNaN || xs.any (fun x => fpVal x == .inf false || fpVal x == .inf true)
    if special then { packed := 0, scale := some 255, maximum := m, limited := 0, special := true }
    else
      let usable := match stored with
        | some w => compatMag compat (absExact w)
        | none => 0
      let delayed := usable ≠ 0
      let mm := if delayed then usable else compatMag compat (absExact m)
      let e := lnScale compat f mm
      let es := xs.map (lnElem compat f e)
      { packed := packElems f (es.map (·.1)), scale := some e, maximum := m,
        limited := if delayed then (es.filter (·.2)).length else 0, special := false }
  else
    { packed := packElems f (xs.map (fpToLin compat f)), scale := none, maximum := m, limited := 0, special := hasNaN }

/-- Conversion of packed elements of format `f` to 32 FP32 lanes; `e` is the block scale of an LN format (R122, R126). -/
def cvtTo (f e packed : Nat) : List Word :=
  (List.range 32).map (fun i =>
    if fmtIsLN f then lnToFp f e (elemAt f packed i) else linToFp f (elemAt f packed i))

/-- The tensor-maximum register after a conversion (R127). -/
def tensorMax (old m : Word) : Word := if fpLe m old then old else m

end Sys2Proof.Machine
end

