-- ==== Sys2Proof/Config.lean ====
section
/-! DEFINITION. What the manual leaves to a value or a function that it does not state. Every constant here is opaque:
no proof sees a value, so a claim holds whatever the value is. -/

namespace Sys2Proof

/-- A value the manual leaves open, one for each count of `State.free`. -/
opaque Config.freeWord : Nat → Word

/-- SHA-384 (R403, R408): named by the manual, defined by another standard. -/
opaque Config.sha384 : List Byte → BitVec 384

/-- Whether an ECDSA P-384 signature over a digest verifies under the key that an image body carries (R403). -/
opaque Config.ecdsaValid : BitVec 384 → BitVec 768 → List Byte → Bool

/-- The public-key digest fused in key slot `n` (R403). -/
opaque Config.fusedKeyDigest : Nat → BitVec 384

/-- The public key in the key block of an image body (R403): the manual names the block and not its place. -/
opaque Config.keyBlock : List Byte → List Byte

/-- The device's signature over an SPDM transcript (R408). -/
opaque Config.spdmSign : List Byte → BitVec 768

/-- The certificate chain of slot 0 (R408). -/
opaque Config.certChain : List Byte

/-- The digest of the boot ROM, SPDM measurement block 1 (R408). -/
opaque Config.romDigest : BitVec 384

/-- The digest, header and body, of the Husk image with which a module ships (R408). -/
opaque Config.shippedDigest : BitVec 384

/-- The digest of a base manifest (R408): the manual names the manifest and not its bytes as measured. -/
opaque Config.manifestDigest : List Nat → BitVec 384

/-- AES-256-XTS under a media key (R234), named by the manual and defined by another standard: whether the key is the archive
media key, which of the keys that the device has made for it, the tweak, and the 4 KiB data unit. -/
opaque Config.mediaCipher : Bool → Nat → Nat → List Byte → List Byte

/-- A choice among equals that the manual leaves to the device, one for each count of `State.free`. -/
opaque Config.choice : Nat → Nat

/-- The 16 bits that a timestamp message puts into a flit's TIME slot (R365, R381): the manual names the slot and not its
coding. -/
opaque Config.timeCode : Nat → Nat

end Sys2Proof
end

