-- ==== Sys2Proof/Machine/Regs.lean ====
section
/-! DEFINITION. The BAR0 register map (R312): for every register word its reset value, the bits that a write sets (RW),
the bits that a written 1 clears (W1C), and whether it is one half of a 64-bit register. A word that no case names is
reserved: it reads zero and ignores writes (R17). saved and fused values stand at those of a module as shipped. -/

namespace Sys2Proof.Machine

/-- What the map says of one 32-bit word. -/
structure RegInfo where
  reset : Nat := 0
  rw    : Nat := 0
  w1c   : Nat := 0
  /-- 0 = a 32-bit register, 1 = the low half of a 64-bit register, 2 = its high half. -/
  half  : Nat := 0

def roReg (reset : Nat := 0) : RegInfo := { reset }
def roLow (reset : Nat := 0) : RegInfo := { reset, half := 1 }
def roHigh (reset : Nat := 0) : RegInfo := { reset, half := 2 }
def rwReg (mask : Nat) (reset : Nat := 0) : RegInfo := { reset, rw := mask }
def rwLow : RegInfo := { rw := 0xFFFFFFFF, half := 1 }
def rwHigh : RegInfo := { rw := 0xFFFFFFFF, half := 2 }
def w1cReg (mask : Nat) (reset : Nat := 0) : RegInfo := { reset, w1c := mask }

/-- DEV_ range: identity (R7–R9), host status and counters (R331), CXL window, serving block (R303), channels. -/
def devInfo (o : Nat) : RegInfo :=
  if o = 0x0 then roReg 0x00112640
  else if o = 0x8 then roLow 0x1F00101F
  else if o = 0xC then roHigh 0x004B5418
  else if o = 0x80 then { rw := 0x7FF, w1c := 0x20000 }
  else if o = 0x88 then roLow
  else if o = 0x8C then roHigh
  else if o = 0x1000 then w1cReg 0xF
  else if 0x1008 ≤ o && o < 0x1028 then (if o % 8 = 0 then roLow else roHigh)
  else if 0x2000 ≤ o && o < 0x3000 then
    let r := o % 0x40
    if r = 0x0 then rwReg 0x1FF
    else if r = 0x4 then rwReg 0x7 0x4
    else if r = 0x8 then w1cReg 0x3E
    else if r = 0xC then roReg 262144
    else if r = 0x10 then rwLow
    else if r = 0x14 then rwHigh
    else if r = 0x18 then roLow
    else if r = 0x1C then roHigh
    else roReg
  else roReg

/-- A ring's block (R331). -/
def ringInfo (r : Nat) : RegInfo :=
  if r = 0x0 || r = 0x8 || r = 0x10 then rwLow
  else if r = 0x4 || r = 0xC || r = 0x14 then rwHigh
  else if r = 0x18 then rwReg 0x31F 4
  else if r = 0x1C then rwReg 0xFF
  else if r = 0x20 then rwReg 0x0FFFF7FF 0x1000
  else if r = 0x38 then w1cReg 0x78 2
  else roReg

/-- N-tier and D-tier blocks (R228). -/
def tierInfo (o : Nat) : RegInfo :=
  if o < 0x200C00 then
    let r := o % 0x100
    if r = 0 then w1cReg 0x70 else if r = 0x18 then roLow else if r = 0x1C then roHigh else roReg
  else if o = 0x201000 then roReg 24
  else if 0x210000 ≤ o && o < 0x210200 then
    let r := o % 0x100
    if r = 0 then w1cReg 0xF0 else if r = 0x18 then roLow else if r = 0x1C then roHigh else roReg
  else if o = 0x211000 then roReg 8
  else if o = 0x211010 then roReg 20
  else roReg

/-- F-tier block (R247), at the values of a module as shipped (R230). -/
def flashInfo (o : Nat) : RegInfo :=
  if o = 0x220000 then w1cReg 0x7E0
  else if o = 0x220008 then roReg 7084
  else if o = 0x220014 then roReg 7084
  else if o = 0x220018 then roReg 350
  else if o = 0x22001C then roReg 5000
  else if 0x220038 ≤ o && o < 0x220058 then (if o % 8 = 0 then roLow else roHigh)
  else if o = 0x220100 then rwReg 0x1FFFFF
  else if o = 0x220108 then roLow
  else if o = 0x22010C then roHigh
  else if 0x221000 ≤ o && o < 0x222000 then
    let r := o % 0x10
    if r = 0 then roReg 350
    else if r = 8 then roLow 7450
    else if r = 0xC then roHigh
    else roReg
  else roReg

/-- Placement engine (R228). -/
def heatInfo (o : Nat) : RegInfo :=
  if o = 0x300008 || o = 0x300010 || o = 0x300018 || o = 0x300030 then roLow
  else if o = 0x30000C || o = 0x300014 || o = 0x30001C || o = 0x300034 then roHigh
  else if o = 0x300038 then roReg 0x0FFFFF
  else if o = 0x300040 then roReg 0x84101040
  else if o = 0x300080 then rwReg 0xFFFFF
  else roReg

/-- Fabric and twin block (R395). -/
def fabInfo (o : Nat) : RegInfo :=
  if o = 0x400004 then w1cReg 0xFF
  else if o = 0x400010 then rwReg 0x3FFFFF3F
  else if o = 0x400030 then roLow
  else if o = 0x400034 then roHigh
  else if 0x401000 ≤ o && o < 0x401480 then
    let r := o % 0x40
    if r = 4 then w1cReg 0xF
    else if r = 0x10 || r = 0x18 || r = 0x20 then roLow
    else if r = 0x14 || r = 0x1C || r = 0x24 then roHigh
    else roReg
  else if o = 0x402000 then w1cReg 0x70
  else if 0x402008 ≤ o && o < 0x402028 then (if o % 8 = 0 then roLow else roHigh)
  else roReg

/-- Power, guardian, boot and life-cycle blocks (R439, R418). -/
def pwrInfo (o : Nat) : RegInfo :=
  if o = 0x500020 then roReg 2000
  else if o = 0x500024 then roReg (200 + 50 * 2 ^ 16)
  else if o = 0x500030 then w1cReg 0x1F
  else if o = 0x501000 then w1cReg 0x1F
  else if o = 0x501004 || o = 0x501008 then roReg (9 + 95 * 2 ^ 8 + 105 * 2 ^ 16)
  else if o = 0x501010 then roLow
  else if o = 0x501014 then roHigh
  else if o = 0x50F000 then w1cReg 0xE000 0x100
  else if o = 0x50F010 then roLow 1
  else if o = 0x50F014 then roHigh 0x01C00200
  else if o = 0x50F018 then roLow
  else if o = 0x50F01C then roHigh
  else if o = 0x50F020 then roReg 0x00010100
  else roReg

/-- Observability block (R459). -/
def obsInfo (o : Nat) : RegInfo :=
  if o = 0x600000 then w1cReg 0x6
  else if o = 0x600010 then roLow 0x3FF
  else if o = 0x600014 then roHigh
  else if o = 0x600018 then rwReg 0x1FFF
  else if o = 0x600028 then roLow
  else if o = 0x60002C then roHigh
  else if o = 0x600030 then rwReg 0x3FFFF
  else if o = 0x600034 then rwReg 0x03FF0FFF
  else if o = 0x602000 then rwLow
  else if o = 0x602004 then rwHigh
  else if o = 0x602008 then rwReg 0x1
  else if o = 0x602010 then rwReg 0x7FF
  else if o = 0x602014 then w1cReg 0x3
  else if o = 0x606000 then w1cReg 0xE
  else if o = 0x606008 then roLow
  else if o = 0x60600C then roHigh
  else roReg

/-- Cyclic-schedule block (R272). -/
def cycInfo (o : Nat) : RegInfo :=
  if o = 0x700000 then w1cReg 0xC
  else if o = 0x700008 || o = 0x700010 then roLow
  else if o = 0x70000C || o = 0x700014 then roHigh
  else if 0x700100 ≤ o && o < 0x700200 then
    let r := o % 0x40
    if r = 0 then roReg 32
    else if r = 8 then
      roReg (if o < 0x700140 then 18770 else if o < 0x700180 then 24160 else if o < 0x7001C0 then 870000 else 92)
    else roReg
  else roReg

/-- A pod window (R82, R133, R159, R194, R438); the access is Husk's. -/
def podInfo (r : Nat) : RegInfo :=
  if r = 0x0 then rwReg 0x3
  else if r = 0x4 then roReg 0x10
  else if r = 0x8 then rwReg 0xFF
  else if r = 0x10 then rwReg 0x1F 24
  else if r = 0x20 then w1cReg 0xF
  else if r = 0x28 then roLow
  else if r = 0x2C then roHigh
  else if r = 0x1000 then rwReg 0xE 0x8
  else if r = 0x1004 then w1cReg 0x6
  else if r = 0x1008 || r = 0x1038 then rwLow
  else if r = 0x100C || r = 0x103C then rwHigh
  else if r = 0x1030 then rwReg 0x4 0x4
  else if r = 0x1034 then w1cReg 0x6
  else if 0x1100 ≤ r && r < 0x1150 then rwReg 0xFFFFFFFF
  else if 0x2000 ≤ r && r < 0x2800 then
    let e := r % 0x200
    if e = 0x0 then rwReg 0x1
    else if e = 0x4 then w1cReg 0xC
    else if e = 0x8 || e = 0x10 || e = 0x18 then roLow
    else if e = 0xC || e = 0x14 || e = 0x1C then roHigh
    else roReg
  else if r = 0x2800 then rwLow
  else if r = 0x2804 then rwHigh
  else if r = 0x2808 then rwReg 0x7FF
  else if 0x2900 ≤ r && r < 0x2980 then
    (if r % 8 = 0 then { rw := 0x03FFFFFF, half := 1 } else roHigh)
  else if r = 0x4000 then rwReg 0x1
  else if r = 0x5000 then rwReg 0xF 0x90
  else roReg

/-- What BAR0 holds at word offset `o` (R312). -/
def regInfo (o : Nat) : RegInfo :=
  if o < 0x100000 then devInfo o
  else if o < 0x140000 then ringInfo (o % 0x40)
  else if o < 0x200000 then {}
  else if o < 0x220000 then tierInfo o
  else if o < 0x240000 then flashInfo o
  else if o < 0x300000 then {}
  else if o < 0x400000 then heatInfo o
  else if o < 0x500000 then fabInfo o
  else if o < 0x600000 then pwrInfo o
  else if o < 0x700000 then obsInfo o
  else if o < 0x800000 then cycInfo o
  else if o < 0xD00000 then podInfo (o % 0x10000)
  else {}

/-- The reset value of a register word. -/
def regReset (o : Nat) : Word := BitVec.ofNat 32 (regInfo o).reset

/-- A named field of a register: word offset, lowest bit, width. -/
structure Fld where
  off : Nat
  lo  : Nat
  w   : Nat

/-! Names of the fields the meanings use. -/

def DEV_IFVER : Nat := 0x4
def DEV_HOST_STATUS : Nat := 0x10
def DEV_CXL_WINDOW : Nat := 0x80
def DEV_CXL_BASE : Nat := 0x88
def DEV_SRV_STATUS : Nat := 0x1000
def DEV_REQ_LIVE : Nat := 0x1004
def DEV_REQ_DONE : Nat := 0x1008
def DEV_TOKENS : Nat := 0x1010
def DEV_SPROUT_GUESSES : Nat := 0x1018
def DEV_SPROUT_REJECTED : Nat := 0x1020
def DEV_EXPERT_DROPS : Nat := 0x1028
def DEV_DEGRADED_PATH : Nat := 0x102C
def DEV_PAUSES : Nat := 0x1030
def DEV_STEPS : Nat := 0x1034
def DEV_STEPS_FAILED : Nat := 0x1038

def bdpBlock (c : Nat) : Nat := 0x2000 + c * 0x40
def ringBlock (n : Nat) : Nat := 0x100000 + n * 0x40
def RING_SQ_BASE (n : Nat) : Nat := ringBlock n
def RING_CQ_BASE (n : Nat) : Nat := ringBlock n + 0x8
def RING_SHADOW (n : Nat) : Nat := ringBlock n + 0x10
def RING_CFG (n : Nat) : Nat := ringBlock n + 0x18
def RING_SIZE (n : Nat) : Fld := ⟨ringBlock n + 0x18, 0, 5⟩
def RING_ENABLE (n : Nat) : Fld := ⟨ringBlock n + 0x18, 8, 1⟩
def RING_INT_EN (n : Nat) : Fld := ⟨ringBlock n + 0x18, 9, 1⟩
def RING_OWNER (n : Nat) : Fld := ⟨ringBlock n + 0x1C, 0, 8⟩
def RING_VECTOR (n : Nat) : Fld := ⟨ringBlock n + 0x20, 0, 11⟩
def RING_COAL_COUNT (n : Nat) : Fld := ⟨ringBlock n + 0x20, 12, 8⟩
def RING_COAL_TIME (n : Nat) : Fld := ⟨ringBlock n + 0x20, 20, 8⟩
def RING_SQ_HEAD (n : Nat) : Fld := ⟨ringBlock n + 0x28, 0, 17⟩
def RING_SQ_TAIL (n : Nat) : Fld := ⟨ringBlock n + 0x2C, 0, 17⟩
def RING_CQ_TAIL (n : Nat) : Fld := ⟨ringBlock n + 0x30, 0, 17⟩
def RING_CQ_HEAD (n : Nat) : Fld := ⟨ringBlock n + 0x34, 0, 17⟩
def RING_STATUS (n : Nat) : Nat := ringBlock n + 0x38
def RING_ENABLED (n : Nat) : Fld := ⟨ringBlock n + 0x38, 0, 1⟩
def RING_QUIESCENT (n : Nat) : Fld := ⟨ringBlock n + 0x38, 1, 1⟩
def RING_STOPPED (n : Nat) : Fld := ⟨ringBlock n + 0x38, 2, 1⟩
def RING_INFLIGHT (n : Nat) : Fld := ⟨ringBlock n + 0x3C, 0, 17⟩

/-- Stack block of the N-tier, or half block of the D-tier (R228). -/
def unitBlock (dTier : Bool) (u : Nat) : Nat := (if dTier then 0x210000 else 0x200000) + u * 0x100

def FT_STATUS : Nat := 0x220000
def FT_BASE_VALID : Fld := ⟨0x220000, 1, 1⟩
def FT_RESTRICTED : Fld := ⟨0x220000, 2, 1⟩
def FT_CAUSE : Fld := ⟨0x220000, 3, 2⟩
def ftChan (c : Nat) : Nat := 0x221000 + c * 0x10
def FT_SPARES (c : Nat) : Fld := ⟨ftChan c, 0, 9⟩
def FT_FAILED (c : Nat) : Fld := ⟨ftChan c, 9, 1⟩

def HEAT_NT_FREE : Nat := 0x300008
def HEAT_DT_FREE (h : Nat) : Nat := 0x300010 + 8 * h
def HEAT_PROMOTIONS : Nat := 0x300020
def HEAT_DEMOTIONS : Nat := 0x300024
def HEAT_DEMANDS : Nat := 0x300028
def HEAT_GRANTS : Nat := 0x30002C
def HEAT_MOVE_BYTES : Nat := 0x300030
def HEAT_HANDLES_FREE : Fld := ⟨0x300038, 0, 21⟩
def HEAT_LOOKUP : Nat := 0x300080
def HEAT_ENTRY : Nat := 0x3000C0

def FAB_ID : Nat := 0x400000
def FAB_DEVICE : Fld := ⟨0x400000, 0, 6⟩
def FAB_VALID : Fld := ⟨0x400000, 6, 1⟩
def FAB_SLICE : Fld := ⟨0x400000, 8, 6⟩
def FAB_ALIAS : Fld := ⟨0x400000, 16, 6⟩
def FAB_ALIAS_VALID : Fld := ⟨0x400000, 22, 1⟩
def FAB_STATUS : Nat := 0x400004
def FAB_INSTALL : Nat := 0x400010
def FAB_ROUTE_GEN : Nat := 0x400020
def FAB_TIMEOUTS : Nat := 0x400024
def FAB_SLICE_DROPS : Nat := 0x400028
def FAB_REACH : Nat := 0x400030
def FAB_TIME_STATUS : Nat := 0x400100
def FAB_TIME_OFFSET : Nat := 0x400104
def FAB_DITHER : Fld := ⟨0x400108, 0, 6⟩
def FAB_TRIM : Nat := 0x40010C
def portBlock (p : Nat) : Nat := 0x401000 + p * 0x40
def PORT_STATE (p : Nat) : Fld := ⟨portBlock p, 0, 4⟩
def PORT_LANES (p : Nat) : Fld := ⟨portBlock p, 4, 4⟩
def PORT_PEER (p : Nat) : Fld := ⟨portBlock p, 8, 6⟩
def PORT_PEER_PORT (p : Nat) : Fld := ⟨portBlock p, 14, 5⟩
def TWIN_STATUS : Nat := 0x402000
def TWIN_STATE : Fld := ⟨0x402000, 0, 3⟩
def TWIN_ACTIVE : Fld := ⟨0x402000, 3, 1⟩
def TWIN_SENT : Nat := 0x402008
def TWIN_ACKED : Nat := 0x402010
def TWIN_APPLIED : Nat := 0x402018
def TWIN_LAG : Nat := 0x402020
def TWIN_COMMIT_MAX : Nat := 0x402028
def TWIN_TAKEOVERS : Nat := 0x40202C
def TWIN_RESYNCS : Nat := 0x402030

def PWR_INPUT : Nat := 0x500000
def PWR_PEAK : Nat := 0x500004
def PWR_DOMAIN (d : Nat) : Fld := ⟨0x500010 + 4 * (d / 32), d % 32, 1⟩
def PWR_POD_IDLE : Fld := ⟨0x500020, 0, 1⟩
def PWR_IDLE_MS : Fld := ⟨0x500020, 1, 16⟩
def PWR_CAP : Fld := ⟨0x500020, 20, 12⟩
def PWR_CEILING : Fld := ⟨0x500024, 0, 11⟩
def PWR_LOW_CEILING : Fld := ⟨0x500024, 16, 11⟩
def PWR_STORAGE_LOW : Fld := ⟨0x500024, 27, 1⟩
def PWR_LOW_ACTIVE : Fld := ⟨0x500024, 28, 1⟩
def PWR_SB_STATUS : Nat := 0x500030
def PWR_P54 : Fld := ⟨0x500030, 8, 4⟩
def PWR_RTN : Fld := ⟨0x500030, 12, 4⟩
def GRD_STATUS : Nat := 0x501000
def GRD_ACTIVE : Fld := ⟨0x501000, 5, 1⟩
def GRD_MAX_POINT : Fld := ⟨0x501008, 0, 4⟩
def GRD_THROTTLE_C : Fld := ⟨0x501008, 8, 8⟩
def GRD_TRIP_C : Fld := ⟨0x501004, 16, 8⟩
def GRD_TRIP_INFO : Nat := 0x501010
def GRD_THROTTLE_US : Nat := 0x501018
def GRD_TRIPS : Nat := 0x50101C
def PWR_BOOT_STATUS : Nat := 0x50F000
def BOOT_PHASE : Fld := ⟨0x50F000, 0, 4⟩
def BOOT_READY : Fld := ⟨0x50F000, 4, 1⟩
def BOOT_PARKED : Fld := ⟨0x50F000, 5, 1⟩
def BOOT_SLOT : Fld := ⟨0x50F000, 6, 1⟩
def BOOT_TRIAL : Fld := ⟨0x50F000, 7, 1⟩
def LC_STATE : Fld := ⟨0x50F000, 8, 3⟩
def LC_PENDING : Fld := ⟨0x50F000, 11, 1⟩
def HELLO_DONE : Fld := ⟨0x50F000, 12, 1⟩
def PWR_BOOT_TIME : Nat := 0x50F004
def PWR_RESET_CAUSE : Fld := ⟨0x50F008, 0, 4⟩
def PWR_RESET_COUNT : Nat := 0x50F00C
def fwSlot (n : Nat) : Nat := 0x50F010 + 8 * n
def FW_VALID (n : Nat) : Fld := ⟨fwSlot n + 4, 22, 1⟩
def FW_CONFIRMED (n : Nat) : Fld := ⟨fwSlot n + 4, 23, 1⟩
def FW_PREFERRED (n : Nat) : Fld := ⟨fwSlot n + 4, 24, 1⟩
def FW_SVN (n : Nat) : Fld := ⟨fwSlot n + 4, 16, 6⟩
def FW_VERSION (n : Nat) : Fld := ⟨fwSlot n + 4, 0, 16⟩
def PWR_SEC_FUSE : Nat := 0x50F020
def MIN_SVN : Fld := ⟨0x50F020, 0, 6⟩
def KEY_PRESENT : Fld := ⟨0x50F020, 8, 4⟩
def KEY_REVOKED : Fld := ⟨0x50F020, 12, 4⟩
def PROVISIONED_FUSE : Fld := ⟨0x50F020, 16, 1⟩
def RETIRED_FUSE : Fld := ⟨0x50F020, 17, 1⟩
def PWR_LC_COUNT : Fld := ⟨0x50F024, 0, 8⟩
def WIPE_ACTIVE : Fld := ⟨0x50F028, 0, 1⟩
def WIPE_N : Fld := ⟨0x50F028, 1, 1⟩
def WIPE_D : Fld := ⟨0x50F028, 2, 1⟩
def WIPE_MS : Fld := ⟨0x50F028, 16, 16⟩

def EVR_STATUS : Nat := 0x600000
def EVR_STOPPED : Fld := ⟨0x600000, 0, 1⟩
def EVR_RESTORED : Fld := ⟨0x600000, 3, 1⟩
def EVR_COUNT : Fld := ⟨0x600004, 0, 13⟩
def EVR_GEN : Nat := 0x600008
def EVR_MASK : Nat := 0x600010
def EVR_CURSOR : Fld := ⟨0x600018, 0, 12⟩
def EVR_AUTO : Fld := ⟨0x600018, 12, 1⟩
def EVR_LOST : Nat := 0x60001C
def EVR_SUPPRESSED : Nat := 0x600020
def EVR_MASKED : Nat := 0x600024
def EVR_FIRST_LOST : Nat := 0x600028
def EVR_TRIG_CODE : Fld := ⟨0x600030, 0, 16⟩
def EVR_TRIG_EN : Fld := ⟨0x600030, 16, 1⟩
def EVR_TRIG_STOP : Fld := ⟨0x600030, 17, 1⟩
def EVR_INT_VECTOR : Fld := ⟨0x600034, 0, 11⟩
def EVR_INT_EN : Fld := ⟨0x600034, 11, 1⟩
def EVR_INT_CLASSES : Fld := ⟨0x600034, 16, 10⟩
def LOG_BASE : Nat := 0x602000
def LOG_ENABLE : Fld := ⟨0x602008, 0, 1⟩
def LOG_HEAD : Fld := ⟨0x60200C, 0, 11⟩
def LOG_TAIL : Fld := ⟨0x602010, 0, 11⟩
def LOG_STATUS : Nat := 0x602014
def LOG_DROPPED : Nat := 0x602018
def TRC_ENABLE (p : Nat) : Fld := ⟨0x603000 + 4 * (p / 32), p % 32, 1⟩
def TRC_DROPPED : Nat := 0x603080
def TRC_COUNT (p : Nat) : Nat := 0x604000 + 4 * p
def SMP_STATUS : Nat := 0x606000
def SMP_RUNNING : Fld := ⟨0x606000, 0, 1⟩
def SMP_BYTES : Nat := 0x606008
def SMP_SKIPPED : Nat := 0x606010
def SMP_SAMPLES : Nat := 0x606014

def CYC_STATUS : Nat := 0x700000
def CYC_BANK : Fld := ⟨0x700000, 0, 1⟩
def CYC_ARMED : Fld := ⟨0x700000, 1, 1⟩
def CYC_SLOT : Fld := ⟨0x700004, 0, 9⟩
def CYC_FRAME : Nat := 0x700008
def CYC_ARM_FRAME : Nat := 0x700010
def CYC_SWITCHES : Nat := 0x700018
def cycRes (r : Nat) : Nat := 0x700100 + r * 0x40

def podBlock (p : Nat) : Nat := 0x800000 + p * 0x10000
def POD_HALT (p : Nat) : Fld := ⟨podBlock p, 0, 1⟩
def POD_INJECT_STOP (p : Nat) : Fld := ⟨podBlock p, 1, 1⟩
def POD_STATE (p : Nat) : Fld := ⟨podBlock p + 4, 0, 3⟩
def POD_STOPPED (p : Nat) : Fld := ⟨podBlock p + 4, 3, 1⟩
def POD_HUB_IDLE (p : Nat) : Fld := ⟨podBlock p + 4, 4, 1⟩
def POD_HULL (p : Nat) : Fld := ⟨podBlock p + 8, 0, 7⟩
def POD_ASSIGNED (p : Nat) : Fld := ⟨podBlock p + 8, 7, 1⟩
def POD_WDOG (p : Nat) : Fld := ⟨podBlock p + 0x10, 0, 5⟩
def POD_WDOG_COUNT (p : Nat) : Nat := podBlock p + 0x14
def POD_FAULT_STATUS (p : Nat) : Nat := podBlock p + 0x20
def POD_FAULT_INFO (p : Nat) : Nat := podBlock p + 0x28
def POD_MESH_INJ (p : Nat) : Nat := podBlock p + 0x30
def POD_MESH_EJ (p : Nat) : Nat := podBlock p + 0x34
def POD_BANK_STALL (p : Nat) : Nat := podBlock p + 0x38
def POD_SRAM_CE (p : Nat) : Nat := podBlock p + 0x40
def POD_LINK_CE (p : Nat) : Nat := podBlock p + 0x44
def SHL_CHECK (p : Nat) : Fld := ⟨podBlock p + 0x1000, 3, 1⟩
def SHL_SEL (p : Nat) : Fld := ⟨podBlock p + 0x1000, 1, 2⟩
def SHL_STATUS (p : Nat) : Nat := podBlock p + 0x1004
def SHL_BUSY (p : Nat) : Fld := ⟨podBlock p + 0x1004, 0, 1⟩
def SHL_SRC (p : Nat) : Nat := podBlock p + 0x1008
def SHL_SLOT (p s : Nat) : Fld := ⟨podBlock p + 0x1010, 2 * s, 2⟩
def SHL_ERROR (p : Nat) : Nat := podBlock p + 0x1018
def SHL_BYTES (p : Nat) : Nat := podBlock p + 0x1020
def SCN_STATUS (p : Nat) : Nat := podBlock p + 0x1034
def SCN_BUSY (p : Nat) : Fld := ⟨podBlock p + 0x1034, 0, 1⟩
def SCN_TRANSLATE (p : Nat) : Fld := ⟨podBlock p + 0x1030, 2, 1⟩
def SCN_ADDR (p : Nat) : Nat := podBlock p + 0x1038
def SHL_MAP (p l : Nat) : Fld := ⟨podBlock p + 0x1100 + 4 * (l / 4), 8 * (l % 4), 7⟩
def SHL_MAP_VALID (p l : Nat) : Fld := ⟨podBlock p + 0x1100 + 4 * (l / 4), 8 * (l % 4) + 7, 1⟩
def engBlock (p e : Nat) : Nat := podBlock p + 0x2000 + e * 0x200
def STR_STOP (p e : Nat) : Fld := ⟨engBlock p e, 0, 1⟩
def STR_STATUS (p e : Nat) : Nat := engBlock p e + 4
def STR_BUSY (p e : Nat) : Fld := ⟨engBlock p e + 4, 0, 1⟩
def STR_WAIT (p e : Nat) : Fld := ⟨engBlock p e + 4, 1, 1⟩
def STR_QUEUED (p e : Nat) : Fld := ⟨engBlock p e + 4, 4, 6⟩
def STR_POS (p e : Nat) : Nat := engBlock p e + 8
def STR_BYTES_RD (p e : Nat) : Nat := engBlock p e + 0x10
def STR_BYTES_WR (p e : Nat) : Nat := engBlock p e + 0x18
def STR_DESCS (p e : Nat) : Nat := engBlock p e + 0x20
def STR_PLACE_WAITS (p e : Nat) : Nat := engBlock p e + 0x24
def STR_PLACE_CYCLES (p e : Nat) : Nat := engBlock p e + 0x28
def STR_TABLE (p : Nat) : Nat := podBlock p + 0x2800
def STR_TABLE_LEN (p : Nat) : Fld := ⟨podBlock p + 0x2808, 0, 11⟩
def STR_ROUTE (p n : Nat) : Nat := podBlock p + 0x2900 + 8 * n
def SFU_COMPAT (p : Nat) : Fld := ⟨podBlock p + 0x4000, 0, 1⟩
def SFU_GRANTS (p k : Nat) : Nat := podBlock p + 0x4040 + 4 * k
def SFU_WAIT (p k : Nat) : Nat := podBlock p + 0x4080 + 4 * k
def CVT_SAT (p : Nat) : Nat := podBlock p + 0x4100
def CVT_SPECIAL (p : Nat) : Nat := podBlock p + 0x4104
def POD_REQ_POINT (p : Nat) : Fld := ⟨podBlock p + 0x5000, 0, 4⟩
def POD_LIMIT_POINT (p : Nat) : Fld := ⟨podBlock p + 0x5000, 4, 4⟩
def POD_EFF_POINT (p : Nat) : Fld := ⟨podBlock p + 0x5000, 8, 4⟩
def POD_RELOCK (p : Nat) : Fld := ⟨podBlock p + 0x5000, 12, 1⟩
def POD_TEMP (p : Nat) : Nat := podBlock p + 0x5004
def POD_POWER (p : Nat) : Nat := podBlock p + 0x5008

end Sys2Proof.Machine
end

