-- ==== Sys2Proof/Machine/Flags.lean ====
section
/-! DEFINITION. Reading and writing the words and fields of the register map, the W1C flags with their companion
counters (R16, R330), and the counters that saturate or wrap. -/

namespace Sys2Proof.Machine

/-- The register word at BAR0 offset `off`. -/
def State.word (s : State) (off : Nat) : Word := tget s.bar off (regReset off)

/-- The register word at `off` set to `v`. -/
def State.setWord (s : State) (off : Nat) (v : Word) : State :=
  { s with bar := tput s.bar off v (regReset off) }

/-- A 32-bit register as a number. -/
def State.rd32 (s : State) (off : Nat) : Nat := (s.word off).toNat

/-- A 32-bit register set from a number. -/
def State.wr32 (s : State) (off v : Nat) : State := s.setWord off (BitVec.ofNat 32 v)

/-- A 64-bit register as a number (R18: low half at the lower offset). -/
def State.rd64 (s : State) (off : Nat) : Nat := s.rd32 off + 2 ^ 32 * s.rd32 (off + 4)

/-- A 64-bit register set from a number. -/
def State.wr64 (s : State) (off v : Nat) : State := (s.wr32 off v).wr32 (off + 4) (v >>> 32)

/-- A field of a register. -/
def State.rd (s : State) (f : Fld) : Nat := bits (s.rd32 f.off) f.lo f.w

/-- A field of a register set; its other bits stay. -/
def State.wr (s : State) (f : Fld) (v : Nat) : State := s.wr32 f.off (setBits (s.rd32 f.off) f.lo f.w v)

/-- A one-bit field. -/
def State.rdB (s : State) (f : Fld) : Bool := s.rd f = 1

/-- A one-bit field set. -/
def State.wrB (s : State) (f : Fld) (b : Bool) : State := s.wr f (b2n b)

/-- A 32-bit counter that saturates, raised by `n`. -/
def State.addSat (s : State) (off n : Nat) : State := s.wr32 off (satAdd 32 (s.rd32 off) n)

/-- A 32-bit counter that wraps, raised by `n`. -/
def State.addWrap (s : State) (off n : Nat) : State := s.wr32 off (s.rd32 off + n)

/-- A 64-bit counter raised by `n`. -/
def State.add64 (s : State) (off n : Nat) : State := s.wr64 off (s.rd64 off + n)

/-- The key of a flag's companion counter. -/
def flagKey (off b : Nat) : Nat := off * 32 + b

/-- The companion counter of a W1C flag (R16). -/
def State.companionOf (s : State) (off b : Nat) : BitVec 16 := tget s.host.companion (flagKey off b) 0

/-- The companion counter set. -/
def State.setCompanion (s : State) (off b : Nat) (v : BitVec 16) : State :=
  { s with host := { s.host with companion := tput s.host.companion (flagKey off b) v 0 } }

/-- A W1C flag set by hardware: the flag reads 1 and its companion counter counts the event, saturating (R16). -/
def State.raise (s : State) (off b : Nat) : State :=
  (s.wr ⟨off, b, 1⟩ 1).setCompanion off b (BitVec.ofNat 16 (satAdd 16 (s.companionOf off b).toNat 1))

/-- A W1C flag set by `n` events of one command: each of them counts (R16). -/
def State.raiseN (s : State) (off b n : Nat) : State :=
  if n = 0 then s
  else (s.wr ⟨off, b, 1⟩ 1).setCompanion off b (BitVec.ofNat 16 (satAdd 16 (s.companionOf off b).toNat n))

/-- Whether bit `b` of word `off` is a W1C flag. -/
def isFlag (off b : Nat) : Bool := off % 4 = 0 && bit (regInfo off).w1c b

/-- The word after a write of `v` by software: RW bits take `v`, W1C bits written 1 clear, every other bit stays
(R15, R17). -/
def writeMask (off old v : Nat) : Nat :=
  let i := regInfo off
  let keep := old - (old &&& i.rw)
  let set := keep + (v &&& i.rw)
  set - (set &&& (v &&& i.w1c))

/-- A software write of a 32-bit word with the W1C flags `setNow` that hardware sets in the same cycle: the write takes
effect, then the set wins (R16). -/
def State.swWrite (s : State) (off : Nat) (v : Word) (setNow : List (Nat × Nat)) : State :=
  setNow.foldl (fun s f => if isFlag f.1 f.2 then s.raise f.1 f.2 else s)
    (s.wr32 off (writeMask off (s.rd32 off) v.toNat))

/-- A free value: the next of the open values, and the count advanced. -/
def State.fresh (s : State) : Word × State := (Config.freeWord s.free, { s with free := s.free + 1 })

end Sys2Proof.Machine
end

