-- ==== Sys2Proof/Machine/Ops.lean ====
section
/-! DEFINITION. The operations that commands of several families share: what leaves the block, interrupts, the event
recorder, the log ring and trace points, completions, the pods of the array. -/

namespace Sys2Proof.Machine

/-- What a command answers. -/
abbrev Result := Host.Outcome State Fault Refusal

/-- An item leaves the block. -/
def State.emit (s : State) (o : Out) : State := { s with out := s.out ++ [o] }

/-! ### Interrupts (R320, R321) -/

/-- Word `w` of MSI-X entry `v` of a function: word 3 is the vector control, masked until software unmasks it. -/
def State.msixWord (s : State) (fn v w : Nat) : Word :=
  tget s.host.msix (fn * 8192 + v * 4 + w) (if w = 3 then 1 else 0)

/-- A vector is signalled: a message if it is unmasked, else its pending bit (R320). -/
def State.signalMsi (s : State) (fn v : Nat) : State :=
  if bit (s.msixWord fn v 3).toNat 0 then
    { s with host := { s.host with pba := tput s.host.pba (fn * 2048 + v) true false } }
  else s.emit (.msi fn v)

/-- A signal of a ring's vector clears the count and timer of every ring of the function that uses it (R320). -/
def clearCoalescing (fn vec : Nat) (s : State) : State :=
  { s with host := { s.host with rings := s.host.rings.map (fun e =>
      if s.rd (RING_OWNER e.1) = fn && s.rd (RING_VECTOR e.1) = vec then
        (e.1, { e.2 with coalCount := 0, coalTimer := false }) else e) } }

/-- A vector is signalled, with what the signal clears. -/
def signalVector (fn vec : Nat) (s : State) : State := clearCoalescing fn vec (s.signalMsi fn vec)

/-! ### Event recorder (R440–R448) -/

/-- A payload or body with values placed at byte offsets: (offset, bytes, value). -/
def packBytes (fs : List (Nat × Nat × Nat)) : Nat :=
  fs.foldl (fun acc f => acc + (f.2.2 % 2 ^ (8 * f.2.1)) * 2 ^ (8 * f.1)) 0

/-- A record payload from fields at their byte offsets in the record (R444: the payload starts at byte 32). -/
def payload (fs : List (Nat × Nat × Nat)) : BitVec 768 :=
  BitVec.ofNat 768 (packBytes (fs.map (fun f => (f.1 - 32, f.2))))

/-- Byte 16 of a record, byte 16 of the QUERY_DEVICE block: the fabric ID and whether one is committed. -/
def State.deviceByte (s : State) : Nat := s.rd FAB_DEVICE + s.rd FAB_VALID * 128

/-- The device's own ID: its committed fabric ID, or 0 (R462). -/
def State.ownId (s : State) : Nat := if s.rdB FAB_VALID then s.rd FAB_DEVICE else 0

/-- Queue-depth sampling ends (R448, R456). -/
def State.endSampling (s : State) : State := s.wr SMP_RUNNING 0

/-- Whether a device ID is this device's: its own, or the one that it answers for (R390). -/
def State.isHere (s : State) (d : Nat) : Bool := d = s.ownId || (s.rdB FAB_ALIAS_VALID && d = s.rd FAB_ALIAS)

/-- A record is written, with the trigger and the interrupt of its code (R441, R447, R448). -/
def writeRecord (r : Record) (s : State) : State :=
  let n := s.rd EVR_COUNT
  let s := { s with obs := { s.obs with
    records := s.obs.records ++ [r]
    perCode := tput s.obs.perCode r.code (tget s.obs.perCode r.code 0 + 1) 0 } }
  let s := s.wr EVR_COUNT (n + 1)
  let s := if n + 1 = 4096 then (s.wr EVR_STOPPED 1).raise EVR_STATUS 1 else s
  let s :=
    if s.rdB EVR_TRIG_EN && s.rd EVR_TRIG_CODE = r.code then
      let s := (s.raise EVR_STATUS 2).wr EVR_TRIG_EN 0
      if s.rdB EVR_TRIG_STOP && s.rdB SMP_RUNNING then s.endSampling.raise SMP_STATUS 3 else s
    else s
  if s.rdB EVR_INT_EN && bit (s.rd EVR_INT_CLASSES) (r.code / 256) then
    signalVector 0 (s.rd EVR_INT_VECTOR) s else s

/-- The recorder's tests on an event, in their order: class mask (R440), limit of a frame (R442), fullness (R441). -/
def recordAt (stamp : DWord) (code : Nat) (hull tenant : Option Nat) (pl : BitVec 768) (s : State) : State :=
  if !bit (s.rd64 EVR_MASK) (code / 256) then s.addSat EVR_MASKED 1
  else if 16 ≤ tget s.obs.perCode code 0 then s.addSat EVR_SUPPRESSED 1
  else if 4096 ≤ s.rd EVR_COUNT then
    let s := if s.rd32 EVR_LOST = 0 then
      s.wr64 EVR_FIRST_LOST (code + 65536 * (stamp.toNat % 2 ^ 48)) else s
    s.addSat EVR_LOST 1
  else
    writeRecord { stamp, code, index := s.rd EVR_COUNT, hull, tenant, devByte := s.deviceByte,
                  gen := s.rd32 EVR_GEN, payload := pl } s

/-- An event arises. Until the reload at step 6 of a power-on boot, Husk holds it (R443). -/
def recordEvent (code : Nat) (hull tenant : Option Nat) (pl : BitVec 768) (s : State) : State :=
  if s.obs.loaded then recordAt s.counter code hull tenant pl s
  else { s with boot := { s.boot with held := s.boot.held ++ [(code, hull, tenant, pl, s.counter)] } }

/-- RECORDER_CLEAR's effect, and a life-cycle transition's (R441, R443). -/
def clearRecorder (s : State) : State :=
  let s := { s with obs := { s.obs with records := [] } }
  let s := ((s.wr EVR_COUNT 0).wr EVR_STOPPED 0).addWrap EVR_GEN 1
  (s.wr32 EVR_LOST 0).wr64 EVR_FIRST_LOST 0

/-- The recorder and its copy cleared, by the command or by a transition; EVR_GEN counts every clear (R443). -/
def clearRecords (s : State) : State :=
  let s := if s.obs.loaded then clearRecorder s else s
  let gen := if s.obs.loaded then s.rd32 EVR_GEN else (s.obs.savedGen + 1) % 2 ^ 32
  { s with obs := { s.obs with copy := [], savedLost := 0, savedFirst := 0, savedGen := gen } }

/-- ACCESS_VIOLATION (R445). -/
def accessViolation (fn bar width off : Nat) (write : Bool) (s : State) : State :=
  recordEvent 0x0001 none none
    (payload [(32, 1, fn), (33, 1, bar), (34, 1, width), (35, 1, b2n write), (40, 8, off)]) s

/-- DMA_ERROR (R445): source 0 = command, 1 = log ring, 2 = sampling. -/
def dmaErrorEvent (addr fn source : Nat) (s : State) : State :=
  recordEvent 0x0902 none none (payload [(32, 8, addr), (40, 1, fn), (41, 1, source)]) s

/-! ### Log ring and trace points (R449–R454) -/

/-- An entry is generated: SEQ counts it, and it waits in Husk's buffer of 256 or is dropped and counted (R450). -/
def logGenerate (kind id len : Nat) (body : BitVec 384) (s : State) : State :=
  let seq := s.obs.logSeq
  let s := { s with obs := { s.obs with logSeq := (seq + 1) % 65536 } }
  if 256 ≤ s.obs.log.length then
    let s := { s with obs := { s.obs with dropped := s.obs.dropped + 1 } }
    (s.addSat LOG_DROPPED 1).raise LOG_STATUS 0
  else
    { s with obs := { s.obs with log := s.obs.log ++ [{ stamp := s.counter, kind, id, seq, len, body }] } }

/-- A trace point is reached: an enabled one counts its firing and writes a TRACE entry, at most 65,536 a second (R453). -/
def trace (p : Nat) (args : List Nat) (s : State) : State :=
  if s.rdB (TRC_ENABLE p) then
    let s := s.addSat (TRC_COUNT p) 1
    if 65536 ≤ s.obs.traceRate then s.addSat TRC_DROPPED 1
    else
      let s := { s with obs := { s.obs with traceRate := s.obs.traceRate + 1 } }
      let body := (args.zip (List.range args.length)).map (fun a => (8 * a.2, 8, a.1))
      logGenerate 1 p args.length (BitVec.ofNat 384 (packBytes body)) s
  else s

/-- A trace point of one of the ranges that R454 gives a block, with its arguments. Which of the range's points stands for an
action the manual does not say, so it is open (log 216). -/
def traceIn (lo hi : Nat) (args : List Nat) (s : State) : State :=
  if (List.range ((hi + 31) / 32 - lo / 32)).all (fun i => s.word (0x603000 + 4 * (lo / 32 + i)) = 0) then s
  else
    let f := s.fresh
    trace (lo + f.1.toNat % (hi - lo)) args f.2

/-! ### Completions (R318–R320, R338) -/

/-- `n` bytes of a command entry from byte `o` (R12, R332). -/
def eb (e : BitVec 512) (o n : Nat) : Nat := bits e.toNat (8 * o) (8 * n)

def entryOpcode (e : BitVec 512) : Nat := eb e 0 1
def entryOrdered (e : BitVec 512) : Bool := bit (eb e 1 1) 0
def entryNoInt (e : BitVec 512) : Bool := bit (eb e 1 1) 1
def entrySeq (e : BitVec 512) : Nat := eb e 2 2
def entryTag (e : BitVec 512) : Nat := eb e 4 4
def entryTenant (e : BitVec 512) : Nat := bits (eb e 8 2) 0 10
def entryHull (e : BitVec 512) : Nat := bits (eb e 10 1) 0 7

/-- N of a ring. -/
def ringSize (s : State) (r : Nat) : Nat := 2 ^ s.rd (RING_SIZE r)

def State.ringAux (s : State) (r : Nat) : RingAux := tget s.host.rings r {}

def State.setRingAux (s : State) (r : Nat) (a : RingAux) : State :=
  { s with host := { s.host with rings := tput s.host.rings r a {} } }

/-- A completion entry (R338). `step` holds bits [62:0]. -/
def completionRaw (status seq tag progress step detail : Nat) (phase : Bool) : BitVec 256 :=
  BitVec.ofNat 256 (packBytes [(0, 2, status), (2, 2, seq), (4, 4, tag), (8, 8, progress),
    (16, 8, step % 2 ^ 63 + b2n phase * 2 ^ 63), (24, 8, detail)])

/-- The coalescing rule, met at once when the count reaches COAL_COUNT (R320). -/
def coalesce (ring : Nat) (s : State) : State :=
  let a := s.ringAux ring
  let s := s.setRingAux ring { a with coalCount := a.coalCount + 1, coalTimer := true }
  if s.rdB (RING_INT_EN ring) && max 1 (s.rd (RING_COAL_COUNT ring)) ≤ a.coalCount + 1 then
    let fn := s.rd (RING_OWNER ring)
    let vec := s.rd (RING_VECTOR ring)
    signalVector fn vec s
  else s

/-- The completion of the next slot of a ring, its counters and its interrupt (R314, R318–R320). -/
def writeCompletion (ring : Nat) (noInt : Bool) (raw : Bool → BitVec 256) (s : State) : State :=
  let n := ringSize s ring
  let a := s.ringAux ring
  let k := a.written
  let slot := k % n
  let phase := (k / n) % 2 = 0
  let s := s.emit (.completion (s.rd (RING_OWNER ring)) ring slot (s.rd64 (RING_CQ_BASE ring) + 32 * slot) (raw phase))
  let s := s.setRingAux ring { a with written := k + 1 }
  let s := s.wr (RING_CQ_TAIL ring) ((s.rd (RING_CQ_TAIL ring) + 1) % (2 * n))
  let s := s.wr (RING_INFLIGHT ring) (s.rd (RING_INFLIGHT ring) - 1)
  let s := s.wrB (RING_QUIESCENT ring) (s.rd (RING_INFLIGHT ring) = 0)
  if noInt then s else coalesce ring s

/-- A command completes with the STEP value given. A module parked by a twin rule writes none (R389). -/
def completeAt (ring : Nat) (e : BitVec 512) (status progress step detail : Nat) (s : State) : State :=
  let s := trace (320 + entryOpcode e) [ring, entrySeq e, status, progress] s
  if s.boot.mute then s
  else writeCompletion ring (entryNoInt e)
    (fun p => completionRaw status (entrySeq e) (entryTag e) progress step detail p) s

/-- A command completes: STEP is the counter at that moment (R338). -/
def complete (ring : Nat) (e : BitVec 512) (status progress detail : Nat) (s : State) : State :=
  completeAt ring e status progress s.counter.toNat detail s

/-- A posted write of output bytes to host memory. -/
def dmaOut (fn addr : Nat) (data : List Byte) (s : State) : State :=
  if data = [] then s else s.emit (.dmaWrite fn addr data)

/-- Non-posted requests on the link (R305). -/
def nonPosted (s : State) : Nat := (s.host.dma.filter (fun d => d.issued)).length

/-- The bytes of a read's next piece: up to the next 4 KiB boundary of the host address, so that none passes the max read
request size (R305). -/
def DmaRead.piece (d : DmaRead) : Nat := min (4096 - (d.addr + d.got.length) % 4096) (d.len - d.got.length)

/-- A DMA read is made under a fresh tag (R335), piece after piece; it goes onto the link at once while fewer than 1,024 are
outstanding. -/
def dmaIn (fn addr len : Nat) (use : DmaUse) (s : State) : State :=
  let tag := s.host.nextTag
  let room : Bool := nonPosted s < s.host.cfg.maxNonPosted
  let s := { s with host := { s.host with
    dma := s.host.dma ++ [({ tag, fn, addr, len, use, issued := room } : DmaRead)], nextTag := tag + 1 } }
  if room then s.emit (.dmaRead tag fn addr (min (4096 - addr % 4096) len)) else s

/-- A read that was held back goes onto the link (R305), oldest first. -/
def issueHeld (s : State) : State :=
  match s.host.dma.find? (fun d => !d.issued) with
  | none => s
  | some d =>
    if s.host.cfg.maxNonPosted ≤ nonPosted s then s
    else
      let s := { s with host := { s.host with
        dma := s.host.dma.map (fun (x : DmaRead) => if x.tag = d.tag then { x with issued := true } else x) } }
      s.emit (.dmaRead d.tag d.fn (d.addr + d.got.length) d.piece)

/-- Reads leave the table: as many of those held back as fit go onto the link. -/
def dropReads (p : DmaRead → Bool) (s : State) : State :=
  let gone := s.host.dma.filter p
  let s := { s with host := { s.host with dma := s.host.dma.filter (fun d => !p d) } }
  iterate issueHeld gone.length s

/-! ### Status codes (R358) -/

def ST_OK : Nat := 0x0000
def ST_OK_PARTIAL : Nat := 0x0001
def ST_OK_CANCEL_LATE : Nat := 0x0002
def ST_OK_UNWRITTEN : Nat := 0x0003
def ST_OK_DEGRADED : Nat := 0x0004
def ST_BAD_OPCODE : Nat := 0x1001
def ST_BAD_PARAM : Nat := 0x1002
def ST_ACCESS_DENIED : Nat := 0x1003
def ST_SEQ_IN_USE : Nat := 0x1004
def ST_STALE_HANDLE : Nat := 0x1005
def ST_NO_SUCH_TENSOR : Nat := 0x1006
def ST_TENSOR_SHAPE : Nat := 0x1007
def ST_TENSOR_BUSY : Nat := 0x1008
def ST_TENANT_UNBOUND : Nat := 0x1009
def ST_TENANT_BUSY : Nat := 0x100A
def ST_NO_SUCH_HULL : Nat := 0x100B
def ST_HULL_NOT_LEAD : Nat := 0x100C
def ST_HULL_BUSY : Nat := 0x100D
def ST_HULL_FAULTED : Nat := 0x100E
def ST_NO_SUCH_REQUEST : Nat := 0x100F
def ST_NOTHING_TO_CANCEL : Nat := 0x1010
def ST_SHELL_BUSY : Nat := 0x1011
def ST_SHELL_NOT_READY : Nat := 0x1012
def ST_SHELL_MISMATCH : Nat := 0x1013
def ST_SHELL_INVALID : Nat := 0x1014
def ST_TIER_MISMATCH : Nat := 0x1015
def ST_CYCLE_BUSY : Nat := 0x1016
def ST_CYCLE_INVALID : Nat := 0x1017
def ST_CYCLE_LATE : Nat := 0x1018
def ST_NO_SUCH_ARCHIVE : Nat := 0x1019
def ST_CANCELLED : Nat := 0x2001
def ST_TILE_FAULT : Nat := 0x2002
def ST_HULL_STALL : Nat := 0x2003
def ST_HULL_DESTROYED : Nat := 0x2004
def ST_ADDR_RANGE : Nat := 0x2005
def ST_ADDR_UNMAPPED : Nat := 0x2006
def ST_POD_STATE : Nat := 0x2007
def ST_READ_ONLY : Nat := 0x2008
def ST_TIER_UNCORRECTABLE : Nat := 0x2009
def ST_TIER_POISONED : Nat := 0x200A
def ST_TIER_LATE : Nat := 0x200B
def ST_DMA_ERROR : Nat := 0x200C
def ST_DRAIN_FAILED : Nat := 0x200D
def ST_RESTORE_INVALID : Nat := 0x200E
def ST_SHELL_ABORTED : Nat := 0x200F
def ST_FIRMWARE_INVALID : Nat := 0x2010
def ST_INCOMPATIBLE : Nat := 0x3001
def ST_DEVICE_PARKED : Nat := 0x3002
def ST_DEVICE_STATE : Nat := 0x3003
def ST_FABRIC_UNREACHABLE : Nat := 0x4001
def ST_FABRIC_ERROR : Nat := 0x4002
def ST_TWIN_ROLE : Nat := 0x4003
def ST_TWIN_NO_PARTNER : Nat := 0x4004
def ST_TWIN_NOT_ARMED : Nat := 0x4005
def ST_TWIN_STANDBY : Nat := 0x4006
def ST_NO_TENANT_SLOT : Nat := 0x5001
def ST_NO_HULL_ID : Nat := 0x5002
def ST_NO_PODS : Nat := 0x5003
def ST_NO_HANDLE : Nat := 0x5004
def ST_NO_REQUEST_SLOT : Nat := 0x5005
def ST_NO_ROOM : Nat := 0x5006
def ST_FT_FULL : Nat := 0x5007
def ST_FT_WORN : Nat := 0x5008

/-! ### Reading the parts of the state by number -/

def State.tile (s : State) (t : Nat) : Tile := tget s.tiles t {}
def State.setTile (s : State) (t : Nat) (v : Tile) : State := { s with tiles := tput s.tiles t v {} }
def State.pod (s : State) (p : Nat) : Pod := tget s.pods p {}
def State.setPod (s : State) (p : Nat) (v : Pod) : State := { s with pods := tput s.pods p v {} }
def State.router (s : State) (t : Nat) : Router := tget s.routers t {}
def State.setRouter (s : State) (t : Nat) (v : Router) : State := { s with routers := tput s.routers t v {} }
def State.hull (s : State) (h : Nat) : Hull := tget s.srv.hulls h {}
def State.setHull (s : State) (h : Nat) (v : Hull) : State :=
  { s with srv := { s.srv with hulls := tput s.srv.hulls h v {} } }
def State.slot (s : State) (i : Nat) : Slot := tget s.srv.slots i {}
def State.setSlot (s : State) (i : Nat) (v : Slot) : State :=
  { s with srv := { s.srv with slots := tput s.srv.slots i v {} } }
def State.request (s : State) (i : Nat) : Request := tget s.srv.reqs i {}
def State.setRequest (s : State) (i : Nat) (v : Request) : State :=
  { s with srv := { s.srv with reqs := tput s.srv.reqs i v {} } }
def State.tensor (s : State) (h : Nat) : Tensor := tget s.tier.tensors h {}
def State.setTensor (s : State) (h : Nat) (v : Tensor) : State :=
  { s with tier := { s.tier with tensors := tput s.tier.tensors h v {} } }
def State.engine (s : State) (p e : Nat) : Engine := tget (s.pod p).engines e {}
def State.setEngine (s : State) (p e : Nat) (v : Engine) : State :=
  s.setPod p { s.pod p with engines := tput (s.pod p).engines e v {} }
def State.port (s : State) (p : Nat) : PortState := tget s.fab.ports p {}
def State.setPort (s : State) (p : Nat) (v : PortState) : State :=
  { s with fab := { s.fab with ports := tput s.fab.ports p v {} } }

/-- The hull that holds a pod, where one does (R82). -/
def State.podOwner (s : State) (p : Nat) : Option Nat :=
  if s.rdB (POD_ASSIGNED p) then some (s.rd (POD_HULL p)) else none

/-- The pod of a tile key, and its local index (R51). -/
def podOf (t : Nat) : Nat := t / 160
def localOf (t : Nat) : Nat := t % 160

/-- Row and column of a tile on the device (R14, R51). -/
def tileX (t : Nat) : Nat := (podOf t % 10) * 16 + localOf t % 16
def tileY (t : Nat) : Nat := (podOf t / 10) * 10 + localOf t / 16

/-- The tile key at (x, y) (R14). -/
def tileAt (x y : Nat) : Nat := ((y / 10) * 10 + x / 16) * 160 + (y % 10) * 16 + x % 16

/-! ### Trace points of Husk's parts (R454) -/

/-- The hull allocator's: hull, stage, pods, check number (0 where no check failed). -/
def hullTrace (h check : Nat) (s : State) : State :=
  traceIn 576 640 [h, (s.hull h).stage, (s.hull h).pods.length, check] s

/-- The serving engine's: ring, SEQ, tenant slot, check number. -/
def requestTrace (q : Request) (s : State) : State := traceIn 640 704 [q.ring, q.seqNo, q.tenant, 0] s

/-- The fabric's: a destination or an epoch, and the offset in 0.1 ns. -/
def fabricTrace (n : Nat) (s : State) : State := traceIn 832 896 [n, s.rd32 FAB_TIME_OFFSET] s

/-- Whether accesses reach BAR0 and BAR2: the link has trained, and power is good (R400 step 3). -/
def linkLive (s : State) : Bool := s.host.linkUp && s.pwr.good

/-- An access over PCIe: without a link there is none (log 214). -/
def overPcie (t s : State) : Result := .next (if linkLive s then t else s)

end Sys2Proof.Machine
end

