-- ==== Sys2Proof/Machine/Tile.lean ====
section
/-! DEFINITION. A tile's stores and their error code, its channels, its shell fields and their activation checks, and the
raising of a tile fault (R46–R77, R134–R143). -/

namespace Sys2Proof.Machine

/-! ### Registers (R46, R47) -/

/-- Scalar register n; s0 reads zero. -/
def Tile.s (t : Tile) (n : Nat) : Word := if n = 0 then 0#32 else tget t.sreg n 0#32

/-- Scalar register n written; a write to s0 is discarded. -/
def Tile.setS (t : Tile) (n : Nat) (v : Word) : Tile :=
  if n = 0 then t else { t with sreg := tput t.sreg n v 0#32 }

/-- The 32 lanes of vector register r. -/
def Tile.v (t : Tile) (r : Nat) : List Word := (List.range 32).map (fun l => tget t.vreg (32 * r + l) 0#32)

/-- Lanes from `lo` of vector register r written. -/
def Tile.setV (t : Tile) (r lo : Nat) (xs : List Word) : Tile :=
  { t with vreg := (xs.zip (List.range xs.length)).foldl (fun m e => tput m (32 * r + lo + e.2) e.1 0#32) t.vreg }

/-- Little-endian bytes of words. -/
def wordBytes (ws : List Word) : List Byte := ws.flatMap (fun w => leBytes w.toNat 4)

/-- `n` words from little-endian bytes. -/
def bytesWords (bs : List Byte) (n : Nat) : List Word :=
  (List.range n).map (fun i => BitVec.ofNat 32 (leNat ((bs.drop (4 * i)).take 4)))

/-! ### The error code of data SRAM and queue store (R48–R50) -/

/-- Key of the error record of the 8 B word at data SRAM offset `off`, or at a queue store offset. -/
def eccKey (queue : Bool) (off : Nat) : Nat := (if queue then 0x6000 else 0) + off / 8

/-- Offsets of the aligned 8 B words that `[off, off + len)` touches. -/
def wordsOf (off len : Nat) : List Nat :=
  if len = 0 then [] else (List.range ((off + len - 1) / 8 - off / 8 + 1)).map (fun i => (off / 8 + i) * 8)

/-- Words of `[off, off + len)` that a write must read first: those it covers in part. -/
def partialWords (off len : Nat) : List Nat :=
  (wordsOf off len).filter (fun w => w < off || off + len < w + 8)

/-- The first word with two or more bits in error among words that an access reads. -/
def eccBad (t : Tile) (queue : Bool) (ws : List Nat) : Option Nat :=
  ws.find? (fun w => 2 ≤ tget t.bad (eccKey queue w) 0)

/-- Words with one bit in error corrected in place, and how many there were. -/
def eccFix (t : Tile) (queue : Bool) (ws : List Nat) : Tile × Nat :=
  let ones := ws.filter (fun w => tget t.bad (eccKey queue w) 0 = 1)
  ({ t with bad := ones.foldl (fun m w => tput m (eccKey queue w) 0 0) t.bad }, ones.length)

/-- Words replaced whole by a write lose their errors. -/
def eccClear (t : Tile) (queue : Bool) (ws : List Nat) : Tile :=
  { t with bad := ws.foldl (fun m w => tput m (eccKey queue w) 0 0) t.bad }

/-- A reason to fault: code, DETAIL and channel of R73, R75. -/
structure Trap where
  code   : Nat
  detail : Nat
  queue  : Nat := 0

/-- DETAIL of SRAM_ECC: the offset of the word in error, bit 23 set for the queue store (R73). -/
def eccDetail (queue : Bool) (w : Nat) : Nat := w + (if queue then 2 ^ 23 else 0)

/-- Why the tile's own access to data SRAM faults, if it does: an offset at 0x3_0000 or above, a 128 B boundary crossed,
then an uncorrectable error (R48, R50, R73). -/
def sramTrap (t : Tile) (write : Bool) (off : Int) (len : Nat) : Option Trap :=
  if off < 0 || (0x30000 : Int) ≤ off then some ⟨0x05, (wrap off 24), 0⟩
  else
    let o := off.toNat
    if o / 128 ≠ (o + len - 1) / 128 then some ⟨0x06, o, 0⟩
    else (eccBad t false (if write then partialWords o len else wordsOf o len)).map
      (fun w => ⟨0x07, eccDetail false w, 0⟩)

/-- A read of data SRAM by the tile itself that does not fault: the bytes, the tile with corrections, their count. -/
def sramRead (t : Tile) (off len : Nat) : List Byte × Tile × Nat :=
  let f := eccFix t false (wordsOf off len)
  (mread t.sram off len, f.1, f.2)

/-- A write of data SRAM that does not fault. -/
def sramWrite (t : Tile) (off : Nat) (data : List Byte) : Tile × Nat :=
  let f := eccFix t false (partialWords off data.length)
  let t := eccClear f.1 false (wordsOf off data.length)
  ({ t with sram := mwrite t.sram off data }, f.2)

/-- `n` corrected words counted: SRAM_CORRECTED, set once for each of them, and POD_SRAM_CE (R16, R50). -/
def countCorrected (p n : Nat) (s : State) : State :=
  if n = 0 then s else (s.raiseN (POD_FAULT_STATUS p) 2 n).addSat (POD_SRAM_CE p) n

/-! ### Banks (R49) -/

/-- One conflict on a bank: the group that lost the previous one wins, the local group first of all; the other waits one
tile cycle, which the pod counts. -/
def bankConflict (k b : Nat) (s : State) : State :=
  let t := s.tile k
  (s.setTile k { t with bankTurn := tput t.bankTurn b (!tget t.bankTurn b false) false }).addSat (POD_BANK_STALL (podOf k)) 1

/-- The waits of an operation's SRAM accesses: conflicts with the riser group, and cycles behind a higher-ranked local
requester. -/
def bankWaits (k : Nat) (w : BankWait) (s : State) : State :=
  (w.riser.foldl (fun s b => bankConflict k (b % 4) s) s).addSat (POD_BANK_STALL (podOf k)) w.behind

/-! ### Shell fields (R137–R139) -/

/-- `n` bytes at offset `o` of slot `slot` of a tile's shell store. -/
def Tile.sh (t : Tile) (slot o n : Nat) : Nat := leNat (mread t.shell (slot * 0x800 + o) n)

/-- `n` bytes at offset `o` of the active shell. -/
def Tile.act (t : Tile) (o n : Nat) : Nat := t.sh t.active o n

/-- Channel table entry q of a slot. -/
def Tile.chanEntry (t : Tile) (slot q : Nat) : Nat := t.sh slot (0x40 + 8 * q) 8

def chMode (e : Nat) : Nat := bits e 0 2
def chHub (e : Nat) : Bool := bit e 2
def chBase (e : Nat) : Nat := bits e 3 9
def chDepth (e : Nat) : Nat := bits e 12 9
def chInit (e : Nat) : Nat := bits e 21 9
def chPersist (e : Nat) : Bool := bit e 30
def chEndpoint (e : Nat) : Nat := bits e 32 19
def chX (e : Nat) : Nat := bits e 32 8
def chY (e : Nat) : Nat := bits e 40 7
def chQ (e : Nat) : Nat := bits e 47 4
def chHubIdx (e : Nat) : Nat := bits e 32 6
def MODE_INPUT : Nat := 1
def MODE_OUTPUT : Nat := 2

def Tile.nextEn (t : Tile) (slot : Nat) : Bool := bit (t.sh slot 3 1) 0
def Tile.nextShell (t : Tile) (slot : Nat) : Nat := bits (t.sh slot 3 1) 1 2
def Tile.planeFmt (t : Tile) : Nat := bits (t.act 4 1) 0 4
def Tile.opCount (t : Tile) : Nat := t.act 6 2
def Tile.sramTop (t : Tile) : Nat := t.act 20 4

/-- Operation word `i` of the active shell. -/
def Tile.opWord (t : Tile) (i : Nat) : Nat := t.act (0x300 + 8 * i) 8

/-- Immediate `i` of the active shell. -/
def Tile.imm (t : Tile) (i : Nat) : Word := BitVec.ofNat 32 (t.act (0x1C0 + 4 * i) 4)

/-- Fields of a channel entry that must be zero in its MODE, as (lowest bit, width) (R139). -/
def chanReserved (e : Nat) : List (Nat × Nat) :=
  match chMode e with
  | 0 => [(2, 1), (3, 9), (12, 9), (21, 9), (30, 1), (31, 1), (32, 19), (51, 13)]
  | 1 => [(2, 1), (21, 9), (31, 1), (32, 19), (51, 13)]
  | 2 => [(31, 1)] ++ (if chHub e then [(38, 13)] else []) ++ [(51, 13)]
  | _ => [(0, 2)]

/-- Byte offset of the first invalid field of a channel entry. -/
def chanInvalid (e : Nat) : Option Nat :=
  ((chanReserved e).find? (fun f => bits e f.1 f.2 ≠ 0)).map (fun f => f.1 / 8)

/-- Whether an operation word is a VCVT that names a reserved format code (R84, R162). -/
def vcvtFmtBad (w : Nat) : Bool := bits w 0 8 = 0x0C && !bit w 38 && !fmtDefined (bits w 32 4)

/-- The first word of a shell whose format code is reserved: the byte offset of the field. -/
def shellFmtBad (t : Tile) (slot : Nat) : Option Nat :=
  ((List.range (min 159 (t.sh slot 6 2))).find? (fun i => vcvtFmtBad (t.sh slot (0x300 + 8 * i) 8))).map
    (fun i => 0x304 + 8 * i)

/-- The activation checks of R143 on slot `slot`, and R84's of the format codes that it names: byte offset of the first
failing field. -/
def activationFault (t : Tile) (slot : Nat) : Option Nat :=
  let h := fun o n => t.sh slot o n
  if h 0 2 ≠ 0x5348 then some 0
  else if h 2 1 ≠ 2 then some 2
  else if bits (h 3 1) 3 5 ≠ 0 then some 3
  else if !fmtDefined (bits (h 4 1) 0 4) || bits (h 4 1) 4 4 ≠ 0 then some 4
  else if 6 < h 5 1 then some 5
  else if 159 < h 6 2 then some 6
  else if h 19 1 ≠ 0 then some 19
  else if h 24 40 ≠ 0 then some (24 + ((List.range 40).find? (fun i => h (24 + i) 1 ≠ 0)).getD 0)
  else ((List.range 16).findSome? (fun q => (chanInvalid (t.chanEntry slot q)).map (fun b => 0x40 + 8 * q + b))).or
    (shellFmtBad t slot)

/-! ### Channels (R64–R68) -/

def Tile.chan (t : Tile) (q : Nat) : Chan := tget t.chans q {}
def Tile.setChan (t : Tile) (q : Nat) (c : Chan) : Tile := { t with chans := tput t.chans q c {} }

/-- A channel is empty and settled under entry `e` (R68). -/
def settled (e : Nat) (c : Chan) : Bool :=
  c.count = 0 && c.owed = 0 && (chMode e != MODE_OUTPUT || c.credits = chInit e)

/-- The channel that a settled channel becomes under the new shell's entry (R68). -/
def freshChan (e : Nat) : Chan := { credits := if chMode e = MODE_OUTPUT then chInit e else 0 }

/-- The first channel whose layout keeps the switch from taking place (R68). -/
def layoutClash (t : Tile) (slot : Nat) : Option Nat :=
  (List.range 16).find? (fun q =>
    let o := t.chanEntry t.active q
    let n := t.chanEntry slot q
    !settled o (t.chan q) &&
      !(chMode o = chMode n && chBase o = chBase n && chDepth o = chDepth n && chEndpoint o = chEndpoint n
        && chHub o = chHub n))

/-- The channels after the switch to `slot` (R68). -/
def switchChans (t : Tile) (slot : Nat) : Tab Chan :=
  (List.range 16).foldl (fun m q =>
    if settled (t.chanEntry t.active q) (t.chan q) then tput m q (freshChan (t.chanEntry slot q)) {} else m) t.chans

/-- Queue store offset of the `i`-th oldest entry of a channel. -/
def entryOffset (e : Nat) (c : Chan) (i : Nat) : Nat := (chBase e + (c.head + i) % chDepth e) * 64

/-- What a pop or push of the tile finds. -/
inductive QResult (α : Type) where
  | wait
  | trap (t : Trap)
  | ok (a : α)

/-- The oldest entry of a channel read by the queue logic: bytes, tile with corrections, count. -/
def readEntry (t : Tile) (q : Nat) : QResult (List Byte × Tile × Nat) :=
  let e := t.chanEntry t.active q
  let off := entryOffset e (t.chan q) 0
  match eccBad t true (wordsOf off 64) with
  | some w => .trap ⟨0x07, eccDetail true w, q⟩
  | none =>
    let f := eccFix t true (wordsOf off 64)
    .ok (mread t.queues off 64, f.1, f.2)

/-- The tile waits for an entry of channel `q`, or for room in it, beside what it waits for already (R458). -/
def Tile.awaitPop (t : Tile) (q : Nat) : Tile := if t.waitPop.contains q then t else { t with waitPop := t.waitPop ++ [q] }
def Tile.awaitPush (t : Tile) (q : Nat) : Tile :=
  if t.waitPush.contains q then t else { t with waitPush := t.waitPush ++ [q] }

/-- A pop from an INPUT channel (R66, R67): the entry leaves and one credit is owed. -/
def popEntry (t : Tile) (q : Nat) : QResult (List Byte × Tile × Nat) :=
  let e := t.chanEntry t.active q
  let c := t.chan q
  if chMode e ≠ MODE_INPUT then .trap ⟨0x03, 1, q⟩
  else if c.count = 0 then .wait
  else match readEntry t q with
    | .ok (bs, t2, n) =>
      .ok (bs, t2.setChan q { c with head := (c.head + 1) % chDepth e, count := c.count - 1, owed := c.owed + 1 }, n)
    | r => r

/-- Whether the entries of a channel are for a place that the mesh does not have (R58). -/
def destBad (e : Nat) : Bool := !chHub e && (159 < chX e || 79 < chY e)

/-- An entry appended to a channel's region. -/
def appendEntry (t : Tile) (q : Nat) (data : List Byte) : Tile :=
  let e := t.chanEntry t.active q
  let c := t.chan q
  let off := entryOffset e c c.count
  let t := eccClear t true (wordsOf off 64)
  ({ t with queues := mwrite t.queues off data }).setChan q { c with count := c.count + 1 }

/-- A push to an OUTPUT channel (R58, R66, R67). `routeOk` says whether a remote route is valid (R180). -/
def pushEntry (routeOk : Nat → Bool) (t : Tile) (q : Nat) (data : List Byte) : QResult Tile :=
  let e := t.chanEntry t.active q
  if chMode e ≠ MODE_OUTPUT then .trap ⟨0x03, 0, q⟩
  else if destBad e then .trap ⟨0x08, chX e + chY e * 2 ^ 16, q⟩
  else if chHub e && 32 ≤ chHubIdx e && chHubIdx e < 48 && !routeOk (chHubIdx e - 32) then
    .trap ⟨0x08, 0xFF + 0x7F * 2 ^ 16, q⟩
  else if chDepth e ≤ (t.chan q).count then .wait
  else .ok (appendEntry t q data)

/-! ### Faults (R73–R77) -/

/-- A fault record (R75). -/
def faultRecord (x y shell queue device code detail : Nat) : DWord :=
  BitVec.ofNat 64 (x + y * 2 ^ 8 + shell * 2 ^ 15 + queue * 2 ^ 17 + device * 2 ^ 21 + code * 2 ^ 32
    + detail % 2 ^ 24 * 2 ^ 40)

/-- The states of POD_STATUS (R82). -/
def POD_OFF : Nat := 0
def POD_IDLE : Nat := 1
def POD_LOADED : Nat := 2
def POD_RUNNING : Nat := 3
def POD_HALTED : Nat := 4
def POD_SCANNING : Nat := 5

/-- Every pod of a list set to a state. -/
def setPods (ps : List Nat) (st : Nat) (s : State) : State := ps.foldl (fun s p => s.wr (POD_STATE p) st) s

/-- Whether a fault of tile `l` may fall in the mesh cycle of the record that the pod keeps and would then take its place:
the step counter has not moved since and the record names a tile of higher local index (R77). -/
def mayPrecede (s : State) (p l : Nat) : Bool :=
  let pd := s.pod p
  pd.faultKept && pd.faultAt = s.counter && l < pd.faultTile

/-- The record of a fault of tile `l` kept in pod `p`. -/
def keepFault (p l : Nat) (rec : DWord) (s : State) : State :=
  (s.setPod p { s.pod p with faultKept := true, faultAt := s.counter, faultTile := l }).wr64 (POD_FAULT_INFO p) rec.toNat

/-- A record kept as the pod's first fault, with its flag (R77, R82): STALL raises bit 1, every other fault bit 0. `l` is
the local index of the faulting tile, 160 for a fault that names none. A later record of a lower tile takes its place where
both were raised in one mesh cycle; the commands carry no mesh cycle, and a free bit says whether they were (log 192). -/
def notePodFault (p l : Nat) (rec : DWord) (stall : Bool) (s : State) : State :=
  let s := if !(s.pod p).faultKept then keepFault p l rec s
    else if mayPrecede s p l then (if s.fresh.1.getLsbD 0 then keepFault p l rec s.fresh.2 else s.fresh.2)
    else s
  s.raise (POD_FAULT_STATUS p) (if stall then 1 else 0)

/-- An SFU request not yet granted is withdrawn when its pod halts (R116): the operation counts as not executed. DESIGN
CHOICE (log 156): the next word index that the image then holds (R192) is the one after the VSFU, where the sequencer stood
when the pod halted; no rule takes it back. -/
def withdrawSfu (p : Nat) (s : State) : State :=
  (List.range 160).foldl (fun s l =>
    let k := p * 160 + l
    let t := s.tile k
    match t.sfu with
    | some r => if r.granted then s else s.setTile k { t with sfu := none }
    | none => s) s

/-- The pods of a hull halt on a fault: no further chunk, READ chunks in flight discarded (R76, R116, R187). -/
def haltPods (ps : List Nat) (s : State) : State :=
  let s := setPods (ps.filter (fun p => 2 ≤ s.rd (POD_STATE p))) POD_HALTED s
  ps.foldl (fun s p => withdrawSfu p s) s

/-- Whether the hull's record stands before `rec`, raised now in pod `p` by tile `l`: earlier, or of the same counter value
and a lower pod, or of the same pod, which has not kept `rec` in its place (R77). -/
def standsBefore (s : State) (hl : Hull) (p l : Nat) (rec : DWord) : Bool :=
  hl.fault.isSome && (hl.faultAt.toNat < s.counter.toNat
    || (hl.faultAt = s.counter && (hl.faultPod < p
      || (hl.faultPod = p && (hl.faultTile ≤ l || s.rd64 (POD_FAULT_INFO p) ≠ rec.toNat)))))

/-- A fault of hull `h` with its record, raised in pod `p` by tile `l` and noted there (R76 steps 1 and 2; R77 for the
record that is kept). -/
def hullFault (h p l : Nat) (rec : DWord) (s : State) : State :=
  let hl := s.hull h
  let s := if standsBefore s hl p l rec then s
    else s.setHull h { hl with fault := some rec, faultAt := s.counter, faultPod := p, faultTile := l }
  haltPods hl.pods s

/-- A fault of a pod's hull is noted in the pod and halts the hull. -/
def podFault (h p l : Nat) (rec : DWord) (s : State) : State := hullFault h p l rec (notePodFault p l rec false s)

/-- A tile fault raised at tile `t`; `flitHull` is the flit's hull where a flit raised it. One raised in a pod that is off
or holds no hull goes to the lowest-numbered pod of the flit's hull (R77). -/
def raiseFault (t : Nat) (tr : Trap) (flitHull : Option Nat) (s : State) : State :=
  let tl := s.tile t
  let rec_ := faultRecord (tileX t) (tileY t) tl.active tr.queue s.ownId tr.code tr.detail
  let p := podOf t
  match (if s.rd (POD_STATE p) = POD_OFF then none else s.podOwner p) with
  | some h => podFault h p (localOf t) rec_ (s.setTile t { tl with fault := rec_ })
  | none =>
    match flitHull with
    | some h =>
      match (sortBy (fun a b => a ≤ b) (s.hull h).pods).head? with
      | some q => podFault h q (localOf t) rec_ s
      | none => s
    | none => s

/-- A progress event of the hull that holds pod `p` sets its watchdog count to zero (R71). -/
def progress (p : Nat) (s : State) : State :=
  match s.podOwner p with
  | some h => (s.hull h).pods.foldl (fun s q => s.wr32 (POD_WDOG_COUNT q) 0) s
  | none => s

/-! ### What a pod's control block shows (R55, R82) -/

/-- Whether the pod side of the crossings of a tile's pod runs: not while its PLL relocks (R55, R425). -/
def podSide (s : State) (k : Nat) : Bool := !(s.pod (podOf k)).changing

/-- INJECT_STOPPED: INJECT_STOP is in effect and every owed credit has been sent (R82). -/
def refreshInjectStopped (p : Nat) (s : State) : State :=
  let owed := (List.range 160).any (fun l => (s.tile (p * 160 + l)).chans.any (fun c => c.2.owed ≠ 0))
  s.wrB (POD_STOPPED p) (s.rdB (POD_INJECT_STOP p) && !owed)

/-- INJECT_STOPPED after a pop, which owes a credit anew (R66, R82). -/
def owesAnew (p : Nat) (s : State) : State := if s.rdB (POD_INJECT_STOP p) then refreshInjectStopped p s else s

/-- Whether remote route `n` of the pod is in use (R180). -/
def routeOk (s : State) (p n : Nat) : Bool := bit (s.rd64 (STR_ROUTE p n)) 25

end Sys2Proof.Machine
end

