-- ==== Sys2Proof/Machine/Operands.lean ====
section
/-! DEFINITION. The operation words of a tile (R160–R163): their fields and operands, their validity, the sequencer's
advance through the list with its REPEAT records, and how a word's result or fault reaches the state. -/

namespace Sys2Proof.Machine

/-! ### Fields (R161) -/

def wOp (w : Nat) : Nat := bits w 0 8
def wDst (w : Nat) : Nat := bits w 8 6
def wA (w : Nat) : Nat := bits w 14 6
def wB (w : Nat) : Nat := bits w 20 6
def wC (w : Nat) : Nat := bits w 26 6
def wImm (w : Nat) : Nat := bits w 32 32
def wFn (w : Nat) : Nat := bits w 32 8
def wBsrc (w : Nat) : Nat := bits w 40 2

def OP_END : Nat := 0x00
def OP_REPEAT : Nat := 0x01
def OP_WAIT : Nat := 0x02
def OP_FENCE : Nat := 0x03
def OP_PLANE_RUN : Nat := 0x04
def OP_STREAM : Nat := 0x05
def OP_SOP : Nat := 0x08
def OP_VINT : Nat := 0x09
def OP_VFP : Nat := 0x0A
def OP_VXLANE : Nat := 0x0B
def OP_VCVT : Nat := 0x0C
def OP_VLOAD : Nat := 0x0D
def OP_VSTORE : Nat := 0x0E
def OP_VPUSH : Nat := 0x0F
def OP_VPOP : Nat := 0x10
def OP_VSFU : Nat := 0x11

/-! ### Validity (R163) -/

/-- IMM bits that the table of R162 gives a meaning in this word. -/
def immUsed (w : Nat) : Nat :=
  let op := wOp w
  let bsrc := if wBsrc w = 2 then 0x00FF0000 else if wBsrc w = 3 then 0xFFFF0000 else 0
  if op = OP_REPEAT then 0x00FFFFFF
  else if op = OP_WAIT then 0xFF
  else if op = OP_FENCE then 0x1
  else if op = OP_STREAM then 0x1FFF
  else if op = OP_SOP || op = OP_VINT || op = OP_VFP then 0x3FF ||| bsrc
  else if op = OP_VXLANE then (if wFn w = 3 then 0x1F01FF else 0x1FF)
  else if op = OP_VCVT then 0x03FFFF7F
  else if op = OP_VLOAD || op = OP_VSTORE then 0x3FFFF
  else if op = OP_VPUSH then 0xF
  else if op = OP_VPOP then 0x1F
  else if op = OP_VSFU then 0x3
  else 0

/-- Register fields of a word that name a vector register (R161). -/
def vectorFields (w : Nat) : List Nat :=
  let op := wOp w
  let b := if wBsrc w = 0 then [wB w] else []
  if op = OP_VINT then [wDst w, wA w] ++ b ++ (if wFn w = 12 then [wC w] else [])
  else if op = OP_VFP then [wDst w, wA w] ++ b ++ (if wFn w = 3 || wFn w = 11 then [wC w] else [])
  else if op = OP_VXLANE then [wDst w, wA w] ++ (if wFn w = 4 then [wB w] else [])
  else if op = OP_VCVT || op = OP_VSFU then [wDst w, wA w]
  else if op = OP_VLOAD || op = OP_VPOP then [wDst w]
  else if op = OP_VSTORE then [wB w]
  else if op = OP_VPUSH then [wA w]
  else []

/-- Whether the function or format that a word names is defined. -/
def fnDefined (w : Nat) : Bool :=
  let op := wOp w
  if op = OP_SOP then wFn w ≤ 13
  else if op = OP_VINT then wFn w ≤ 12
  else if op = OP_VFP then wFn w ≤ 11
  else if op = OP_VXLANE then wFn w ≤ 4
  else if op = OP_VCVT then !vcvtFmtBad w && (!bit (wImm w) 6 || bits (wImm w) 0 4 = 0)
  else true

/-- Whether word `w` at index `i` is valid (R163): `depth` REPEATs enclose it, `count` is OP_COUNT, `tableLen` the
descriptors in the pod's table. -/
def wordValid (i depth count tableLen w : Nat) : Bool :=
  let op := wOp w
  (op ≤ 5 || (8 ≤ op && op ≤ 0x11)) && fnDefined w
    && !((op = OP_VINT || op = OP_VFP) && wBsrc w = 3)
    && !((op = OP_SOP || op = OP_VINT || op = OP_VFP) && wBsrc w = 2 && 80 ≤ bits (wImm w) 16 8)
    && (op ≠ OP_REPEAT || (1 ≤ bits (wImm w) 0 16 && 1 ≤ bits (wImm w) 16 8 && bits (wImm w) 16 8 ≤ 158
          && depth < 4 && i + 1 + bits (wImm w) 16 8 ≤ count))
    && !(op = OP_STREAM && tableLen ≤ bits (wImm w) 0 10)
    && (vectorFields w).all (fun r => r < 16)
    && (wImm w &&& immUsed w) = wImm w

/-! ### The sequencer -/

/-- Where the sequencer goes when word `i` has issued: on to the next word, or back to the start of a REPEAT body that
has repetitions left (R162). DESIGN CHOICE (log 159): the manual gives no meaning to a REPEAT whose body runs past the end
of the body that encloses it; here its record stays on the stack, and the enclosing one, whose end the sequencer then does
not meet as the innermost, repeats no more. -/
def afterWord (i : Nat) : List Rep → Nat × List Rep
  | [] => (i + 1, [])
  | r :: rs =>
    if i + 1 = r.first + r.len then
      if 1 < r.left then (r.first, { r with left := r.left - 1 } :: rs) else afterWord i rs
    else (i + 1, r :: rs)

/-- The sequencer past the word it has issued. -/
def advance (t : Tile) : Tile :=
  let n := afterWord t.seq.index t.seq.reps
  { t with seq := { t.seq with index := n.1, reps := n.2, phase := 1, pushed := false }, waitPop := [], waitPush := [],
           stalled := false }

/-- The word the sequencer stands at: a list that reaches OP_COUNT without an END behaves as if that word were END
(R160). -/
def currentWord (t : Tile) : Nat := if t.opCount ≤ t.seq.index then 0 else t.opWord t.seq.index

/-- What issuing a word gives. -/
inductive Issue where
  /-- The word waits; the tile notes the channel it waits on. -/
  | wait (t : Tile)
  | trap (t : Trap)
  /-- The word has run: the tile after it, and corrected SRAM words. -/
  | done (t : Tile) (corrected : Nat)
  /-- The word has run and leaves one register with a value the manual does not give. -/
  | open_ (t : Word → Tile)

/-- Whether a tile issues words: its pod runs a step, and its END has not completed. -/
def issuing (k : Nat) (s : State) : Bool :=
  s.rd (POD_STATE (podOf k)) = POD_RUNNING && ((s.tile k).seq.phase = 1 || (s.tile k).seq.phase = 2)

/-- Registers that an outstanding SFU request will write (R112). -/
def sfuBusy (t : Tile) (r : Nat) : Bool := match t.sfu with | some q => q.dst = r | none => false

/-- Vector registers that a word reads or writes. -/
def wordVectors (w : Nat) : List Nat := vectorFields w

/-- The word of a tile operation, or the state in which none issues: the word that the sequencer of tile `k` stands at runs, where it is the operation `op`. An invalid
word raises SHELL_FIELD whichever operation the event names (R163). A word waits for an SFU result that it reads or
overwrites (R112). -/
def issueGate (op k : Nat) (s : State) : Sum State Nat :=
  if !issuing k s then .inl s
  else
    let t := s.tile k
    let w := currentWord t
    let i := t.seq.index
    if i < t.opCount && !wordValid i t.seq.reps.length t.opCount (s.rd (STR_TABLE_LEN (podOf k))) w then
      .inl (raiseFault k ⟨0x0B, 0x300 + 8 * i, 0⟩ none s)
    else if wOp w ≠ op then .inl s
    else if (wordVectors w).any (sfuBusy t) then .inl (s.setTile k { t with stalled := true })
    else .inr w

/-- A tile operation that acts on its tile alone. -/
def tileOp (op k : Nat) (run : Tile → Nat → State → Issue) (s : State) : State :=
  match issueGate op k s with
  | .inl s2 => s2
  | .inr w =>
    match run (s.tile k) w s with
    | .wait t2 => s.setTile k { t2 with stalled := true }
    | .trap tr => raiseFault k tr none s
    | .done t2 n => countCorrected (podOf k) n (s.setTile k t2)
    | .open_ f => s.fresh.2.setTile k (f s.fresh.1)

/-! ### Operand B (R162) -/

/-- Operand B of SOP. -/
def scalarB (t : Tile) (w : Nat) : Word :=
  if wBsrc w = 2 then t.imm (bits (wImm w) 16 8)
  else if wBsrc w = 3 then BitVec.ofNat 32 (wrap (signed (bits (wImm w) 16 16) 16) 32)
  else t.s (wB w)

/-- Operand B of VINT and VFP, lane by lane. -/
def vectorB (t : Tile) (w : Nat) : List Word :=
  if wBsrc w = 0 then t.v (wB w)
  else if wBsrc w = 1 then List.replicate 32 (t.s (wB w))
  else List.replicate 32 (t.imm (bits (wImm w) 16 8))

/-- All ones or zero. -/
def mask32 (b : Bool) : Word := if b then 0xFFFFFFFF#32 else 0#32

/-- A VINT or SOP function on 32-bit operands (R110, R162); `c` is the select mask. -/
def intFn (fn : Nat) (a b c : Word) : Word :=
  match fn with
  | 0 => a + b
  | 1 => a - b
  | 2 => a * b
  | 3 => a &&& b
  | 4 => a ||| b
  | 5 => a ^^^ b
  | 6 => a <<< (b.toNat % 32)
  | 7 => a >>> (b.toNat % 32)
  | 8 => a.sshiftRight (b.toNat % 32)
  | 9 => mask32 (a == b)
  | 10 => mask32 (a.slt b)
  | 11 => mask32 (a.ult b)
  | 12 => if c = 0#32 then b else a
  | _ => b

/-- A VFP function (R110, R162). -/
def fpFn (fn : Nat) (a b c : Word) : Word :=
  match fn with
  | 0 => fpAdd a b
  | 1 => fpSub a b
  | 2 => fpMul a b
  | 3 => fpFma a b c
  | 4 => fpMin a b
  | 5 => fpMax a b
  | 6 => fpAbs a
  | 7 => fpNegate a
  | 8 => mask32 (fpEq a b)
  | 9 => mask32 (fpLt a b)
  | 10 => mask32 (fpLe a b)
  | _ => if c = 0#32 then b else a

/-- A function applied lane by lane. -/
def lanes3 (f : Word → Word → Word → Word) (a b c : List Word) : List Word :=
  (a.zip (b.zip c)).map (fun x => f x.1 x.2.1 x.2.2)

/-- One level of the cross-lane tree: lane i with lane i + half (R111). -/
def foldLevel (f : Word → Word → Word) (xs : List Word) : List Word :=
  let h := xs.length / 2
  ((xs.take h).zip (xs.drop h)).map (fun x => f x.1 x.2)

/-- The five levels, and the result in lane 0 (R111). -/
def crossLane (f : Word → Word → Word) (xs : List Word) : Word := (iterate (foldLevel f) 5 xs).headD 0#32

/-- VXLANE sum, max and min on FP32 or INT32 lanes. -/
def xlaneFn (fn : Nat) (int32 : Bool) (a b : Word) : Word :=
  match fn, int32 with
  | 0, false => fpAdd a b
  | 1, false => fpMax a b
  | 2, false => fpMin a b
  | 0, true => a + b
  | 1, true => if a.slt b then b else a
  | _, true => if a.slt b then a else b
  | _, false => a

end Sys2Proof.Machine
end

