-- ==== Sys2Proof/Machine/Plane.lean ====
section
/-! DEFINITION. PLANE_RUN: the loop nest of the active shell through the multiply-accumulate plane, with its latch loads,
channel operands, drains and the rotation of resident weights (R91, R100–R104, R165–R176). One event runs the nest as far
as its channels allow; the next event resumes it. -/

namespace Sys2Proof.Machine

/-! ### The loop descriptor table (R165–R167) -/

structure Level where
  bound : Nat
  role  : Nat
  aS    : Int
  wS    : Int
  oS    : Int

def levelAt (t : Tile) (k : Nat) : Level :=
  let o := 0x100 + 32 * k
  { bound := t.act o 2, role := bits (t.act (o + 2) 1) 0 2, aS := signed (t.act (o + 4) 4) 32,
    wS := signed (t.act (o + 8) 4) 32, oS := signed (t.act (o + 12) 4) 32 }

def nestLevels (t : Tile) : List Level := (List.range (min 6 (t.act 5 1))).map (levelAt t)

def nhCtrl (t : Tile) (b : Nat) : Bool := bit (t.act 0xC0 1) b
def ACC_BEGIN (t : Tile) : Bool := nhCtrl t 0
def ACC_END (t : Tile) : Bool := nhCtrl t 1
def ROT_EN (t : Tile) : Bool := nhCtrl t 2
def ROT_ORIGIN (t : Tile) : Bool := nhCtrl t 3
def A_QUEUE (t : Tile) : Bool := nhCtrl t 4
def W_QUEUE (t : Tile) : Bool := nhCtrl t 5
def O_QUEUE (t : Tile) : Bool := nhCtrl t 6
def ROT_LEVEL (t : Tile) : Nat := bits (t.act 0xC1 1) 0 3
def nhChan (t : Tile) (byte lo : Nat) : Nat := bits (t.act (0xC0 + byte) 1) lo 4
def nhBase (t : Tile) (byte : Nat) : Nat := bits (t.act (0xC0 + byte) 4) 0 18
def rotBuf (t : Tile) (i : Nat) : Nat := nhBase t (if i = 0 then 28 else 32)
def rotEntries (t : Tile) : Nat := nhBase t 36 / 64

/-- Product of the bounds of the levels that satisfy `p`. -/
def boundProd (p : Level → Bool) (ls : List Level) : Nat := ((ls.filter p).map (·.bound)).foldl (· * ·) 1

def isOut (l : Level) : Bool := l.role = 0
def isRed (l : Level) : Bool := l.role = 1
def isWgt (l : Level) : Bool := !isOut l && !isRed l

/-- Indexes of every level at unit `u` and row `n`: OUTPUT levels count `n`, the others `u`, lowest level fastest. -/
def nestIndexes : List Level → Nat → Nat → List Nat
  | [], _, _ => []
  | l :: ls, u, n =>
    if isOut l then (n % l.bound) :: nestIndexes ls u (n / l.bound)
    else (u % l.bound) :: nestIndexes ls (u / l.bound) n

/-- The level whose index advanced last (R173): DETAIL of DESC_BOUND. -/
def lastAdvanced (ls : List Level) (u n : Nat) : Nat :=
  let is := (nestIndexes ls u n).zip (ls.zip (List.range ls.length))
  let hit := fun (out : Bool) => (is.find? (fun e => isOut e.2.1 == out && e.1 != 0)).map (fun e => e.2.2)
  ((if n = 0 then none else hit true).or (hit false)).getD 0

/-- Ring position of a local column (R174). -/
def ringPos (u : Nat) : Nat := ([0, 2, 4, 6, 8, 10, 12, 14, 15, 13, 11, 9, 7, 5, 3, 1] : List Nat).idxOf u

/-- The indexes that the addresses use: with ROT_ORIGIN, the rotation level's index becomes its origin (R168, R175). -/
def addrIndexes (t : Tile) (col : Nat) (ls : List Level) (u n : Nat) : List Nat :=
  let is := nestIndexes ls u n
  if ROT_EN t && ROT_ORIGIN t then
    is.set (ROT_LEVEL t) ((ringPos col + 16 - is.getD (ROT_LEVEL t) 0 % 16) % 16)
  else is

def strideSum (f : Level → Int) (ls : List Level) (is : List Nat) : Int :=
  ((ls.zip is).map (fun e => f e.1 * (e.2 : Int))).foldl (· + ·) 0

/-- Units per round of the rotation, and the round of a unit (R175). -/
def perRound (t : Tile) (ls : List Level) : Nat := boundProd (fun l => !isOut l) (ls.take (ROT_LEVEL t))
def roundOf (t : Tile) (ls : List Level) (u : Nat) : Nat := u / max 1 (perRound t ls)

/-! ### Addresses (R168–R170, R173) -/

def aAddr (t : Tile) (col : Nat) (ls : List Level) (u n : Nat) : Int :=
  nhBase t 8 + strideSum (·.aS) ls (addrIndexes t col ls u n)

def aScaleAddr (t : Tile) (col : Nat) (ls : List Level) (u n : Nat) : Int :=
  nhBase t 12 + (aAddr t col ls u n - nhBase t 8) / (fmtGroup t.planeFmt : Int)

def rotBase (t : Tile) (ls : List Level) (u : Nat) : Nat :=
  if ROT_EN t then rotBuf t (roundOf t ls u % 2) else 0

def wAddr (t : Tile) (col : Nat) (ls : List Level) (u : Nat) : Int :=
  rotBase t ls u + nhBase t 16 + strideSum (·.wS) ls (addrIndexes t col ls u 0)

def wScaleAddr (t : Tile) (col : Nat) (ls : List Level) (u : Nat) : Int :=
  rotBase t ls u + nhBase t 20 + strideSum (·.wS) ls (addrIndexes t col ls u 0) / (fmtGroup t.planeFmt : Int)

def oAddr (t : Tile) (col : Nat) (ls : List Level) (u n : Nat) : Int :=
  nhBase t 24 + strideSum (·.oS) ls (addrIndexes t col ls u n)

/-- Why an address of the nest faults, if it does (R173): outside [0, SRAM_TOP), misaligned, or uncorrectable. -/
def nestTrap (t : Tile) (write : Bool) (a : Int) (len align level : Nat) : Option Trap :=
  if a < 0 || (t.sramTop : Int) < a + len then some ⟨0x0C, level, 0⟩
  else if a.toNat % align ≠ 0 then some ⟨0x06, a.toNat, 0⟩
  else sramTrap t write a len

/-- The check of a run of bytes longer than one access: 64 B at a time. -/
def nestTrapRun (t : Tile) (a : Int) (len level : Nat) : Option Trap :=
  if a < 0 || (t.sramTop : Int) < a + len then some ⟨0x0C, level, 0⟩
  else if a.toNat % 64 ≠ 0 then some ⟨0x06, a.toNat, 0⟩
  else (eccBad t false (wordsOf a.toNat len)).map (fun w => ⟨0x07, w, 0⟩)

/-! ### One action of the nest -/

inductive PStep where
  | stuck (t : Tile)
  | trap (t : Trap)
  | go (t : Tile) (corrected : Nat)

def setNest (t : Tile) (n : Nest) : Tile := { t with seq := { t.seq with nest := n } }

/-- `n` bytes of a channel stream: those left over, else one more entry popped (R171). DESIGN CHOICE (log 64): bytes left
over belong to the operand's role; a next PLANE_RUN whose header names another channel for the role takes them first. -/
inductive Fill where
  | ready (data rest : List Byte)
  | popped (t : Tile) (left : List Byte) (corrected : Nat)
  | stuck (t : Tile)
  | trap (t : Trap)

def fillFrom (t : Tile) (q : Nat) (left : List Byte) (n : Nat) : Fill :=
  if n ≤ left.length then .ready (left.take n) (left.drop n)
  else match popEntry t q with
    | .wait => .stuck (t.awaitPop q)
    | .trap tr => .trap tr
    | .ok (bs, t2, c) => .popped t2 (left ++ bs) c

/-- Error-code keys of the accumulator words, and of the words of latch buffer `b`, scale bytes behind the element bytes
(R104). -/
def accKey (entry : Nat) : Nat := 0x8000 + entry / 2
def latchKey (b off : Nat) : Nat := 0xA000 + 0x200 * b + off / 8

/-- A latch buffer holds the weights of the next unit to be loaded. -/
def latched (t : Tile) (data scale : List Byte) : Tile :=
  let n := t.seq.nest
  let b := n.loaded % 2
  let t := { t with bad := tclear t.bad (latchKey b 0) (latchKey b 0x1000) }
  let n := { n with loaded := n.loaded + 1 }
  setNest t (if b = 0 then { n with latch0 := ⟨data, scale⟩ } else { n with latch1 := ⟨data, scale⟩ })

/-- The latch takes a unit's weights from channels (R171). -/
def latchFromQueue (t : Tile) : PStep :=
  let l := t.left
  let f := t.planeFmt
  match fillFrom t (nhChan t 3 0) l.wgt (fmtLatch f) with
  | .stuck t => .stuck t
  | .trap tr => .trap tr
  | .popped t2 left c => .go { t2 with left := { l with wgt := left } } c
  | .ready data rest =>
    if !fmtIsLN f then .go (latched { t with left := { l with wgt := rest } } data []) 0
    else match fillFrom t (nhChan t 3 4) l.wgtS (fmtLanes f) with
      | .stuck t => .stuck t
      | .trap tr => .trap tr
      | .popped t2 left c => .go { t2 with left := { l with wgtS := left } } c
      | .ready sc srest => .go (latched { t with left := { l with wgt := rest, wgtS := srest } } data sc) 0

/-- The latch takes a unit's weights from data SRAM (R169). -/
def latchFromSram (t : Tile) (col : Nat) (ls : List Level) : PStep :=
  let u := t.seq.nest.loaded
  let f := t.planeFmt
  let a := wAddr t col ls u
  let lv := lastAdvanced ls u 0
  match nestTrapRun t a (fmtLatch f) lv with
  | some tr => .trap tr
  | none =>
    let r := sramRead t a.toNat (fmtLatch f)
    if !fmtIsLN f then .go (latched r.2.1 r.1 []) r.2.2
    else
      let b := wScaleAddr t col ls u
      let len := fmtLanes f
      if b < 0 || (t.sramTop : Int) < b + len then .trap ⟨0x0C, lv, 0⟩
      else if b.toNat / 64 ≠ (b.toNat + len - 1) / 64 then .trap ⟨0x06, b.toNat, 0⟩
      else match sramTrap t false b len with
        | some tr => .trap tr
        | none =>
          let rs := sramRead r.2.1 b.toNat len
          .go (latched rs.2.1 r.1 rs.1) (r.2.2 + rs.2.2)

/-- Whether the latch has a buffer free for another load: the idle one (R91). -/
def latchFree (t : Tile) (units : Nat) : Bool :=
  let n := t.seq.nest
  n.loaded < units && n.stage < 3 && n.loaded < n.unit + (if n.stage = 0 then 1 else 2)

/-- The load of the next unit's weights, where the idle buffer is free and the rotation has brought them (R91, R169,
R175). -/
def loadStep (t : Tile) (col : Nat) (ls : List Level) : PStep :=
  let n := t.seq.nest
  let r := roundOf t ls n.loaded
  if !latchFree t (boundProd isRed ls * boundProd isWgt ls) then .stuck t
  else if fmtRows t.planeFmt < boundProd isOut ls then .stuck t
  else if ROT_EN t && !(r ≤ n.round || (r = n.round + 1 && n.rotRecv = rotEntries t)) then .stuck t
  else if W_QUEUE t then latchFromQueue t
  else latchFromSram t col ls

/-- Whether the rows of the nest fit into half of the accumulator file, so that a drain overlaps the next WEIGHT iteration,
which uses the other half (R170). -/
def overlaps (t : Tile) (ls : List Level) : Bool := 2 * boundProd isOut ls ≤ fmtRows t.planeFmt

/-- The accumulator entry of a row's lane (R91). DESIGN CHOICE (log 193): entries are numbered row × L + lane, and those of
the second half from 2,048. -/
def accEntry (t : Tile) (half row lane : Nat) : Nat := 2048 * half + row * fmtLanes t.planeFmt + lane

/-- The half of the accumulator file of the WEIGHT iteration that begins: the other one after each iteration whose drain
overlaps the next, the first one at the beginning of a nest. -/
def nextHalf (t : Tile) (ls : List Level) : Nat :=
  if overlaps t ls && t.seq.nest.unit ≠ 0 then 1 - t.seq.half else 0

/-- The plane swaps to the buffer of its unit and accumulates from row 0; the first unit of a WEIGHT iteration starts from
+0, unless it continues an accumulation that the previous PLANE_RUN left open (R102, R168). -/
def swapLatch (ls : List Level) (t : Tile) : Tile :=
  let n := t.seq.nest
  let reds := boundProd isRed ls
  let rows := boundProd isOut ls
  let first := n.unit % reds = 0 && (ACC_BEGIN t || n.unit / reds ≠ 0 || !t.seq.accOpen)
  let h := nextHalf t ls
  let lo := accEntry t h 0 0
  let hi := accEntry t h rows 0
  let t := if first then
      { t with acc := tclear t.acc lo hi, bad := tclear t.bad (accKey lo) (accKey hi), seq := { t.seq with half := h } }
    else t
  setNest t { n with stage := 1, row := 0 }

/-- The active latch buffer. -/
def activeLatch (n : Nest) : LatchBuf := if n.unit % 2 = 0 then n.latch0 else n.latch1

/-- Row `n` takes the dot products of an activation group with every lane (R91, R100). -/
def accumulateRow (t : Tile) (act : List Byte) (aScale : Nat) : Tab Word :=
  let f := t.planeFmt
  let n := t.seq.nest
  let w := activeLatch n
  let g := fmtGroup f
  (List.range (fmtLanes f)).foldl (fun m l =>
    let e := accEntry t t.seq.half n.row l
    let dot := groupDot f (leNat act) aScale (leNat ((w.data.drop (l * g)).take g))
      (leNat ((w.scale.drop l).take 1))
    tput m e (fpAdd (tget m e 0#32) dot) 0#32) t.acc

/-- The accumulator entries of a row. -/
def rowEntries (t : Tile) (half row : Nat) : List Nat := (List.range (fmtLanes t.planeFmt)).map (accEntry t half row)

/-- Offsets of the words of the active latch buffer: element bytes, then scale bytes. -/
def latchWords (t : Tile) : List Nat :=
  let w := activeLatch t.seq.nest
  (List.range ((w.data.length + w.scale.length + 7) / 8)).map (8 * ·)

/-- An uncorrectable word of a row's accumulator entries (R104). -/
def rowEcc (t : Tile) (half row : Nat) : Option Trap :=
  ((rowEntries t half row).find? (fun e => 2 ≤ tget t.bad (accKey e) 0)).map (fun e => ⟨0x07, 0x7F0000 + e, 0⟩)

/-- An uncorrectable word of the active latch buffer or of the row's accumulator entries (R104). -/
def planeEcc (t : Tile) : Option Trap :=
  match (latchWords t).find? (fun o => 2 ≤ tget t.bad (latchKey (t.seq.nest.unit % 2) o) 0) with
  | some o => some ⟨0x07, 0x7E0000 + o, 0⟩
  | none => rowEcc t t.seq.half t.seq.nest.row

/-- Words of the given keys with one bit in error corrected in place (R104). -/
def fixWords (ks : List Nat) (t : Tile) : Tile :=
  { t with bad := (ks.filter (fun k => tget t.bad k 0 = 1)).foldl (fun m k => tput m k 0 0) t.bad }

/-- A row's accumulator words corrected in place as the plane reads them, and the active latch buffer's too. -/
def fixRow (t : Tile) (half row : Nat) : Tile := fixWords ((rowEntries t half row).map accKey) t
def fixPlane (t : Tile) : Tile :=
  fixRow (fixWords ((latchWords t).map (latchKey (t.seq.nest.unit % 2))) t) t.seq.half t.seq.nest.row

/-- Whether the rows of the present unit leave the plane: it is the last of its WEIGHT iteration, and ACC_END is set or
another iteration follows (R168). -/
def rowsLeave (t : Tile) (ls : List Level) : Bool :=
  let u := t.seq.nest.unit + 1
  u % boundProd isRed ls = 0 && (ACC_END t || u ≠ boundProd isRed ls * boundProd isWgt ls)

/-- The nest goes on to the next unit, or to its end. -/
def nextUnit (ls : List Level) (t : Tile) : Tile :=
  let n := t.seq.nest
  if n.unit + 1 = boundProd isRed ls * boundProd isWgt ls then setNest t { n with stage := 3, row := 0 }
  else setNest t { n with unit := n.unit + 1, stage := 0, row := 0 }

/-- A row has been accumulated. -/
def afterRow (ls : List Level) (t : Tile) : Tile :=
  let n := t.seq.nest
  if n.row + 1 < boundProd isOut ls then setNest t { n with row := n.row + 1 }
  else if rowsLeave t ls then setNest t { n with stage := 2, row := 0 }
  else nextUnit ls t

/-- One activation group of the unit (R168, R171). -/
def actStep (t : Tile) (col : Nat) (ls : List Level) : PStep :=
  let n := t.seq.nest
  let f := t.planeFmt
  let g := fmtGroup f
  let l := t.left
  let finish := fun (t : Tile) (act : List Byte) (sc : Nat) => afterRow ls { fixPlane t with acc := accumulateRow t act sc }
  match planeEcc t with
  | some tr => .trap tr
  | none =>
    if A_QUEUE t then
      match fillFrom t (nhChan t 2 0) l.act g with
      | .stuck t => .stuck t
      | .trap tr => .trap tr
      | .popped t2 left c => .go { t2 with left := { l with act := left } } c
      | .ready data rest =>
        if !fmtIsLN f then .go (finish { t with left := { l with act := rest } } data 0) 0
        else match fillFrom t (nhChan t 2 4) l.actS 1 with
          | .stuck t => .stuck t
          | .trap tr => .trap tr
          | .popped t2 left c => .go { t2 with left := { l with actS := left } } c
          | .ready sc srest => .go (finish { t with left := { l with act := rest, actS := srest } } data (leNat sc)) 0
    else
      let a := aAddr t col ls n.unit n.row
      let lv := lastAdvanced ls n.unit n.row
      match nestTrap t false a g 1 lv with
      | some tr => .trap tr
      | none =>
        let r := sramRead t a.toNat g
        if !fmtIsLN f then .go (finish r.2.1 r.1 0) r.2.2
        else
          let b := aScaleAddr t col ls n.unit n.row
          match nestTrap t false b 1 1 lv with
          | some tr => .trap tr
          | none =>
            let rs := sramRead r.2.1 b.toNat 1
            .go (finish rs.2.1 r.1 (leNat rs.1)) (r.2.2 + rs.2.2)

/-- The L lanes of a row as bytes, lane 0 first (R170). -/
def rowBytes (t : Tile) (half row : Nat) : List Byte :=
  wordBytes ((rowEntries t half row).map (fun e => tget t.acc e 0#32))

/-- An entry of the drain's stream is pushed to O_Q, its bytes taken from those not yet pushed (R170). -/
def pushDrain (t : Tile) (ok : Nat → Bool) : PStep :=
  let o := t.left.out
  match pushEntry ok t (nhChan t 4 0) ((o ++ zeros 64).take 64) with
  | .wait => .stuck (t.awaitPush (nhChan t 4 0))
  | .trap tr => .trap tr
  | .ok t2 => .go { t2 with left := { t2.left with out := o.drop 64 } } 0

/-- The drain after one more row: the next row, or its end, at which the iteration that waits for it goes on. -/
def afterDrained (ls : List Level) (d : Drain) (t : Tile) : Tile :=
  let n := t.seq.nest
  if d.row + 1 < boundProd isOut ls then setNest t { n with drain := some { d with row := d.row + 1 } }
  else
    let t := setNest t { n with drain := none }
    if n.stage = 2 && n.unit = d.unit then nextUnit ls t else t

/-- One row of a drain (R170), its entries read through their error code (R104). -/
def drainRow (t : Tile) (col : Nat) (ls : List Level) (d : Drain) : PStep :=
  match rowEcc t d.half d.row with
  | some tr => .trap tr
  | none =>
    let t := fixRow t d.half d.row
    let data := rowBytes t d.half d.row
    if O_QUEUE t then .go (afterDrained ls d { t with left := { t.left with out := t.left.out ++ data } }) 0
    else
      let a := oAddr t col ls d.unit d.row
      match nestTrap t true a data.length data.length (lastAdvanced ls d.unit d.row) with
      | some tr => .trap tr
      | none =>
        let r := sramWrite t a.toNat data
        .go (afterDrained ls d r.1) r.2

/-- Whether drain bytes still have to be pushed once every unit is done: a whole entry, or with ACC_END set a partial one,
filled with zero (R170). -/
def drainOwes (t : Tile) : Bool := 64 ≤ t.left.out.length || (ACC_END t && O_QUEUE t && t.left.out ≠ [])

/-- The drain that is under way, or that the present iteration may begin: its first rows leave while its last unit still
accumulates (R105, R170). -/
def presentDrain (t : Tile) (ls : List Level) : Option Drain :=
  let n := t.seq.nest
  n.drain.or (if (n.stage = 1 || n.stage = 2) && rowsLeave t ls then some { unit := n.unit, half := t.seq.half } else none)

/-- The next step of the drain: a whole entry of its stream goes first, then a row that has had its last update. -/
def drainStep (t : Tile) (col : Nat) (ls : List Level) (ok : Nat → Bool) : PStep :=
  let n := t.seq.nest
  if O_QUEUE t && 64 ≤ t.left.out.length then pushDrain t ok
  else match presentDrain t ls with
    | some d => if d.unit ≠ n.unit || n.stage ≠ 1 || d.row < n.row then drainRow t col ls d else .stuck t
    | none => if n.stage = 3 && drainOwes t then pushDrain t ok else .stuck t

/-- The computing half of the nest: one swap of the latch or activation group. An iteration whose drain overlaps the next one
goes on as soon as its own drain has begun (R170). DESIGN CHOICE (log 157): a
nest with a BOUND of 0 ends with nothing done, and more rows than the accumulator has raise DESC_BOUND with DETAIL 0.
Check 7 keeps both out of a hull that it is made of; the manual names no outcome where it is not. -/
def computeStep (t : Tile) (col : Nat) (ls : List Level) : PStep :=
  let n := t.seq.nest
  if boundProd (fun _ => true) ls = 0 && n.stage = 0 then .go (setNest t { n with stage := 3 }) 0
  else if n.stage = 0 then
    if fmtRows t.planeFmt < boundProd isOut ls then .trap ⟨0x0C, 0, 0⟩
    else if n.unit < n.loaded then .go (swapLatch ls t) 0 else .stuck t
  else if n.stage = 1 then actStep t col ls
  else if n.stage = 2 && overlaps t ls && n.drain.all (fun d => d.unit = n.unit) then
    .go (nextUnit ls (setNest t { n with drain := presentDrain t ls })) 0
  else .stuck t

/-- The rotation's transfers: the round moves on, one entry is received, or one is sent (R175). -/
def rotateStep (t : Tile) (ls : List Level) (ok : Nat → Bool) : PStep :=
  let n := t.seq.nest
  let m := rotEntries t
  let rounds := roundOf t ls (boundProd isRed ls * boundProd isWgt ls - 1) + 1
  let loadsDone := (n.round + 1) * max 1 (perRound t ls) ≤ n.loaded
  if n.rotSent = m && n.rotRecv = m then
    if n.round + 1 < rounds && loadsDone then
      .go (setNest t { n with round := n.round + 1, rotSent := 0, rotRecv := 0 }) 0
    else .stuck t
  else
    let send := fun (_ : Unit) =>
      if n.rotSent < m then
        let a := rotBuf t (n.round % 2) + 64 * n.rotSent
        match nestTrapRun t a 64 (lastAdvanced ls n.unit 0) with
        | some tr => PStep.trap tr
        | none =>
          let r := sramRead t a 64
          match pushEntry ok r.2.1 (nhChan t 5 4) r.1 with
          | .wait => .stuck (t.awaitPush (nhChan t 5 4))
          | .trap tr => .trap tr
          | .ok t2 => .go (setNest t2 { n with rotSent := n.rotSent + 1 }) r.2.2
      else .stuck t
    if n.rotRecv < m then
      let a := rotBuf t ((n.round + 1) % 2) + 64 * n.rotRecv
      match nestTrapRun t a 64 (lastAdvanced ls n.unit 0) with
      | some tr => .trap tr
      | none => match popEntry t (nhChan t 5 0) with
        | .trap tr => .trap tr
        | .ok (bs, t2, c) =>
          let r := sramWrite t2 a bs
          .go (setNest r.1 { n with rotRecv := n.rotRecv + 1 }) (c + r.2)
        | .wait => match send () with
          | .stuck t2 => .stuck (t2.awaitPop (nhChan t 5 0))
          | r => r
    else send ()

/-- Whether every unit is done, every drain byte pushed and every transfer ended. -/
def nestDone (t : Tile) (ls : List Level) : Bool :=
  let n := t.seq.nest
  let m := rotEntries t
  let rounds := roundOf t ls (boundProd isRed ls * boundProd isWgt ls - 1) + 1
  n.stage = 3 && n.drain.isNone && !drainOwes t
    && (!ROT_EN t || boundProd (fun _ => true) ls = 0 || (n.round + 1 = rounds && n.rotSent = m && n.rotRecv = m))

/-- The first of two steps that is not stuck; what the first one waits for is kept. -/
def orElse (r : PStep) (next : Tile → PStep) : PStep := match r with | .stuck t => next t | r => r

/-- Whether a drain holds rows of an iteration that has ended. -/
def drainFirst (t : Tile) : Bool :=
  let n := t.seq.nest
  n.stage ≠ 1 || n.drain.any (fun d => d.unit ≠ n.unit)

/-- One action: the load of the idle latch buffer as soon as it is free, else a row of an iteration that has ended, else one
of the plane, else a row that the present iteration has finished, else a transfer of the rotation. DESIGN CHOICE (log 158):
R91, R169 and R170 let loads and drains overlap the plane's work, and the banks decide how they fall in time; here nothing
that could go on as R168 writes it waits for what comes after it. -/
def planeAction (t : Tile) (col : Nat) (ls : List Level) (ok : Nat → Bool) : PStep :=
  orElse (loadStep t col ls) fun t =>
  orElse (if drainFirst t then drainStep t col ls ok else .stuck t) fun t =>
  orElse (computeStep t col ls) fun t =>
  orElse (drainStep t col ls ok) fun t =>
  if ROT_EN t then rotateStep t ls ok else .stuck t

/-- The nest is left: an accumulation is open where ACC_END is clear (R164). The bytes left over stay in the tile for the
next PLANE_RUN (R171). -/
def leaveNest (t : Tile) : Tile := advance { t with seq := { t.seq with accOpen := !ACC_END t, nest := {} } }

/-- What a run of the nest ends in: the tile, the corrected words, and a fault if there is one. -/
structure PRun where
  tile : Tile
  corrected : Nat
  trap : Option Trap

/-- The nest run as far as its channels allow, at most `fuel` actions. -/
def planeLoop (col : Nat) (ls : List Level) (ok : Nat → Bool) : Nat → Tile → Nat → PRun
  | 0, t, c => ⟨t, c, none⟩
  | fuel + 1, t, c =>
    if nestDone t ls then ⟨leaveNest t, c, none⟩
    else match planeAction t col ls ok with
      | .stuck t2 => ⟨t2, c, none⟩
      | .trap tr => ⟨t, c, some tr⟩
      | .go t2 n => planeLoop col ls ok fuel t2 (c + n)

/-- Actions that no nest exceeds: its groups, loads, drains, pops and transfers. -/
def planeFuel (t : Tile) (ls : List Level) : Nat :=
  let units := boundProd isRed ls * boundProd isWgt ls
  let rows := boundProd isOut ls
  units * (rows * 16 + 40) + units * (2 * rotEntries t + 4) + 64

/-- PLANE_RUN (R162, R168). A pop of the nest is a progress event (R71). `op.waits` are the waits of its SRAM accesses
(R49). -/
def execPlaneRun (op : BankedOp) (s : State) : Result :=
  let tile := op.tile
  let t := s.tile tile
  let p := podOf tile
  let i := t.seq.index
  let w := currentWord t
  if !issuing tile s then .next s
  else if i < t.opCount && !wordValid i t.seq.reps.length t.opCount (s.rd (STR_TABLE_LEN p)) w then
    .next (raiseFault tile ⟨0x0B, 0x300 + 8 * i, 0⟩ none s)
  else if wOp w ≠ OP_PLANE_RUN then .next s
  else
    let ls := nestLevels t
    let t0 := { t with seq := { t.seq with phase := 2 }, waitPop := [], waitPush := [] }
    let r := planeLoop (localOf tile % 16) ls (routeOk s p) (planeFuel t ls) t0 0
    let s := bankWaits tile op.waits (countCorrected p r.corrected (s.setTile tile r.tile))
    let popped := (List.range 16).any (fun q => (r.tile.chan q).owed ≠ (t.chan q).owed)
    let s := if popped then progress p (owesAnew p s) else s
    match r.trap with
    | some tr => .next (raiseFault tile tr none s)
    | none => .next s

end Sys2Proof.Machine
end

