-- ==== Sys2Proof/Machine/Link.lean ====
section
/-! DEFINITION. Packets, their streams and the flits of a link: what a flit carries and its 544 bytes, the egress of a port,
and what is sent on the links and on the twin link (R365–R368, R376, R386). -/

namespace Sys2Proof

/-- The bytes of a packet: the manual gives its size and what it carries (R376), and not the places within it. -/
opaque Config.packetCode : Machine.Packet → List Byte

/-- The bytes of a body record other than a granule (R386): a table index and its bytes, in a form that the manual leaves
open. -/
opaque Config.recordCode : MirrorRec → List Byte

end Sys2Proof

namespace Sys2Proof.Machine

/-! ### Packets (R367, R376) -/

/-- The header of a REQ or RSP packet; none of a message of one link (R367, R376). -/
def packetHdr : Packet → Option PktHdr
  | .request h _ _ _ => some h
  | .queueOpen h _ _ _ => some h
  | .queueEntry h _ _ _ _ => some h
  | .queueCredit h _ _ _ _ => some h
  | .creditForward h _ _ _ => some h
  | .response h _ => some h
  | .queueGrant h _ => some h
  | .queueAck h => some h
  | _ => none

/-- The device that a packet is bound for; none of a message for the link's other end. -/
def packetDst : Packet → Option Nat
  | .faultNotice d _ => some d
  | .boundaryReport d _ _ => some d
  | .startNotice d _ _ => some d
  | x => (packetHdr x).map (·.dst)

/-- Whether a packet is a response (R376). -/
def isRsp : Packet → Bool
  | .response _ _ => true
  | .queueGrant _ _ => true
  | .queueAck _ => true
  | _ => false

/-- The class of a packet: the twin link's traffic is class 0 (R258, R264, R387); another device's packet keeps the class
that its flits carry (R368). -/
def packetClass (o : Packet) : Nat :=
  match packetHdr o with
  | some h => h.cls
  | none => match o with | .twin _ => 0 | _ => 2

/-- Virtual channel of a packet (R365, R367): C0 between management complexes, else REQ or RSP at its hop number. -/
def packetVc (o : Packet) : Nat :=
  match packetHdr o with
  | some h => (if isRsp o then 4 else 1) + h.hop
  | none => 0

/-- Hop number of a virtual channel. -/
def vcHop (v : Nat) : Nat := if v = 0 then 0 else (v - 1) % 3

/-! ### Epochs as bytes (R386) -/

/-- Bytes of a body record: a global offset and 64 B, or a table index and its bytes (R386). -/
def recBytes : MirrorRec → Nat
  | .granule _ d => 8 + d.length
  | .output _ _ d => 16 + d.length
  | .completion _ _ _ => 8 + 32
  | .hull _ _ _ _ hs ss => 8 + 64 + 8 * (hs.length + ss.length)
  | _ => 8 + 64

def bodyBytes (body : List MirrorRec) : Nat := body.foldl (fun n r => n + recBytes r) 0

/-- The 32 header bytes of an epoch. -/
def epochHead (h : EpochHdr) : List Byte :=
  leBytes (packBytes [(0, 8, h.epoch), (8, 1, h.kind), (9, 1, h.hull), (12, 4, h.records), (16, 8, h.step.toNat), (24, 8, h.bytes)]) 32

/-- The bytes of a body record. -/
def recCode : MirrorRec → List Byte
  | .granule a d => leBytes a.toNat 8 ++ d
  | r => Config.recordCode r

/-- The CRC-64 of an epoch, over header and body. -/
def epochCrc (h : EpochHdr) (body : List MirrorRec) : Nat := crc64 (epochHead h ++ body.flatMap recCode)

/-- Bytes of a packet (R376, R386). A message that the manual gives no size counts as 32 B. -/
def packetBytes : Packet → Nat
  | .request _ _ _ (.write d) => 32 + d.length
  | .response _ r => 32 + r.data.length
  | .queueEntry _ _ _ _ _ => 96
  | .twin (.record r) => recBytes r
  | .twin (.marker _ _ _) => 24
  | .twin (.saveBlocks _ bs) => bs.foldl (fun n b => n + 8 + b.2.length) 8
  | _ => 32

/-- Whether a packet is mirror traffic: an epoch's header, record or marker. -/
def isMirror : Packet → Bool
  | .twin (.header _) => true
  | .twin (.record _) => true
  | .twin (.marker _ _ _) => true
  | _ => false

/-! ### Streams and flits (R365) -/

/-- The packets of a virtual channel that wait at a port's egress. -/
def streamOf (t : PortState) (v : Nat) : List (Option Nat × Packet) := t.egress.filter (fun x => packetVc x.2 = v)

/-- What a flit with `room` bytes left takes of a stream, from byte `off` of its first packet. -/
def flitParts : Nat → Nat → List Packet → List FlitPart
  | _, _, [] => []
  | room, off, p :: ps =>
    let n := packetBytes p - off
    if n < room then ⟨p, off, n⟩ :: flitParts (room - n) 0 ps else [⟨p, off, min n room⟩]

/-- What the next flit of a virtual channel carries. -/
def nextParts (t : PortState) (v : Nat) : List FlitPart := flitParts 512 (tget t.sent v 0) ((streamOf t v).map (·.2))

/-- Whether a part is the last of its packet. -/
def partDone (x : FlitPart) : Bool := x.off + x.len = packetBytes x.pkt

/-- An egress without the first `n` packets of a virtual channel. -/
def dropSent (v : Nat) : Nat → List (Option Nat × Packet) → List (Option Nat × Packet)
  | _, [] => []
  | n, x :: xs => if packetVc x.2 = v && 0 < n then dropSent v (n - 1) xs else x :: dropSent v n xs

/-- The egress of a port without the packets of which a part has left. -/
def unbegun (t : PortState) : List (Option Nat × Packet) :=
  (List.range 7).foldl (fun e v => if tget t.sent v 0 = 0 then e else dropSent v 1 e) t.egress

/-- The payload of a flit: its parts back to back, and the NULL packet. -/
def flitPayload (f : LinkFlit) : List Byte :=
  (f.parts.flatMap (fun x => ((Config.packetCode x.pkt ++ zeros (packetBytes x.pkt)).drop x.off).take x.len) ++ zeros 512).take 512

/-- The 544 bytes of a flit, by R365. -/
def flitRaw (f : LinkFlit) : BitVec 4352 :=
  let head := packBytes ([(0, 2, f.seq % 4096), (2, 2, f.ack % 4096 + b2n f.nak * 4096), (4, 1, f.vc % 8), (5, 1, f.cls % 4),
    (14, 2, match f.time with | some t => Config.timeCode t % 65536 | none => 0)]
    ++ (List.range 7).map (fun v => (6 + v, 1, f.credits.getD v 0 % 256)))
  let body := leBytes head 16 ++ flitPayload f ++ zeros 8
  BitVec.ofNat 4352 (leNat (body ++ leBytes (crc64 body) 8))

/-! ### The egress of a port (R366, R367) -/

/-- Whether a port carries traffic (R362). -/
def portUp (s : State) (p : Nat) : Bool := s.rd (PORT_STATE p) = 5 || s.rd (PORT_STATE p) = 6

/-- Whether the peer has a place for a flit of a virtual channel: one of the channel's own 32, or of the 288 that all share
(R367). -/
def placeFree (t : PortState) (v : Nat) : Bool :=
  tget t.used v 0 < 32 || ((List.range 7).map (fun k => tget t.used k 0 - 32)).foldl (· + ·) 0 < 288

/-- The credits that a port returns in its next flit. -/
def creditsOwed (t : PortState) : List Nat := (List.range 7).map (fun v => min 255 (tget t.owed v 0))

/-- What it owes after that. -/
def owedAfter (t : PortState) : Tab Nat :=
  (List.range 7).foldl (fun o v => tput o v (tget o v 0 - min 255 (tget o v 0)) 0) t.owed

/-- A packet joins a port's egress. -/
def sendOn (p : Nat) (hull : Option Nat) (x : Packet) (s : State) : State :=
  let t := s.port p
  s.setPort p { t with egress := t.egress ++ [(hull, x)] }

/-- Mirror bytes that wait at a port, what has left of the first packet apart. -/
def lagOf (t : PortState) : Nat :=
  let q := streamOf t 0
  ((q.filter (fun x => isMirror x.2)).foldl (fun n x => n + packetBytes x.2) 0)
    - (match q with | x :: _ => if isMirror x.2 then tget t.sent 0 0 else 0 | [] => 0)

/-- TWIN_LAG_BYTES: mirror bytes queued and unsent (R395). -/
def refreshLag (s : State) : State := s.wr64 TWIN_LAG (lagOf (s.port 16) + lagOf (s.port 17))

/-- The twin port that the twin's messages take, so that they keep their order (log 218): T0, or T1 where only that is up. -/
def twinPort (s : State) : Nat := if portUp s 17 && !portUp s 16 then 17 else 16

/-- A message of the twin link joins its egress, in class 0 (R387). -/
def sendTwin (m : TwinMsg) (s : State) : State := refreshLag (sendOn (twinPort s) none (.twin m) s)

/-- A C0 message goes out on every fabric link. -/
def flood (x : Packet) (s : State) : State :=
  ((List.range 16).filter (portUp s)).foldl (fun s p => sendOn p none x s) s

end Sys2Proof.Machine
end

