-- ==== Sys2Proof/Machine/Mesh.lean ====
section
/-! DEFINITION. Queue entries between tiles: channels to the mesh and to the pod hub, routers, arrival of data and credit
flits (R54–R69), the hub endpoints and remote routes (R180, R377). -/

namespace Sys2Proof.Machine

/-! ### Fabric packets of this device (R376) -/

def State.route (s : State) (d : Nat) : Route := tget s.fab.routes d {}

/-- Whether a device can be reached: a committed ID of our own, and a path (R372, R375, R462). -/
def reachable (s : State) (d : Nat) : Bool :=
  let r := s.route d
  s.rdB FAB_VALID && (r.state = 1 || r.state = 2 || (r.state = 5 && r.links ≠ 0))

/-- The header of a packet to `dst` (R376). -/
def pktHdr (s : State) (tag dst : Nat) : PktHdr := { tag, src := s.ownId, slice := s.rd FAB_SLICE, dst }

/-- A packet joins the egress of its path's first port (R258), or is held while its path changes (R373). One to a device that
no path reaches goes nowhere (R372). -/
def sendPacket (dst : Nat) (hull : Option Nat) (o : Packet) (s : State) : State :=
  let r := s.route dst
  if !reachable s dst then s
  else if r.held then { s with fab := { s.fab with heldOut := s.fab.heldOut ++ [(dst, hull, o)] } }
  else sendOn r.port hull o s

/-- The first tier or fabric error of a hull's step is kept for its end (R225, R281). -/
def stepError (h status : Nat) (addr : DWord) (s : State) : State :=
  let hl := s.hull h
  match hl.step with
  | some st => if st.error.isSome then s else s.setHull h { hl with step := some { st with error := some (status, addr) } }
  | none => s

/-- A request whose destination no path reaches ends at issue (R372, R462): what its hull's step, and for an entry its tile,
have of that. Requests of the tiers' own requesters are tested before they come here. -/
def unreached (dst : Nat) (use : ReqUse) (s : State) : State :=
  let fails := fun (h : Option Nat) (s : State) => match h with
    | some h => stepError h ST_FABRIC_UNREACHABLE (BitVec.ofNat 64 dst) s
    | none => s
  match use with
  | .queueOpen pod _ => fails (s.podOwner pod) s
  | .queueEntry pod _ tile =>
    let k := pod * 160 + tile % 160
    let t := s.tile k
    fails (s.podOwner pod) (s.setTile k { t with remoteOut := t.remoteOut - 1 })
  | .dispatch hull => fails (some hull) s
  | _ => s

/-- A REQ packet is issued under a fresh tag, and its response is awaited (R376); one that no path reaches ends at once. -/
def sendRequest (dst : Nat) (hull : Option Nat) (use : ReqUse) (mk : PktHdr → Packet) (s : State) : State :=
  if !reachable s dst then unreached dst use s
  else
    let tag := s.fab.nextTag
    let o := mk (pktHdr s tag dst)
    let addr : DWord := match o with | .request _ _ g _ => g | _ => 0
    let s := { s with fab := { s.fab with
      nextTag := tag + 1, pending := s.fab.pending ++ [({ tag, dst, use, addr } : PendingReq)] } }
    sendPacket dst hull o s

/-- A port enters a state (R362), with what every change of state records. Lanes carry traffic in UP and DEGRADED alone. -/
def enterPort (p st : Nat) (s : State) : State :=
  let old := s.rd (PORT_STATE p)
  if old = st then s
  else
    let s := (s.wr (PORT_STATE p) st).raise FAB_STATUS 0
    let s := if st = 5 || st = 6 then s else s.wr (PORT_LANES p) 0
    let s := if st = 7 then s.raise (portBlock p + 4) 2 else s
    let s := if st = 8 || st = 9 then s.raise FAB_STATUS 3 else s
    let s := if st = 2 then s.raise FAB_STATUS 4 else s
    recordEvent 0x0501 none none (payload [(32, 1, p), (33, 1, old), (34, 1, st), (35, 1, s.rd (PORT_LANES p))]) s

/-! ### The pod hub -/

/-- Entries waiting at a hub endpoint. -/
def hubQueue (s : State) (p idx : Nat) : List (Nat × BitVec 512) := tget (s.pod p).hub idx []

/-- HUB_IDLE follows what the hub carries for the pod's tiles: entries at an endpoint or in a riser crossing, descriptors,
a shell load, a scan (R53, R78). -/
def refreshHubIdle (p : Nat) (s : State) : State :=
  let pd := s.pod p
  s.wrB (POD_HUB_IDLE p) (pd.hub = [] && pd.engines.all (fun e => e.2.queue = []) && pd.load.isNone && pd.scan = 0
    && (s.tiles.filter (fun e => podOf e.1 = p)).all (fun e => e.2.riserUp = [] && e.2.riserDown = []))

def setHub (p idx : Nat) (q : List (Nat × BitVec 512)) (s : State) : State :=
  refreshHubIdle p (s.setPod p { s.pod p with hub := tput (s.pod p).hub idx q [] })

/-- `n` credits reach channel `q` of tile `k`. -/
def creditChan (k q n : Nat) (s : State) : State :=
  let t := s.tile k
  let c := t.chan q
  s.setTile k (t.setChan q { c with credits := c.credits + n })

/-- A credit returns to an OUTPUT channel through the riser; while the pod's PLL relocks it waits in the crossing (R55). -/
def riserCredit (key : Nat) (n : Nat) (s : State) : State :=
  let k := key / 16
  if (s.pod (podOf k)).changing then
    let t := s.tile k
    s.setTile k { t with riserDown := t.riserDown ++ [(key % 16, n)] }
  else creditChan k (key % 16) n s

/-- What waits in a tile's riser crossing reaches the tile, in order, as the pod side runs again. -/
def riserResume (k : Nat) (s : State) : State :=
  let l := (s.tile k).riserDown
  l.foldl (fun s x => creditChan k x.1 x.2 s) (s.setTile k { s.tile k with riserDown := [] })

/-- The riser crossings of a pod after a relock. -/
def risersResume (p : Nat) (s : State) : State :=
  refreshHubIdle p (((tkeys s.tiles).filter (fun k => podOf k = p)).foldl (fun s k => riserResume k s) s)

/-- Whether the crossing from the hub to a tile holds its 8 entries (R55). -/
def riserFull (s : State) (k : Nat) : Bool := 8 ≤ (s.tile k).riserDown.length

/-- The oldest entry of an endpoint is consumed: it is given back, and its place returns as a credit (R180), for which the
crossing to its tile must have a place. -/
def hubTake (p idx : Nat) (s : State) : Option (Nat × BitVec 512) × State :=
  match hubQueue s p idx with
  | [] => (none, s)
  | e :: rest => if riserFull s (e.1 / 16) then (none, s) else (some e, riserCredit e.1 1 (setHub p idx rest s))

/-- Device, column, row and channel of remote route `n`. -/
def routeTarget (s : State) (p n : Nat) : Nat × Nat × Nat × Nat :=
  let v := s.rd64 (STR_ROUTE p n)
  (bits v 0 6, bits v 6 8, bits v 14 7, bits v 21 4)

/-- One entry of a remote route goes out where the route is valid and a credit is held (R377 step 2). -/
def routeSendOne (p n : Nat) (s : State) : State :=
  let rc := tget (s.pod p).routes n {}
  if routeOk s p n && rc.granted && 0 < rc.credits then
    match hubTake p (32 + n) s with
    | (some e, s) =>
      let t := routeTarget s p n
      let s := s.setPod p { s.pod p with routes := tput (s.pod p).routes n { rc with credits := rc.credits - 1 } {} }
      sendRequest t.1 (s.podOwner p) (.queueEntry p n (e.1 / 16)) (fun h => .queueEntry h t.2.1 t.2.2.1 t.2.2.2 e.2) s
    | (none, s) => s
  else s

/-- The entries of a remote route go out as far as credits reach: at most its 16 places (R180, R377). -/
def routePump (p n : Nat) (s : State) : State := iterate (routeSendOne p n) 16 s

/-- The first push after VALID is set opens the route (R377 step 1); later ones send what credits allow. A target that cannot be reached is a
fabric error of the hull's step, with its device ID (R38, R462); the next push asks for it again. -/
def routePushed (p n : Nat) (s : State) : State :=
  let rc := tget (s.pod p).routes n {}
  let t := routeTarget s p n
  if rc.opened then routePump p n s
  else if !routeOk s p n then s
  else if !reachable s t.1 then unreached t.1 (.queueOpen p n) s
  else
    let s := s.setPod p { s.pod p with routes := tput (s.pod p).routes n { rc with opened := true } {} }
    sendRequest t.1 (s.podOwner p) (.queueOpen p n) (fun h => .queueOpen h t.2.1 t.2.2.1 t.2.2.2) s

/-- The entry at the head of a tile's riser crossing reaches its hub endpoint where that has one of its 16 places free
(R55, R180); an entry for a remote route goes on (R377). -/
def riserStep (k : Nat) (s : State) : State :=
  let p := podOf k
  let t := s.tile k
  match t.riserUp with
  | [] => s
  | (idx, q, data) :: rest =>
    let hq := hubQueue s p idx
    if 16 ≤ hq.length then s
    else
      let s := setHub p idx (hq ++ [(k * 16 + q, data)]) (s.setTile k { t with riserUp := rest })
      if 32 ≤ idx && idx < 48 then routePushed p (idx - 32) s else s

/-- The riser crossing moves as far as the endpoints take its entries. -/
def riserPump (k : Nat) (s : State) : State := iterate (riserStep k) 8 s

/-! ### Routers' local ports (R55, R59) -/

def PORT_N : Nat := 0
def PORT_S : Nat := 1
def PORT_W : Nat := 2
def PORT_E : Nat := 3
def PORT_L : Nat := 4

/-- Whether the mesh domain of a tile's die is on (R54). -/
def meshOn (s : State) (k : Nat) : Bool := s.rdB (PWR_DOMAIN (80 + podOf k / 20))

/-- The flit at the head of a tile's crossing enters the buffer of its VC at the router's L input: 4 places for VC 0, 2 for
VC 1 (R59). -/
def localStep (k : Nat) (s : State) : State :=
  let t := s.tile k
  match t.toMesh with
  | [] => s
  | f :: rest =>
    let i := PORT_L * 2 + b2n f.credit
    let r := s.router k
    let q := tget r.inputs i []
    if !meshOn s k || (if f.credit then 2 else 4) ≤ q.length then s
    else (s.setTile k { t with toMesh := rest }).setRouter k { r with inputs := tput r.inputs i (q ++ [f]) [] }

/-- The crossing moves as far as the L input takes its flits. -/
def localPump (k : Nat) (s : State) : State := iterate (localStep k) 8 s

/-! ### Channels to the mesh (R66) -/

/-- Whether a tile's queue logic works: its pod is powered and holds a hull. -/
def queuesLive (s : State) (k : Nat) : Bool :=
  let st := s.rd (POD_STATE (podOf k))
  2 ≤ st && st ≤ 4

/-- Whether the pod's hull has faulted. -/
def hullFaulted (s : State) (p : Nat) : Bool :=
  match s.podOwner p with | some h => (s.hull h).fault.isSome | none => false

/-- QUEUE_ENTRY_SEND: an entry leaves an OUTPUT channel against a credit, for the mesh or for a hub endpoint
(R57, R66, R180); a progress event (R71). INJECT_STOP holds back what goes to the mesh (R82). One for a place that the mesh
does not have is not injected: MESH_DEST (R58). -/
def execQueueEntrySend (tile q : Nat) (s : State) : Result :=
  let p := podOf tile
  let t := s.tile tile
  let e := t.chanEntry t.active q
  let c := t.chan q
  if !queuesLive s tile || !podSide s tile || hullFaulted s p || (s.rdB (POD_INJECT_STOP p) && !chHub e)
      || chMode e ≠ MODE_OUTPUT || c.count = 0 || c.credits = 0 then .next s
  else if destBad e then .next (raiseFault tile ⟨0x08, chX e + chY e * 2 ^ 16, q⟩ none s)
  else match readEntry t q with
    | .trap tr => .next (raiseFault tile tr none s)
    | .wait => .next s
    | .ok (bs, t2, n) =>
      let t3 := t2.setChan q { c with head := (c.head + 1) % chDepth e, count := c.count - 1, credits := c.credits - 1 }
      let data := BitVec.ofNat 512 (leNat bs)
      if chHub e then
        let idx := chHubIdx e
        if 8 ≤ t.riserUp.length then .next s
        else
          let remote := 32 ≤ idx && idx < 48
          let t4 := { t3 with riserUp := t3.riserUp ++ [(idx, q, data)]
                              remoteOut := if remote then t3.remoteOut + 1 else t3.remoteOut }
          .next (riserPump tile (refreshHubIdle p (progress p (countCorrected p n (s.setTile tile t4)))))
      else if 8 ≤ t.toMesh.length then .next s
      else
        let f : Flit := { destX := chX e, destY := chY e, destQ := chQ e, credit := false,
                          hull := s.rd (POD_HULL p), payload := data }
        let s := progress p (countCorrected p n (s.setTile tile { t3 with toMesh := t3.toMesh ++ [f] }))
        .next (localPump tile (s.addWrap (POD_MESH_INJ p) 1))

/-- The OUTPUT channel of a hull whose mesh endpoint is channel `q` of tile `k` (R65), as a (tile, channel) pair. -/
def producerOf (s : State) (h k q : Nat) : Option (Nat × Nat) :=
  ((s.hull h).pods.flatMap (fun p => (List.range 160).map (fun l => p * 160 + l))).findSome? (fun k2 =>
    let t := s.tile k2
    ((List.range 16).find? (fun q2 =>
      let e := t.chanEntry t.active q2
      chMode e = MODE_OUTPUT && !chHub e && chX e = tileX k && chY e = tileY k && chQ e = q)).map (fun q2 => (k2, q2)))

/-- CREDIT_RETURN_SEND: the credits that an INPUT channel owes leave at once: as a credit flit to a producer on the mesh,
as a QUEUE_CREDIT packet to one on another device, or to the tile's own riser interface (R57, R66, R179, R377). -/
def execCreditReturnSend (tile q : Nat) (s : State) : Result :=
  let p := podOf tile
  let t := s.tile tile
  let c := t.chan q
  if !queuesLive s tile || !podSide s tile || c.owed = 0 then .next s
  else
    let t2 := t.setChan q { c with owed := 0 }
    match s.podOwner p with
    | none => .next s
    | some h => match producerOf s h tile q with
      | some (k2, q2) =>
        if 8 ≤ t.toMesh.length then .next s
        else
          let f : Flit := { destX := tileX k2, destY := tileY k2, destQ := q2, credit := true, hull := h,
                            payload := BitVec.ofNat 512 c.owed }
          let s := (s.setTile tile { t2 with toMesh := t.toMesh ++ [f] }).addWrap (POD_MESH_INJ p) 1
          .next (localPump tile (refreshInjectStopped p s))
      | none =>
        let key := localOf tile * 16 + q
        let s := refreshInjectStopped p (s.setTile tile t2)
        match (s.pod p).inbound.find? (fun e => e.1 = key) with
        | some (_, v) =>
          .next (sendRequest (v % 64) (some h) .ack (fun hd => .queueCredit hd c.owed (tileX tile) (tileY tile) q) s)
        | none => .next s

/-! ### Routers (R56–R63) -/

/-- Dimension order: along the row to DEST_X, then along the column, then out of L (R58). -/
def routePort (x y : Nat) (f : Flit) : Nat :=
  if f.destX < x then PORT_W else if x < f.destX then PORT_E
  else if f.destY < y then PORT_N else if y < f.destY then PORT_S else PORT_L

/-- Flits waiting at input `i` of the router of tile `k` on VC `vc`. -/
def inputQueue (s : State) (k i vc : Nat) : List Flit := tget (s.router k).inputs (i * 2 + vc) []

/-- The router and input that an output leads to. -/
def downstream (x y out : Nat) : Option (Nat × Nat) :=
  if out = PORT_N then (if 0 < y then some (tileAt x (y - 1), PORT_S) else none)
  else if out = PORT_S then (if y < 79 then some (tileAt x (y + 1), PORT_N) else none)
  else if out = PORT_W then (if 0 < x then some (tileAt (x - 1) y, PORT_E) else none)
  else if out = PORT_E then (if x < 159 then some (tileAt (x + 1) y, PORT_W) else none)
  else none

/-- Buffer places of an input: 4 and 2, or 12 and 4 behind a die bridge (R59, R62). -/
def inputDepth (y out vc : Nat) : Nat :=
  let bridge := (out = PORT_S && y % 20 = 19) || (out = PORT_N && y % 20 = 0)
  if bridge then (if vc = 0 then 12 else 4) else (if vc = 0 then 4 else 2)

/-- Whether an output can take a flit of a VC now: a place downstream, or in the crossing to the tile. -/
def outputCredit (s : State) (x y out vc : Nat) : Bool :=
  if out = PORT_L then (s.tile (tileAt x y)).toTile.length < 8
  else match downstream x y out with
    | some (k, i) => meshOn s k && (tget (s.router k).inputs (i * 2 + vc) []).length < inputDepth y out vc
    | none => false

/-- The inputs in round-robin order after the one served last at this output and VC (R60). DESIGN CHOICE (log 154): before
the first grant the L input counts as served last, so that N is served first; R60 gives the round-robin no start. -/
def inputOrder (s : State) (k out vc : Nat) : List Nat :=
  let last := tget (s.router k).served (out * 2 + vc) 4
  (List.range 5).map (fun i => (last + 1 + i) % 5)

/-- The input whose head flit of `vc` takes the output next; none where no place is free downstream (R60). -/
def candidate (s : State) (x y out vc : Nat) : Option (Nat × Flit) :=
  let k := tileAt x y
  if !outputCredit s x y out vc then none
  else (inputOrder s k out vc).findSome? (fun i =>
    match inputQueue s k i vc with
    | f :: _ => if routePort x y f = out then some (i, f) else none
    | [] => none)

/-- The head flit of an input leaves it; the place at an L input is filled from the tile's crossing. -/
def dropHead (k i vc : Nat) (s : State) : State :=
  let r := s.router k
  let s := s.setRouter k { r with inputs := tput r.inputs (i * 2 + vc) ((tget r.inputs (i * 2 + vc) []).drop 1) [] }
  if i = PORT_L then localPump k s else s

/-- The flit reaches the downstream buffer, or the crossing to the tile. -/
def deliver (x y out vc : Nat) (f : Flit) (s : State) : State :=
  if out = PORT_L then
    let k := tileAt x y
    let t := s.tile k
    s.setTile k { t with toTile := t.toTile ++ [f] }
  else match downstream x y out with
    | some (k, i) =>
      let r := s.router k
      s.setRouter k { r with inputs := tput r.inputs (i * 2 + vc) (tget r.inputs (i * 2 + vc) [] ++ [f]) [] }
    | none => s

/-- The router's memory of its latest grant at an output (R60). -/
def noteServed (x y out vc i : Nat) (s : State) : State :=
  let r := s.router (tileAt x y)
  s.setRouter (tileAt x y) { r with served := tput r.served (out * 2 + vc) i 4, lastVc1 := tput r.lastVc1 out (vc = 1) false }

/-- The VC and input that an output serves in this mesh cycle: VC 1 first, but for the cycle right after one in which VC 1
took the output, while VC 0 waits (R60). DESIGN CHOICE (log 194): a VC 0 flit without downstream credit does not count as
waiting for the output, so that VC 1 may take it in consecutive cycles while such a flit stands there. -/
def outputPick (s : State) (x y out : Nat) (next : Bool) : Option (Nat × Nat × Flit) :=
  let afterVc1 := next && tget (s.router (tileAt x y)).lastVc1 out false
  match candidate s x y out 1, candidate s x y out 0 with
  | some a, some b => if afterVc1 then some (0, b) else some (1, a)
  | some a, none => some (1, a)
  | none, some b => some (0, b)
  | none, none => none

/-- What a router finds in a flit: the bits in error of each 8 B word of the payload and then of the sideband. One in a
word is corrected and counted; more discard the flit and raise LINK_ECC at that router (R63). `i` is the input at which the
flit came in. Answers whether the flit goes on. -/
def checkFlit (k i : Nat) (errs : List Nat) (f : Flit) (s : State) : Bool × State :=
  if errs.any (2 ≤ ·) then (false, raiseFault k ⟨0x0A, i, 0⟩ (some f.hull) s)
  else if errs.contains 1 then (true, (s.raise (POD_FAULT_STATUS (podOf k)) 3).addSat (POD_LINK_CE (podOf k)) 1)
  else (true, s)

/-- MESH_FLIT_FORWARD: the output of router (x, y) takes one flit (R58–R60) and sends it on. `port.next` says that the mesh
cycle follows the one of the output's previous grant. `errors.buffer` is what this router finds as the flit leaves its
buffer, `errors.link` what the router at the other end of the link finds, or this one for the link to its own tile (R63). -/
def execMeshFlitForward (x y : Nat) (port : RouterOutput) (errors : FlitErrors) (s : State) : Result :=
  let k := tileAt x y
  let out := port.out
  if !meshOn s k then .next s
  else match outputPick s x y out port.next with
  | none => .next s
  | some (vc, i, f) =>
    let here := checkFlit k i errors.buffer f (noteServed x y out vc i (dropHead k i vc s))
    let recv := (downstream x y out).getD (k, i)
    if !here.1 then .next here.2
    else
      let there := checkFlit recv.1 recv.2 errors.link f here.2
      .next (if there.1 then deliver x y out vc f there.2 else there.2)

/-! ### Arrival at a tile (R54, R61, R67) -/

/-- The flit at the head of a tile's crossing, taken off the mesh. -/
def ejectFlit (k : Nat) (s : State) : State :=
  let t := s.tile k
  (s.setTile k { t with toTile := t.toTile.drop 1 }).addWrap (POD_MESH_EJ (podOf k)) 1

/-- Why an entry for channel `q` of tile `k` is refused: MODE, then room (R67). -/
def arrivalTrap (t : Tile) (q : Nat) : Option Trap :=
  let e := t.chanEntry t.active q
  if chMode e ≠ MODE_INPUT then some ⟨0x03, 2, q⟩
  else if chDepth e ≤ (t.chan q).count then some ⟨0x01, (t.chan q).count, q⟩
  else none

/-- An entry reaches an INPUT channel, or the arrival faults and the entry is discarded (R67, R74). -/
def acceptEntry (k q : Nat) (data : BitVec 512) (s : State) : State :=
  let t := s.tile k
  match arrivalTrap t q with
  | some tr => raiseFault k tr none s
  | none => s.setTile k (appendEntry t q (leBytes data.toNat 64))

/-- DATA_FLIT_ARRIVE: a data flit reaches its channel, or raises a foreign, unbound or overflow fault (R54, R67, R73). -/
def execDataFlitArrive (tile : Nat) (s : State) : Result :=
  match (s.tile tile).toTile with
  | [] => .next s
  | f :: _ =>
    if f.credit || !podSide s tile then .next s
    else
      let p := podOf tile
      let foreign := s.rd (POD_STATE p) = POD_OFF || s.podOwner p ≠ some f.hull
      let s := ejectFlit tile s
      if foreign then .next (raiseFault tile ⟨0x09, f.hull, f.destQ⟩ (some f.hull) s)
      else .next (acceptEntry tile f.destQ f.payload s)

/-- CREDIT_FLIT_ARRIVE: credits return to an OUTPUT channel, or raise an unbound or overflow fault (R67). -/
def execCreditFlitArrive (tile : Nat) (s : State) : Result :=
  match (s.tile tile).toTile with
  | [] => .next s
  | f :: _ =>
    if !f.credit || !podSide s tile then .next s
    else
      let s := ejectFlit tile s
      let t := s.tile tile
      let e := t.chanEntry t.active f.destQ
      let c := t.chan f.destQ
      let n := bits f.payload.toNat 0 16
      if chMode e ≠ MODE_OUTPUT then .next (raiseFault tile ⟨0x03, 3, f.destQ⟩ (some f.hull) s)
      else if chInit e < c.credits + n then
        .next (raiseFault tile ⟨0x02, c.credits + n, f.destQ⟩ (some f.hull) s)
      else .next (s.setTile tile (t.setChan f.destQ { c with credits := c.credits + n }))

end Sys2Proof.Machine
end

