-- ==== Sys2Proof/Machine/Tier.lean ====
section
/-! DEFINITION. The tiers and tile space as requesters reach them: addresses, permissions, the state of a granule, reads,
writes and atomics with their responses, allocation, and the accesses that wait in a controller (R195–R212, R220–R227,
R463). -/

namespace Sys2Proof.Machine

/-! ### Response codes (R199) -/

def RSP_OK : Nat := 0
def RSP_UNWRITTEN : Nat := 1
def RSP_RANGE : Nat := 2
def RSP_UNMAPPED : Nat := 3
def RSP_DENIED : Nat := 4
def RSP_POD_STATE : Nat := 5
def RSP_READ_ONLY : Nat := 6
def RSP_UNCORRECTABLE : Nat := 7
def RSP_POISONED : Nat := 8
def RSP_LATE : Nat := 9
def RSP_NO_ROOM : Nat := 10

/-- Errors of an access to another device, beside the responses of R199 (R372, R376). -/
def RSP_UNREACHABLE : Nat := 16
def RSP_FABRIC : Nat := 17

/-- The command status of a response (R199), or of a fabric error. -/
def rspStatus (c : Nat) : Nat :=
  if c = 0 then ST_OK else if c = 1 then ST_OK_UNWRITTEN else if c = 2 then ST_ADDR_RANGE
  else if c = 3 then ST_ADDR_UNMAPPED else if c = 4 then ST_ACCESS_DENIED else if c = 5 then ST_POD_STATE
  else if c = 6 then ST_READ_ONLY else if c = 7 then ST_TIER_UNCORRECTABLE else if c = 8 then ST_TIER_POISONED
  else if c = 9 then ST_TIER_LATE else if c = 10 then ST_NO_ROOM
  else if c = 16 then ST_FABRIC_UNREACHABLE else ST_FABRIC_ERROR

/-- Whether a response is an error (R211: UNWRITTEN is not). -/
def rspFails (c : Nat) : Bool := 2 ≤ c

/-! ### Sizes and places -/

def PAGE : Nat := 2 ^ 21
def N_CAPACITY : Nat := 768 * 2 ^ 30
def N_SYSTEM : Nat := 2 ^ 30
def D_HALF : Nat := 2 ^ 40
def D_CAPACITY : Nat := 2 ^ 41
def EXTENT_BYTES : Nat := 8187281408
def F_CAPACITY : Nat := 7084 * EXTENT_BYTES

/-- A global address on this device (R37, R462). -/
def globalAddr (s : State) (space off : Nat) : DWord :=
  BitVec.ofNat 64 (s.ownId * 2 ^ 58 + space * 2 ^ 56 + off)

/-! ### Where F-tier bytes lie (R230, R232) -/

/-- User bytes of a row: 244 chunks of 64 KiB. -/
def ROW : Nat := 244 * 65536

/-- Where user chunk `k` (OFFSET div 64 KiB) lies. -/
structure FtPlace where
  channel : Nat
  extent  : Nat
  slot    : Nat
deriving DecidableEq, Repr

/-- ft_place of a user chunk (R232). -/
def ftPlace (k : Nat) : FtPlace :=
  let r := k / 244
  let j := k % 244
  let g := j % 4
  let i := j / 4
  { channel := 64 * g + (3 * r + 3 + i) % 64, extent := r / 512, slot := r % 512 }

def blkKey (c b : Nat) : Nat := c * 8192 + b

/-- The block that holds extent `e` on channel `c`. -/
def blockOf (s : State) (c e : Nat) : Nat := tget s.flash.extMap (blkKey c e) e

/-- Failed channels of a channel's group of 64 (R246). -/
def failedMates (s : State) (c : Nat) : List Nat :=
  ((List.range 64).map (c / 64 * 64 + ·)).filter (fun x => x ≠ c && s.rdB (FT_FAILED x))

/-- Whether a 4 KiB unit of F-tier space (OFFSET div 4,096) is lost to both codes: a read of it has found a second symbol in
error, or its channel has failed and so has another of the group (R236, R246). -/
def unitLost (s : State) (u : Nat) : Bool :=
  let c := (ftPlace (u / 16)).channel
  tget s.flash.lost u false || (s.rdB (FT_FAILED c) && failedMates s c ≠ [])

/-- An UNCORRECTABLE F-tier read (R236, R237): UE, its count, FT_LAST_UE and an FT_UE event that names the first failing
unit, at an OFFSET. -/
def noteFtUe (off : Nat) (s : State) : State :=
  let p := ftPlace (off / 65536)
  let a := (globalAddr s 2 off).toNat
  let s := ((s.raise FT_STATUS 6).addSat 0x22002C 1).wr64 0x220038 a
  recordEvent 0x0301 none none (payload [(32, 8, a), (40, 1, p.channel), (42, 2, blockOf s p.channel p.extent)]) s

/-! ### Sizes and arbiters of the DRAM tiers -/

/-- Start of the scale plane within a copy (R208). -/
def scaleOff (t : Tensor) : Nat := roundUp t.elem 64

/-- Bytes that a copy occupies (R208). -/
def copySize (t : Tensor) : Nat := max PAGE (roundUp (scaleOff t + t.scale) PAGE)

/-- The metered and blocked unit of a DRAM OFFSET: its stack, or its half (R196, R197). -/
def unitOf (dTier : Bool) (off : Nat) : Nat := if dTier then off / D_HALF else off / 256 % 12

/-- The arbiter of a DRAM OFFSET: one per pseudo-channel, numbered stack × 64 + channel × 2 + pseudo-channel, or one per
D-tier channel (R196, R197, R258). -/
def arbiterOf (dTier : Bool) (off : Nat) : Nat :=
  if dTier then 32 * (off / D_HALF) + off % D_HALF / 256 % 32
  else
    let u := off / 256
    let w := u / 12
    (u % 12) * 64 + (w % 32) * 2 + w / 32 % 2

def gDevice (g : DWord) : Nat := bits g.toNat 58 6
def gSpace (g : DWord) : Nat := bits g.toNat 56 2
def gOffset (g : DWord) : Nat := bits g.toNat 0 56

/-- The run of a tier in which an OFFSET lies. -/
def allocAt (s : State) (dTier : Bool) (off : Nat) : Option Alloc :=
  s.tier.allocs.find? (fun a => a.dTier == dTier && a.base ≤ off && off < a.base + a.size)

/-! ### Allocation (R197, R206, R208) -/

/-- The free gaps of `[lo, hi)`, as (start, length), in rising order. -/
def freeGaps (s : State) (dTier : Bool) (lo hi : Nat) : List (Nat × Nat) :=
  let as := sortBy (fun a b => a.1 ≤ b.1)
    ((s.tier.allocs.filter (fun a => a.dTier == dTier && lo ≤ a.base && a.base < hi)).map (fun a => (a.base, a.size)))
  let r := as.foldl (fun (acc : List (Nat × Nat) × Nat) a =>
    (if acc.2 < a.1 then acc.1 ++ [(acc.2, a.1 - acc.2)] else acc.1, max acc.2 (a.1 + a.2))) ([], lo)
  if r.2 < hi then r.1 ++ [(r.2, hi - r.2)] else r.1

/-- Free bytes of `[lo, hi)`. -/
def freeBytes (s : State) (dTier : Bool) (lo hi : Nat) : Nat :=
  (freeGaps s dTier lo hi).foldl (fun n g => n + g.2) 0

/-- Free allocatable N-tier bytes (R195). -/
def ntFree (s : State) : Nat := freeBytes s false N_SYSTEM N_CAPACITY

/-- Free bytes of a D-tier half. -/
def dtFree (s : State) (h : Nat) : Nat := freeBytes s true (h * D_HALF) ((h + 1) * D_HALF)

/-- The `i`-th place for a run of `size` bytes among the gaps that hold it. -/
def placeIn (size : Nat) : List (Nat × Nat) → Nat → Option Nat
  | [], _ => none
  | (b, n) :: gs, i =>
    if n < size then placeIn size gs i
    else
      let k := (n - size) / PAGE + 1
      if i < k then some (b + i * PAGE) else placeIn size gs (i - k)

/-- The number of places for a run of `size` bytes. -/
def placeCount (size : Nat) (gs : List (Nat × Nat)) : Nat :=
  gs.foldl (fun n g => if g.2 < size then n else n + ((g.2 - size) / PAGE + 1)) 0

/-- A place in `[lo, hi)`: the manual leaves open which free run is taken. -/
def choosePlace (s : State) (dTier : Bool) (lo hi size : Nat) : Option Nat :=
  let gs := freeGaps s dTier lo hi
  let n := placeCount size gs
  if n = 0 then none else placeIn size gs (Config.choice s.free % n)

/-- The pages of `[base, base + size)` are unwritten, and read zeros (R211). -/
def clearWritten (dTier : Bool) (base size : Nat) (s : State) : State :=
  if dTier then { s with tier := { s.tier with dWritten := tclear s.tier.dWritten (base / PAGE) ((base + size) / PAGE)
                                               dmem := tclear s.tier.dmem base (base + size) } }
  else { s with tier := { s.tier with nWritten := tclear s.tier.nWritten (base / PAGE) ((base + size) / PAGE)
                                      nmem := tclear s.tier.nmem base (base + size) } }

/-- Dirty bits of an N-tier run clear (R215, R216). -/
def clearDirty (base size : Nat) (s : State) : State :=
  { s with tier := { s.tier with dirty := tclear s.tier.dirty (base / 65536) ((base + size) / 65536) } }

/-- A run taken at `base`: its pages start unwritten. -/
def takeRun (dTier : Bool) (base size : Nat) (who : Holder) (s : State) : State :=
  let s := { s with free := s.free + 1, tier := { s.tier with allocs := s.tier.allocs ++ [⟨dTier, base, size, who⟩] } }
  let s := clearWritten dTier base size s
  if dTier then s else clearDirty base size s

/-- Whether the N-tier serves: the domain of every stack is on, since every allocation lies in all twelve (R22, R196). -/
def ntOn (s : State) : Bool := (List.range 12).all (fun k => bit (s.rd32 (unitBlock false k)) 0)

/-- Whether the F-tier serves (R22, R247). -/
def ftOn (s : State) : Bool := bit (s.rd32 FT_STATUS) 0

/-- A run of N-tier. -/
def allocN (size : Nat) (who : Holder) (s : State) : Option (Nat × State) :=
  if !ntOn s then none
  else (choosePlace s false N_SYSTEM N_CAPACITY size).map (fun b => (b, takeRun false b size who s))

/-- Whether a D-tier half is powered (R228). -/
def halfOn (s : State) (h : Nat) : Bool := bit (s.rd32 (unitBlock true h)) 0

/-- Whether the controller of a byte of a space serves (R22): its stacks, its half or the F-tier are powered. -/
def spaceOn (s : State) (space off : Nat) : Bool :=
  if space = 0 then ntOn s else if space = 1 then halfOn s (off / D_HALF) else if space = 2 then ftOn s else true

/-- Whether the placement engine serves: it depends on the controllers of all three tiers, of the D-tier on one half at
least (R22). -/
def placementOn (s : State) : Bool := ntOn s && (halfOn s 0 || halfOn s 1) && ftOn s

/-- A run of a named D-tier half. -/
def allocDIn (h size : Nat) (who : Holder) (s : State) : Option (Nat × State) :=
  if !halfOn s h then none
  else (choosePlace s true (h * D_HALF) ((h + 1) * D_HALF) size).map (fun b => (b, takeRun true b size who s))

/-- The D-tier half for a new allocation: the powered one with more free space, half 0 when equal (R197). -/
def chooseHalf (s : State) : Nat := if dtFree s 0 < dtFree s 1 && halfOn s 1 then 1 else if halfOn s 0 then 0 else 1

/-- A run of D-tier, in the half of R197, or in the other where that one has no run for it. -/
def allocD (size : Nat) (who : Holder) (s : State) : Option (Nat × State) :=
  match allocDIn (chooseHalf s) size who s with
  | some r => some r
  | none => allocDIn (1 - chooseHalf s) size who s

/-- Every run of a holder is free again. -/
def freeRuns (p : Alloc → Bool) (s : State) : State :=
  let gone := s.tier.allocs.filter p
  let s := { s with tier := { s.tier with allocs := s.tier.allocs.filter (fun a => !p a) } }
  gone.foldl (fun s a => clearWritten a.dTier a.base a.size s) s

/-- Valid handles, rising. -/
def handles (s : State) : List Nat := (s.tier.tensors.filter (fun e => e.2.valid)).map (·.1)

/-- Valid handles in use. -/
def handleCount (s : State) : Nat := (s.tier.tensors.filter (fun e => e.2.valid)).length

/-- The lowest free handle not below `h` among `n` candidates. -/
def freeHandleFrom (s : State) : Nat → Nat → Option Nat
  | _, 0 => none
  | h, n + 1 => if (s.tensor h).valid then freeHandleFrom s (h + 1) n else some h

/-- The lowest free handle; handle 0 never names a tensor (R206). -/
def freeHandle (s : State) : Option Nat :=
  (freeHandleFrom s 1 (handleCount s + 1)).bind (fun h => if h < 2 ^ 20 then some h else none)

/-- The placement engine's capacity and status registers follow the tables (R228). -/
def refreshHeat (s : State) : State :=
  let ready := bit (s.rd32 (unitBlock false 0)) 1
  let s := s.wr64 HEAT_NT_FREE (if ready then ntFree s else 0)
  let s := [0, 1].foldl (fun s h => s.wr64 (HEAT_DT_FREE h) (if halfOn s h then dtFree s h else 0)) s
  let s := s.wr HEAT_HANDLES_FREE (1048575 - handleCount s)
  s.wr32 0x300000 ((s.tier.moves.filter (·.bg)).length
    + 8 * min 1023 (s.tier.moves.filter (fun m => !m.bg && m.started)).length)

/-! ### Permissions and addresses (R195, R198, R200, R463) -/

/-- Where the bytes of an access lie: a space, an OFFSET, the bytes from there to the end of its plane or region, and
the tensor reached by handle. -/
structure Spot where
  space  : Nat
  off    : Nat
  room   : Nat
  handle : Option Nat := none
  /-- An allocation that never moves (R198): atomics need one (R223). -/
  fixed  : Bool := false

/-- What a target resolves to. -/
inductive Loc where
  | fail (code : Nat)
  | spot (p : Spot)
  /-- A movable tensor with no DRAM copy: an F-origin tensor that must be staged (R218). -/
  | absent (h : Nat)

/-- The hull of a requester, where it is one of this device. -/
def reqHull (s : State) : Requester → Option Nat
  | .stream pod _ _ _ => s.podOwner pod
  | .hullPort h => some h
  | _ => none

/-- Whether a requester reaches the fixed run `a` by global address (R200). -/
def regionAllowed (s : State) (who : Requester) (a : Alloc) : Bool :=
  let share := match a.who with | .region h => (s.tensor h).share | _ => false
  let owner : Option Nat := match a.who with
    | .region h => if (s.tensor h).owned then some (s.tensor h).hull else none
    | .save h => some h
    | _ => none
  match who with
  | .fn 0 => true
  | .fn _ => false
  | .husk => true
  | .cxl => a.who == .cxl
  | .remote _ => share
  | .remotePf _ => true
  | .remoteHusk _ => share
  | w => (reqHull s w).isSome && owner == reqHull s w

/-- Whether a requester reaches the tensor `h` by handle (R200, R209). -/
def handleAllowed (s : State) (who : Requester) (h : Nat) : Bool :=
  let t := s.tensor h
  match who with
  | .fn 0 => true
  | .fn f => !t.fixed && t.bound && (s.slot t.tenant).bound && (s.slot t.tenant).owner == f
  | .husk => true
  | .cxl => false
  | .remote _ => false
  | .remotePf _ => false
  | .remoteHusk _ => false
  | w => match reqHull s w with
    | some hl => !t.fixed && (s.hull hl).handles.contains h
    | none => false

/-- Bytes of a fixed run that its region holds: ELEM_BYTES for a region with a handle (R207). -/
def regionEnd (s : State) (a : Alloc) : Nat :=
  match a.who with | .region h => a.base + (s.tensor h).elem | _ => a.base + a.size

/-- A DRAM address. The padding that rounds a region's run up to whole pages lies beyond the region's end and answers RANGE
(R463). DESIGN CHOICE (log 166): the manual names no response for an access that begins there. The system area is no fixed
region, so atomics there are DENIED (R223). DESIGN CHOICE (log 206):
an OFFSET past the capacity from a requester that may not reach the space: the capacity before the requester, but for a VF. -/
def locDram (s : State) (who : Requester) (dTier : Bool) (off : Nat) : Loc :=
  let sp := if dTier then 1 else 0
  if (match who with | .fn 0 => false | .fn _ => true | _ => false) then .fail RSP_DENIED
  else if (if dTier then D_CAPACITY else N_CAPACITY) ≤ off then .fail RSP_RANGE
  else if !dTier && off < N_SYSTEM then
    (if who == .husk then .spot { space := sp, off, room := N_SYSTEM - off } else .fail RSP_DENIED)
  else match allocAt s dTier off with
    | none => .fail RSP_UNMAPPED
    | some a =>
      match a.who with
      | .copy _ => .fail RSP_DENIED
      | _ =>
        if !regionAllowed s who a then .fail RSP_DENIED
        else if regionEnd s a ≤ off then .fail RSP_RANGE
        else .spot { space := sp, off, room := regionEnd s a - off, fixed := true }

/-- Requesters with the PF's rights: its bulk data port, here or on another device (R200). -/
def isPf : Requester → Bool
  | .fn 0 => true
  | .remotePf _ => true
  | _ => false

/-- An F-tier address: the PF's channels and Husk (R200). DESIGN CHOICE (log 167): a write by a requester that may not even
read F-tier space is DENIED, not READ_ONLY; the manual ranks neither. DESIGN CHOICE (log 206):
an OFFSET past the capacity from a requester that may not reach the space: the requester before the capacity. -/
def locFlash (s : State) (who : Requester) (write : Bool) (off : Nat) : Loc :=
  if !(isPf who || who == .husk) then .fail RSP_DENIED
  else if F_CAPACITY ≤ off then .fail RSP_RANGE
  else if tget s.flash.extents (off / EXTENT_BYTES) 0 = 0 then .fail RSP_UNMAPPED
  else if write && who != .husk then .fail RSP_READ_ONLY
  else .spot { space := 2, off, room := (off / EXTENT_BYTES + 1) * EXTENT_BYTES - off }

/-- Bytes of a tile-space region (R39). -/
def regionBytes (r : Nat) : Nat := if r = 0 then 0x30000 else if r = 1 then 0x6000 else if r = 2 then 0x900 else 0x2000

def tsByte (off : Nat) : Nat := bits off 0 18
def tsX (off : Nat) : Nat := bits off 18 8
def tsY (off : Nat) : Nat := bits off 26 7
def tsRegion (off : Nat) : Nat := bits off 33 2
def tsTile (off : Nat) : Nat := tileAt (tsX off) (tsY off)

/-- A tile-space address (R39, R47, R136, R195, R200). DESIGN CHOICE (log 206):
an OFFSET past the capacity from a requester that may not reach the space: the requester before the range. -/
def locTile (s : State) (who : Requester) (off : Nat) : Loc :=
  let who_ok := match who with | .husk => true | .remoteHusk _ => true | w => isPf w
  if !who_ok then .fail RSP_DENIED
  else if bits off 35 21 ≠ 0 || 159 < tsX off || 79 < tsY off || regionBytes (tsRegion off) ≤ tsByte off then
    .fail RSP_RANGE
  else
    let st := s.rd (POD_STATE (podOf (tsTile off)))
    let open_ := if tsRegion off = 0 then st ≠ POD_OFF else st = POD_HALTED ∨ st = POD_SCANNING
    if !open_ then .fail RSP_POD_STATE
    else .spot { space := 3, off, room := regionBytes (tsRegion off) - tsByte off, fixed := false }

/-- A plane of a tensor by handle (R198, R200, R208, R216). DESIGN CHOICE (log 168): Husk's writes reach the DRAM copy of an
F-origin tensor, as its writes reach F-tier space (R199); the manual exempts Husk for the space and is silent on the copy.
Atomics it does not exempt (R223). -/
def locHandle (s : State) (who : Requester) (h : Nat) (scale : Bool) (off : Nat) (write : Bool) : Loc :=
  let t := s.tensor h
  if h = 0 || !t.valid then (if who == .fn 0 || who == .husk then .fail RSP_UNMAPPED else .fail RSP_DENIED)
  else if !handleAllowed s who h then .fail RSP_DENIED
  else
    let size := if scale then t.scale else t.elem
    let at_ := (if scale then scaleOff t else 0) + off
    if size ≤ off then .fail RSP_RANGE
    else if write && t.readOnly && who != .husk then .fail RSP_READ_ONLY
    else if t.inN then .spot { space := 0, off := t.nBase + at_, room := size - off, handle := some h, fixed := t.fixed }
    else if t.inD then .spot { space := 1, off := t.dBase + at_, room := size - off, handle := some h, fixed := t.fixed }
    else if t.fGone then .fail RSP_UNMAPPED
    else .absent h

/-- Where an access's first byte lies, or the response that it meets there. -/
def locate (s : State) (who : Requester) (tg : Target) (write : Bool) : Loc :=
  match tg with
  | .addr g =>
    if gSpace g = 0 then locDram s who false (gOffset g)
    else if gSpace g = 1 then locDram s who true (gOffset g)
    else if gSpace g = 2 then locFlash s who write (gOffset g)
    else locTile s who (gOffset g)
  | .handle h sc off => locHandle s who h sc off write

/-- The global address that DETAIL reports for a byte of a spot. -/
def spotAddr (s : State) (p : Spot) (i : Nat) : DWord := globalAddr s p.space (p.off + i)

/-! ### Granules of the DRAM tiers (R202–R204, R211, R212) -/

def State.mem (s : State) (dTier : Bool) : Tab Byte := if dTier then s.tier.dmem else s.tier.nmem
def State.setMem (s : State) (dTier : Bool) (m : Tab Byte) : State :=
  if dTier then { s with tier := { s.tier with dmem := m } } else { s with tier := { s.tier with nmem := m } }
def State.written (s : State) (dTier : Bool) (pg : Nat) : Bool :=
  tget (if dTier then s.tier.dWritten else s.tier.nWritten) pg false
def State.setWritten (s : State) (dTier : Bool) (pg : Nat) : State :=
  if dTier then { s with tier := { s.tier with dWritten := tput s.tier.dWritten pg true false } }
  else { s with tier := { s.tier with nWritten := tput s.tier.nWritten pg true false } }
def State.badSyms (s : State) (dTier : Bool) (g : Nat) : Nat :=
  tget (if dTier then s.tier.dBad else s.tier.nBad) g 0
def State.setBadSyms (s : State) (dTier : Bool) (g n : Nat) : State :=
  if dTier then { s with tier := { s.tier with dBad := tput s.tier.dBad g n 0 } }
  else { s with tier := { s.tier with nBad := tput s.tier.nBad g n 0 } }
def State.poisoned (s : State) (dTier : Bool) (g : Nat) : Bool :=
  tget (if dTier then s.tier.dPoison else s.tier.nPoison) g false
def State.setPoison (s : State) (dTier : Bool) (g : Nat) (b : Bool) : State :=
  if dTier then { s with tier := { s.tier with dPoison := tput s.tier.dPoison g b false } }
  else { s with tier := { s.tier with nPoison := tput s.tier.nPoison g b false } }

/-- The granules (OFFSET div 64) that `[off, off + len)` touches. -/
def granulesOf (off len : Nat) : List Nat :=
  if len = 0 then [] else (List.range ((off + len - 1) / 64 - off / 64 + 1)).map (fun i => off / 64 + i)

/-- Granules that a write covers in part. -/
def partialGranules (off len : Nat) : List Nat :=
  (granulesOf off len).filter (fun g => g * 64 < off || off + len < g * 64 + 64)

/-- A corrected granule: CE, its count, and a write-back to come (R203). -/
def noteCorrected (dTier : Bool) (g : Nat) (s : State) : State :=
  let b := unitBlock dTier (unitOf dTier (g * 64))
  let s := (s.raise b 4).addSat (b + 0x08) 1
  if s.tier.writeback.contains (dTier, g) then s
  else { s with tier := { s.tier with writeback := s.tier.writeback ++ [(dTier, g)] } }

/-- A TIER_UE event (R445). -/
def tierUe (space off code source unit : Nat) (s : State) : State :=
  recordEvent 0x0201 none none
    (payload [(32, 8, (globalAddr s space off).toNat), (40, 1, code), (41, 1, source), (42, 1, unit)]) s

/-- A granule written back as zero data with POISON set and valid check symbols. -/
def poisonGranule (dTier : Bool) (g : Nat) (s : State) : State :=
  ((s.setMem dTier (tclear (s.mem dTier) (g * 64) (g * 64 + 64))).setBadSyms dTier g 0).setPoison dTier g true

/-- A granule that nothing recovers (R204 step 2). -/
def uncorrectable (dTier : Bool) (g source : Nat) (s : State) : State :=
  let u := unitOf dTier (g * 64)
  let b := unitBlock dTier u
  let sp := if dTier then 1 else 0
  let s := poisonGranule dTier g s
  let s := ((s.raise b 5).addSat (b + 0x0C) 1).wr64 (b + 0x18) (globalAddr s sp (g * 64)).toNat
  tierUe sp (g * 64) RSP_UNCORRECTABLE source u s

/-- The copy that holds a granule's data beside a clean copy (R204): the space and OFFSET there. -/
def otherCopy (s : State) (dTier : Bool) (off : Nat) : Option (Nat × Nat) :=
  match allocAt s dTier off with
  | some a =>
    match a.who with
    | .copy h =>
      let t := s.tensor h
      if dTier then
        (if t.origin = 2 && !t.fGone then some (2, t.fBase + (off - a.base)) else none)
      else if t.inD && (t.origin = 2 || !tget s.tier.dirty (off / 65536) false) then
        some (1, t.dBase + (off - a.base))
      else none
    | _ => none
  | none => none

/-- `len` bytes copied between byte memories. -/
def mcopy (src : Tab Byte) (sbase len : Nat) (dst : Tab Byte) (dbase : Nat) : Tab Byte :=
  (src.filter (fun e => sbase ≤ e.1 && e.1 < sbase + len)).foldl
    (fun m e => tput m (e.1 - sbase + dbase) e.2 0#8) (tclear dst dbase (dbase + len))

/-- The granules of a run become clean: no symbol in error, no poison. -/
def cleanGranules (dTier : Bool) (off len : Nat) (s : State) : State :=
  if dTier then { s with tier := { s.tier with dBad := tclear s.tier.dBad (off / 64) ((off + len) / 64),
                                               dPoison := tclear s.tier.dPoison (off / 64) ((off + len) / 64) } }
  else { s with tier := { s.tier with nBad := tclear s.tier.nBad (off / 64) ((off + len) / 64),
                                      nPoison := tclear s.tier.nPoison (off / 64) ((off + len) / 64) } }

/-- A page's heat counter rises by 1 (R213). -/
def heatPage (h pg : Nat) (s : State) : State :=
  let k := h * 2 ^ 20 + pg
  { s with tier := { s.tier with pages := tput s.tier.pages k (satAdd 8 (tget s.tier.pages k 0) 1) 0 } }

/-- The pages of a movable tensor that an access request touches are counted (R213). -/
def heatTouch (h rel len : Nat) (s : State) : State :=
  if (s.tensor h).fixed || len = 0 then s
  else (List.range ((rel + len - 1) / PAGE - rel / PAGE + 1)).foldl (fun s i => heatPage h (rel / PAGE + i) s) s

/-- A recovery: the 64 KiB around a granule read from the other copy and rewritten (R204 step 1). -/
def recover (dTier : Bool) (g : Nat) (src : Nat × Nat) (s : State) : State :=
  let blk := g * 64 / 65536 * 65536
  let from_ := src.2 - (g * 64 - blk)
  let m := if src.1 = 1 then s.tier.dmem else s.flash.fmem
  let s := s.setMem dTier (mcopy m from_ 65536 (s.mem dTier) blk)
  let s := cleanGranules dTier blk 65536 s
  let s := match allocAt s dTier blk with
    | some a => (match a.who with | .copy h => heatTouch h (blk - a.base) 65536 s | _ => s)
    | none => s
  (s.addSat (unitBlock dTier (unitOf dTier (g * 64)) + 0x10) 1).add64 HEAT_MOVE_BYTES 65536

/-- The recovery that a granule in error could have. -/
def recoverySource (s : State) (dTier : Bool) (g : Nat) : Option (Nat × Nat) := otherCopy s dTier (g * 64)

/-- A granule read by the controller: its response, after any correction, recovery or poisoning (R203, R204, R211).
`allow` says whether a recovery may end OK, `ask` reads the 64 KiB of its source and says whether they read OK. -/
def readWith (ask : Nat → Nat → State → Bool × State) (dTier allow : Bool) (source g : Nat) (s : State) : Nat × State :=
  if !s.written dTier (g * 64 / PAGE) then (RSP_UNWRITTEN, s)
  else if s.poisoned dTier g then (RSP_POISONED, s)
  else if s.badSyms dTier g = 0 then (RSP_OK, s)
  else if s.badSyms dTier g = 1 then (RSP_OK, noteCorrected dTier g s)
  else match recoverySource s dTier g with
    | some src =>
      if !allow then (RSP_UNCORRECTABLE, uncorrectable dTier g source s)
      else
        let r := ask src.1 (src.2 - (g * 64 - g * 64 / 65536 * 65536)) s
        if r.1 then (RSP_OK, recover dTier g src r.2) else (RSP_UNCORRECTABLE, uncorrectable dTier g source r.2)
    | none => (RSP_UNCORRECTABLE, uncorrectable dTier g source s)

/-- The 64 KiB of a recovery's source in the F-tier. -/
def askFlash (_space off : Nat) (s : State) : Bool × State :=
  let s := s.add64 0x220040 65536
  match ((List.range 16).map (fun i => (off + 4096 * i) / 4096)).find? (unitLost s) with
  | some u => (false, noteFtUe (u * 4096) s)
  | none => (true, s)

/-- The 64 KiB of a recovery's source, in the D-tier or the F-tier: a source granule in error is corrected or recovered in
its turn. -/
def askSource (source space off : Nat) (s : State) : Bool × State :=
  if space ≠ 1 then askFlash space off s
  else if !s.written true (off / PAGE) then (false, s)
  else ((granulesOf off 65536).filter (fun g => s.poisoned true g || s.badSyms true g ≠ 0)).foldl
    (fun (acc : Bool × State) g =>
      let r := readWith askFlash true true source g acc.2
      (acc.1 && r.1 = RSP_OK, r.2)) (true, s)

/-- A granule of either tier read by its controller. -/
def readGranule (dTier allow : Bool) (source g : Nat) (s : State) : Nat × State :=
  readWith (askSource source) dTier allow source g s

/-- Granules read in turn: the response of each. -/
def readGranules (dTier allow : Bool) (source : Nat) (gs : List Nat) (s : State) : List (Nat × Nat) × State :=
  gs.foldl (fun acc g =>
    let r := readGranule dTier allow source g acc.2
    (acc.1 ++ [(g, r.1)], r.2)) ([], s)

/-! ### An access to a spot (R199, R463) -/

/-- The answer of an access: its response, the offset within the access of the first failing granule, its data, and the
state after it. -/
structure Ans where
  code : Nat
  at_  : Nat := 0
  data : List Byte := []
  s    : State

/-- The response of an access from those of its granules: the lowest-addressed failing one, else UNWRITTEN (R463). -/
def worst (off : Nat) (cs : List (Nat × Nat)) (len room : Nat) : Nat × Nat :=
  match cs.find? (fun c => rspFails c.2) with
  | some c => (c.2, c.1 * 64 - off)
  | none =>
    if room < len then (RSP_RANGE, room)
    else if cs.any (fun c => c.2 = RSP_UNWRITTEN) then (RSP_UNWRITTEN, 0) else (RSP_OK, 0)

/-- NT_UNWRITTEN_READS counts a read answered UNWRITTEN (R228). -/
def countUnwritten (dTier : Bool) (code : Nat) (s : State) : State :=
  if code = RSP_UNWRITTEN && !dTier then s.addSat 0x201008 1 else s

/-- A read of DRAM: data for granules that ended OK or UNWRITTEN, zeros for the rest. -/
def dramRead (allow : Bool) (source : Nat) (p : Spot) (len : Nat) (s : State) : Ans :=
  let dT := p.space = 1
  let n := min len p.room
  let r := readGranules dT allow source (granulesOf p.off n) s
  let w := worst p.off r.1 len p.room
  let good := (r.1.filter (fun c => c.2 = RSP_OK)).map (·.1)
  let data := (List.range len).map (fun i =>
    if i < n && good.contains ((p.off + i) / 64) then tget (r.2.mem dT) (p.off + i) 0#8 else 0#8)
  { code := w.1, at_ := w.2, data, s := countUnwritten dT w.1 r.2 }

/-- The first write to a page: zeros in the rest of it, and its written bit (R212). -/
def openPage (dTier : Bool) (pg : Nat) (s : State) : State :=
  if s.written dTier pg then s
  else
    let s := s.setMem dTier (tclear (s.mem dTier) (pg * PAGE) (pg * PAGE + PAGE))
    (cleanGranules dTier (pg * PAGE) PAGE s).setWritten dTier pg

/-- The pages that `[off, off + len)` touches. -/
def pagesOf (off len : Nat) : List Nat :=
  if len = 0 then [] else (List.range ((off + len - 1) / PAGE - off / PAGE + 1)).map (fun i => off / PAGE + i)

/-- Dirty bits of the 64 KiB granules that a write by handle to an N-tier copy touches (R216). -/
def markDirty (off len : Nat) (s : State) : State :=
  if len = 0 then s
  else (List.range ((off + len - 1) / 65536 - off / 65536 + 1)).foldl (fun s i =>
    { s with tier := { s.tier with dirty := tput s.tier.dirty (off / 65536 + i) true false } }) s

/-- Bytes stored in DRAM: granules covered whole lose errors and poison, granules covered in part had their single
errors corrected. -/
def storeBytes (dTier : Bool) (off : Nat) (data : List Byte) (s : State) : State :=
  let s := (pagesOf off data.length).foldl (fun s pg => openPage dTier pg s) s
  let s := s.setMem dTier (mwrite (s.mem dTier) off data)
  (granulesOf off data.length).foldl (fun s g => (s.setBadSyms dTier g 0).setPoison dTier g false) s

/-- A write of DRAM: all of it or nothing (R199); partial granules are read first (R202). -/
def dramWrite (allow : Bool) (p : Spot) (data : List Byte) (s : State) : Ans :=
  let dT := p.space = 1
  let len := data.length
  let r := readGranules dT allow 0 (partialGranules p.off (min len p.room)) s
  let w := worst p.off r.1 len p.room
  if rspFails w.1 then { code := w.1, at_ := w.2, s := r.2 }
  else
    let s := storeBytes dT p.off data r.2
    { code := RSP_OK, s := if p.handle.isSome && !dT && !p.fixed then markDirty p.off len s else s }

/-- The bytes of an atomic's operand type (R223). -/
def atomBytes : AtomType → Nat
  | .i64 => 8
  | _ => 4

/-- The value that an atomic stores (R223, R90, R110). -/
def atomResult (k : AtomKind) (ty : AtomType) (old v : Nat) : Nat :=
  match ty with
  | .fp32 =>
    let a := BitVec.ofNat 32 old
    let b := BitVec.ofNat 32 v
    (match k with | .add => fpAdd a b | .max => fpMax a b | .min => fpMin a b).toNat
  | _ =>
    let w := 8 * atomBytes ty
    match k with
    | .add => (old + v) % 2 ^ w
    | .max => if signed old w < signed v w then v % 2 ^ w else old
    | .min => if signed v w < signed old w then v % 2 ^ w else old

/-- An atomic: the old value, and the new one stored (R212, R223). -/
def dramAtomic (allow : Bool) (p : Spot) (k : AtomKind) (ty : AtomType) (v : DWord) (s : State) : Ans :=
  let n := atomBytes ty
  if !p.fixed || p.off % n ≠ 0 || 1 < p.space then { code := RSP_DENIED, s }
  else
    let r := readGranules (p.space = 1) allow 0 [p.off / 64] s
    let w := worst p.off r.1 n p.room
    if rspFails w.1 then { code := w.1, at_ := w.2, s := r.2 }
    else
      let old := if w.1 = RSP_UNWRITTEN then 0 else leNat (mread (r.2.mem (p.space = 1)) p.off n)
      let s := storeBytes (p.space = 1) p.off (leBytes (atomResult k ty old v.toNat) n) r.2
      { code := RSP_OK, data := leBytes old n, s }

/-! ### Tile space (R39, R47, R50, R136) -/

/-- The bytes of the register region (R39). -/
def regionRegs (t : Tile) : List Byte :=
  wordBytes ((List.range 64).map t.s ++ (List.range 512).map (fun i => tget t.vreg i 0#32))

/-- The register region written from its bytes. -/
def setRegionRegs (t : Tile) (bs : List Byte) : Tile :=
  let ws := bytesWords bs 576
  let t := ((ws.take 64).zip (List.range 64)).foldl (fun t e => t.setS e.2 e.1) t
  { t with vreg := ((ws.drop 64).zip (List.range 512)).foldl (fun m e => tput m e.2 e.1 0#32) t.vreg }

/-- A list with `data` laid over it from `o`. -/
def overlay (bs : List Byte) (o : Nat) (data : List Byte) : List Byte :=
  bs.take o ++ data ++ bs.drop (o + data.length)

/-- A read of tile space. -/
def tileRead (p : Spot) (len : Nat) (s : State) : Ans :=
  let k := tsTile p.off
  let o := tsByte p.off
  let n := min len p.room
  let t := s.tile k
  let pad := zeros (len - n)
  let range := fun (d : List Byte) (s : State) =>
    if p.room < len then { code := RSP_RANGE, at_ := p.room, data := d ++ pad, s := s : Ans } else { code := RSP_OK, data := d, s := s }
  if tsRegion p.off = 2 then range (((regionRegs t).drop o).take n) s
  else if tsRegion p.off = 3 then range (mread t.shell o n) s
  else
    let q := tsRegion p.off = 1
    let mem := if q then t.queues else t.sram
    let f := eccFix t q (wordsOf o n)
    let s := countCorrected (podOf k) f.2 (s.setTile k f.1)
    let badG := ((wordsOf o n).filter (fun w => 2 ≤ tget t.bad (eccKey q w) 0)).map (fun w => w / 64)
    match badG.head? with
    | none => range (mread mem o n) s
    | some g =>
      { code := RSP_UNCORRECTABLE, at_ := g * 64 - o, s
        data := (List.range n).map (fun i => if badG.contains ((o + i) / 64) then 0#8 else tget mem (o + i) 0#8) ++ pad }

/-- The slots that a shell-store write touches become EMPTY unless ACTIVE (R136). -/
def emptySlots (p lo hi : Nat) (s : State) : State :=
  (List.range 4).foldl (fun s sl =>
    if sl * 0x800 < hi && lo < (sl + 1) * 0x800 && s.rd (SHL_SLOT p sl) ≠ 3 then s.wr (SHL_SLOT p sl) 0 else s) s

/-- A write of tile space: all of it or nothing. -/
def tileWrite (p : Spot) (data : List Byte) (s : State) : Ans :=
  let k := tsTile p.off
  let o := tsByte p.off
  let t := s.tile k
  if p.room < data.length then { code := RSP_RANGE, at_ := p.room, s }
  else if tsRegion p.off = 2 then
    { code := RSP_OK, s := s.setTile k (setRegionRegs t (overlay (regionRegs t) o data)) }
  else if tsRegion p.off = 3 then
    { code := RSP_OK, s := emptySlots (podOf k) o (o + data.length) (s.setTile k { t with shell := mwrite t.shell o data }) }
  else
    let q := tsRegion p.off = 1
    match eccBad t q (partialWords o data.length) with
    | some w => { code := RSP_UNCORRECTABLE, at_ := w - o, s }
    | none =>
      let f := eccFix t q (partialWords o data.length)
      let t := eccClear f.1 q (wordsOf o data.length)
      let t := if q then { t with queues := mwrite t.queues o data } else { t with sram := mwrite t.sram o data }
      { code := RSP_OK, s := countCorrected (podOf k) f.2 (s.setTile k t) }

/-! ### The F-tier as a space -/

/-- A read of F-tier space: a 4 KiB unit that both codes have lost reads zeros (R236, R237). -/
def flashRead (p : Spot) (len : Nat) (s : State) : Ans :=
  let n := min len p.room
  let lostAt := fun o => unitLost s (o / 4096)
  let cs := (granulesOf p.off n).map (fun g => (g, if lostAt (g * 64) then RSP_UNCORRECTABLE else RSP_OK))
  let w := worst p.off cs len p.room
  let data := (List.range len).map (fun i =>
    if i < n && !lostAt (p.off + i) then tget s.flash.fmem (p.off + i) 0#8 else 0#8)
  let s := s.add64 0x220040 n
  { code := w.1, at_ := w.2, data, s := if w.1 = RSP_UNCORRECTABLE then noteFtUe (p.off + w.2) s else s }

/-! ### One access -/

/-- The operation of an access at the spot where it lies. -/
def perform (allow : Bool) (p : Spot) (op : TierOp) (s : State) : Ans :=
  match op with
  | .read len =>
    if p.space = 3 then tileRead p len s else if p.space = 2 then flashRead p len s else dramRead allow 0 p len s
  | .write data =>
    if p.space = 3 then tileWrite p data s
    else if p.space = 2 then
      (if p.room < data.length then { code := RSP_RANGE, at_ := p.room, s }
       else { code := RSP_OK, s := { s with flash := { s.flash with fmem := mwrite s.flash.fmem p.off data } } })
    else dramWrite allow p data s
  | .atomic k ty v => dramAtomic allow p k ty v s

/-- Whether an operation changes its target. -/
def opWrites : TierOp → Bool
  | .read _ => false
  | _ => true

/-- Bytes of an operation. -/
def opLen : TierOp → Nat
  | .read n => n
  | .write d => d.length
  | .atomic _ ty _ => atomBytes ty

/-- A failing read's data: zeros. -/
def failData (op : TierOp) : List Byte := match op with | .read n => zeros n | _ => []

/-- Requesters whose accesses by handle count toward a page's heat (R213). -/
def countsHeat : Requester → Bool
  | .stream _ _ _ _ => true
  | .fn _ => true
  | _ => false

/-- Whether a late write's granule can take its new value: a part of a granule needs the rest, which must be read (R202). -/
def lateReady (s : State) (dTier : Bool) (g : Nat) : Bool :=
  !s.written dTier (g * 64 / PAGE) || (!s.poisoned dTier g && (s.badSyms dTier g < 2 || (recoverySource s dTier g).isSome))

/-- After a late write each granule holds its old or its new value, whole: a free value says which (R224). -/
def lateWrite (p : Spot) (data : List Byte) (s : State) : State :=
  let n := min data.length p.room
  let part := partialGranules p.off n
  (granulesOf p.off n).foldl (fun s g =>
    let f := s.fresh
    let lo := max p.off (g * 64)
    let hi := min (p.off + n) (g * 64 + 64)
    if f.1.getLsbD 0 && (!part.contains g || lateReady f.2 (p.space = 1) g) then
      (dramWrite true { p with off := lo, room := hi - lo } ((data.drop (lo - p.off)).take (hi - lo)) f.2).s
    else f.2) s

/-- An access of the D-tier or the F-tier ends LATE (R224): the flag, the count, and for a D-tier write or atomic its target
as the deadline left it. -/
def lateAnswer (p : Spot) (op : TierOp) (s : State) : Ans :=
  let s := if p.space = 1 then
      let b := unitBlock true (p.off / D_HALF)
      (s.raise b 7).addSat (b + 0x14) 1
    else (s.raise FT_STATUS 7).addSat 0x220030 1
  { code := RSP_LATE, data := failData op
    s := if p.space ≠ 1 then s
      else match op with
        | .read _ => s
        | .write d => lateWrite p d s
        | .atomic k ty v => if s.fresh.1.getLsbD 0 then (dramAtomic true p k ty v s.fresh.2).s else s.fresh.2 }

/-- An atomic by handle on an F-origin tensor is READ_ONLY for every requester that reaches the tensor (R223). -/
def atomOnOrigin (s : State) (tg : Target) (op : TierOp) : Bool :=
  match tg, op with
  | .handle h _ _, .atomic _ _ _ => (s.tensor h).readOnly
  | _, _ => false

/-- The heat of an access by handle: one access request, which touches the pages of the tensor that it reaches (R213). -/
def noteHeat (who : Requester) (tg : Target) (op : TierOp) (s : State) : State :=
  match tg, countsHeat who, locate s who tg (opWrites op) with
  | .handle h sc off, true, .spot p =>
    heatTouch h ((if sc then scaleOff (s.tensor h) else 0) + off) (min (opLen op) p.room) s
  | _, _, _ => s

/-- The answer of an access, its heat apart. A tensor with no DRAM copy answers NO_ROOM here; callers that can wait for its
staging do so before (R218). -/
def answer (allow : Bool) (who : Requester) (tg : Target) (op : TierOp) (s : State) : Ans :=
  match locate s who tg (opWrites op) with
  | .fail c => { code := c, data := failData op, s }
  | loc =>
    if atomOnOrigin s tg op then { code := RSP_READ_ONLY, data := failData op, s }
    else match loc with
      | .spot p => perform allow p op s
      | _ => { code := RSP_NO_ROOM, data := failData op, s }

/-- The space of an access, where it has a place. -/
def spaceOf (s : State) (who : Requester) (tg : Target) (op : TierOp) : Option Spot :=
  match locate s who tg (opWrites op) with
  | .spot p => some p
  | _ => none

/-- The answer of an access that a command or an engine makes in one event, whole. One marked by ACCESS_DEADLINE_EXPIRY ends
LATE (R224). -/
def access (allow : Bool) (who : Requester) (tg : Target) (op : TierOp) (s : State) : Ans :=
  let due := match spaceOf s who tg op with
    | some p => if s.tier.overdue && (p.space = 1 || p.space = 2) then some p else none
    | none => none
  let s := noteHeat who tg op s
  match due with
  | some p => lateAnswer p op { s with tier := { s.tier with overdue := false } }
  | none => answer allow who tg op s

/-- Granules that `[off, off + len)` touches with something to report: in error or poisoned. -/
def troubled (s : State) (dTier : Bool) (off len : Nat) : List Nat :=
  let a := tkeys (if dTier then s.tier.dBad else s.tier.nBad)
  let b := tkeys (if dTier then s.tier.dPoison else s.tier.nPoison)
  (a ++ b.filter (fun k => !a.contains k)).filter (fun g => off < (g + 1) * 64 && g * 64 < off + len)

/-- The granules of a DRAM range that do not simply read as they stand: troubled, or the first of an unwritten page. -/
def oddGranules (s : State) (dTier : Bool) (off len : Nat) : List Nat :=
  let odd := troubled s dTier off len
  let blank := ((pagesOf off len).filter (fun pg => !s.written dTier pg)).map (fun pg => max (pg * PAGE) off / 64)
  sortBy (fun a b => a ≤ b) (odd ++ blank.filter (fun g => !odd.contains g))

/-- What the controllers make of a range that Husk or an engine reads whole: every granule in error is corrected, recovered
or poisoned; the response, and the offset of the first failing byte (R203, R204, R211, R224, R237, R463). What the range
holds is then read as it stands. -/
def sweep (space off len : Nat) (s : State) : (Nat × Nat) × State :=
  if len = 0 then ((RSP_OK, 0), s)
  else if s.tier.overdue && (space = 1 || space = 2) then
    ((RSP_LATE, 0), (lateAnswer { space, off, room := len } (.read 0) { s with tier := { s.tier with overdue := false } }).s)
  else if space = 2 then
    let s := s.add64 0x220040 len
    match (List.range ((off + len - 1) / 4096 - off / 4096 + 1)).find? (fun i => unitLost s (off / 4096 + i)) with
    | some i =>
      let o := max off ((off / 4096 + i) * 4096)
      ((RSP_UNCORRECTABLE, o - off), noteFtUe o s)
    | none => ((RSP_OK, 0), s)
  else
    let r := readGranules (space = 1) true 0 (oddGranules s (space = 1) off len) s
    let w := worst off r.1 len len
    (w, countUnwritten (space = 1) w.1 r.2)

/-- A range of a tensor's element plane, read by Husk in the present copy: the failing status with its address, and whether
it met UNWRITTEN. -/
def sweepPlane (h off len : Nat) (s : State) : Option (Nat × Nat) × Bool × State :=
  let t := s.tensor h
  if !t.inN && !t.inD && t.fGone && len ≠ 0 then (some (ST_ADDR_UNMAPPED, (globalAddr s 2 (t.fBase + off)).toNat), false, s)
  else
    let p := if t.inN then (0, t.nBase + off) else if t.inD then (1, t.dBase + off) else (2, t.fBase + off)
    let r := sweep p.1 p.2 len s
    if rspFails r.1.1 then (some (rspStatus r.1.1, (globalAddr s p.1 (p.2 + r.1.2)).toNat), false, r.2)
    else (none, r.1.1 = RSP_UNWRITTEN, r.2)

/-- Ranges (handle, offset, bytes) read in turn, up to the first that fails (R225). -/
def look (rs : List (Nat × Nat × Nat)) (s : State) : Option (Nat × Nat) × Bool × State :=
  rs.foldl (fun acc x =>
    if acc.1.isSome then acc
    else
      let r := sweepPlane x.1 x.2.1 (min x.2.2 ((acc.2.2.tensor x.1).elem - x.2.1)) acc.2.2
      (r.1, acc.2.1 || r.2.1, r.2.2)) (none, false, s)
/-- The global address that an access's answer names as failing. -/
def failAddr (s : State) (who : Requester) (tg : Target) (op : TierOp) (at_ : Nat) : DWord :=
  match tg with
  | .addr g => g + BitVec.ofNat 64 at_
  | .handle _ _ _ =>
    match locate s who tg (opWrites op) with
    | .spot p => spotAddr s p at_
    | _ => 0

/-! ### Accesses in a controller (R199, R203–R205, R224) -/

/-- The resource and arbiter of an access, where a scheduled resource serves it (R258): 0 = N-tier, 1 = D-tier,
2 = F-tier. -/
def arbiterFor (s : State) (a : Access) : Option (Nat × Nat × Nat) :=
  match locate s a.req.who a.req.target (opWrites a.req.op) with
  | .spot p =>
    if p.space = 0 then some (0, arbiterOf false p.off, p.off)
    else if p.space = 1 then some (1, arbiterOf true p.off, p.off)
    else if p.space = 2 then
      let k := p.off / 65536
      some (2, 64 * (k % 244 % 4) + (3 * (k / 244) + 3 + k % 244 / 4) % 64, p.off)
    else none
  | _ => none

/-- An access reaches its controller's queue, where its deadline starts. -/
def present (use : AccessUse) (req : AccessReq) (s : State) : State :=
  let a : Access := { id := s.tier.nextId, req, hull := reqHull s req.who, use }
  { s with tier := { s.tier with nextId := s.tier.nextId + 1, queue := s.tier.queue ++ [a] } }

/-- The first granule that an access reads and only a recovery can serve. -/
def awaitsRecovery (s : State) (a : Access) : Option (Bool × Nat) :=
  match locate s a.req.who a.req.target (opWrites a.req.op) with
  | .spot p =>
    if 1 < p.space then none
    else
      let dT := p.space = 1
      let n := min (opLen a.req.op) p.room
      let gs := match a.req.op with
        | .write _ => partialGranules p.off n
        | _ => granulesOf p.off n
      (gs.find? (fun g => s.written dT (g * 64 / PAGE) && !s.poisoned dT g && 2 ≤ s.badSyms dT g
        && (recoverySource s dT g).isSome)).map (fun g => (dT, g))
  | _ => none

/-- The last written granule of a tier. -/
def lastGranule (s : State) (dTier : Bool) : Option Nat :=
  ((tkeys (if dTier then s.tier.dWritten else s.tier.nWritten)).getLast?).map (fun pg => pg * 32768 + 32767)

end Sys2Proof.Machine
end

