-- ==== Sys2Proof/Machine/Place.lean ====
section
/-! DEFINITION. The placement engine: moves of whole tensors between tiers, the plan at each frame boundary, and the answers
to traffic that a move halts (R206–R219, R239). -/

namespace Sys2Proof.Machine

def MOVE_PROMOTE : Nat := 1
def MOVE_DEMOTE : Nat := 2
def MOVE_STAGE : Nat := 3

/-- LOW_WATER and HIGH_WATER: 4 % and 8 % of the allocatable N-tier (R214). -/
def LOW_WATER : Nat := (N_CAPACITY - N_SYSTEM) * 4 / 100
def HIGH_WATER : Nat := (N_CAPACITY - N_SYSTEM) * 8 / 100
def HYST : Nat := 16
def BG_LIMIT : Nat := 4

/-- Promotion threshold of a class (R214). -/
def promoteThreshold (cls : Nat) : Nat := if cls = 0 then 16 else 64

/-- Background moves that count against the limit (R213). -/
def bgMoves (s : State) : Nat := (s.tier.moves.filter (·.bg)).length

def findMove (s : State) (h : Nat) : Option Move := s.tier.moves.find? (·.handle = h)

def setMoves (ms : List Move) (s : State) : State := { s with tier := { s.tier with moves := ms } }

/-- A tensor entry's MOVE and MOVE_CLASS2 (R207). -/
def setMoveField (h kind : Nat) (up : Bool) (s : State) : State :=
  s.setTensor h { s.tensor h with move := kind, moveUp := up }

/-- A move leaves the table. -/
def dropMove (h : Nat) (s : State) : State :=
  refreshHeat (setMoveField h 0 false (setMoves (s.tier.moves.filter (·.handle ≠ h)) s))

/-! ### Copies -/

/-- A promotion that waits for the space of a copy waits for it no longer (R213). -/
def dropVictim (h : Nat) (s : State) : State :=
  setMoves (s.tier.moves.map (fun m => { m with victims := m.victims.filter (· ≠ h) })) s

/-- An N-tier copy is freed: IN_N clears, and its dirty bits go with it. -/
def freeNCopy (h : Nat) (s : State) : State :=
  let t := s.tensor h
  let s := s.setTensor h { t with inN := false, nBase := 0 }
  clearDirty t.nBase (copySize t) (freeRuns (fun a => !a.dTier && a.who == .copy h) s)

/-- One granule of a move's source that cannot be read leaves its destination granule poisoned (R217, R237): an
already-poisoned one without an event. -/
def moveGranule (srcD : Bool) (dstD : Bool) (sg dg : Nat) (s : State) : State :=
  if s.poisoned srcD sg then poisonGranule dstD dg s
  else
    let r := readGranule srcD true 1 sg s
    if r.1 = RSP_UNCORRECTABLE then poisonGranule dstD dg r.2 else r.2

/-- `len` bytes moved between the DRAM tiers, with the fate of each granule that does not read clean. -/
def moveBytes (srcD dstD : Bool) (soff len doff : Nat) (s : State) : State :=
  let gs := troubled s srcD soff len
  let s := gs.foldl (fun s g =>
    if s.poisoned srcD g || 2 ≤ s.badSyms srcD g then s else (readGranule srcD true 1 g s).2) s
  let rec_ := gs.filter (fun g => s.poisoned srcD g || 2 ≤ s.badSyms srcD g)
  let s1 := s.setMem dstD (mcopy (s.mem srcD) soff len (s.mem dstD) doff)
  let s2 := cleanGranules dstD doff len s1
  rec_.foldl (fun s g =>
    let dg := g - soff / 64 + doff / 64
    let s := moveGranule srcD dstD g dg s
    if s.poisoned dstD dg then s
    else s.setMem dstD (mcopy (s.mem srcD) (g * 64) 64 (s.mem dstD) (dg * 64))) s2

/-- Promotion's copy: the written pages of the D-tier copy, with their written bits (R212, R215). -/
def copyUp (h : Nat) (s : State) : State :=
  let t := s.tensor h
  let n := copySize t / PAGE
  let s := (List.range n).foldl (fun s i =>
    if s.written true (t.dBase / PAGE + i) then
      let s := moveBytes true false (t.dBase + i * PAGE) PAGE (t.nBase + i * PAGE) s
      (s.setWritten false (t.nBase / PAGE + i)).add64 HEAT_MOVE_BYTES PAGE
    else s) s
  clearDirty t.nBase (copySize t) s

/-- Demotion's copy: every dirty 64 KiB of the N-tier copy; an F-origin copy writes nothing back (R215). -/
def copyDown (h : Nat) (s : State) : State :=
  let t := s.tensor h
  if t.readOnly then s
  else
    ((tkeys s.tier.dirty).filter (fun k => t.nBase / 65536 ≤ k && k < (t.nBase + copySize t) / 65536)).foldl
      (fun s k =>
        let d := k * 65536 - t.nBase + t.dBase
        let s := openPage true (d / PAGE) s
        (moveBytes false true (k * 65536) 65536 d s).add64 HEAT_MOVE_BYTES 65536) s

/-- The 4 KiB units of `[off, off + len)` of F-tier space that are lost to both codes. -/
def lostUnits (s : State) (off len : Nat) : List Nat :=
  let mates := (List.range 256).any (fun c => s.rdB (FT_FAILED c) && failedMates s c ≠ [])
  let inR := fun (u : Nat) => off / 4096 ≤ u && u * 4096 < off + len
  if mates then ((List.range (ceilDiv len 4096)).map (off / 4096 + ·)).filter (unitLost s)
  else (tkeys s.flash.lost).filter inR

/-- Staging's copy: the planes of the F-tier origin; units that both codes lost become poisoned granules, each with a
TIER_UE event, and each chunk read that meets one is an UNCORRECTABLE read of the F-tier (R215, R237). -/
def copyStage (h : Nat) (s : State) : State :=
  let t := s.tensor h
  let len := scaleOff t + t.scale
  let s := (List.range (copySize t / PAGE)).foldl (fun s i => openPage true (t.dBase / PAGE + i) s) s
  let s := s.setMem true (mcopy s.flash.fmem t.fBase len s.tier.dmem t.dBase)
  let s := (s.add64 HEAT_MOVE_BYTES len).add64 0x220040 len
  let lost := lostUnits s t.fBase len
  let s := ((lost.map (· / 16)).eraseDups).foldl (fun s k =>
    noteFtUe (((lost.find? (fun u => u / 16 = k)).getD 0) * 4096) s) s
  lost.foldl (fun s u => (List.range 64).foldl (fun s i =>
    let d := u * 4096 - t.fBase + t.dBase + i * 64
    tierUe 1 d RSP_UNCORRECTABLE 3 (unitOf true d) (poisonGranule true (d / 64) s)) s) s

/-- A move's end (R215): the copies and the tensor's state change, and the space of a demoted copy is free. -/
def finishMove (m : Move) (s : State) : State :=
  let h := m.handle
  let s :=
    if m.kind = MOVE_PROMOTE then
      let s := copyUp h s
      (s.setTensor h { s.tensor h with inN := true }).addSat HEAT_PROMOTIONS 1
    else if m.kind = MOVE_DEMOTE then
      (freeNCopy h (copyDown h s)).addSat HEAT_DEMOTIONS 1
    else
      let s := copyStage h s
      s.setTensor h { s.tensor h with inD := true }
  dropMove h s

/-- A move whose access of its D-tier copy, or of its F-tier origin, ended LATE at an OFFSET is abandoned (R225). The new copy
of a promotion or a staging is free again. A demotion keeps its N-tier copy and every dirty bit; of its dirty granules those
that it had written, as a free value says, stand in the D-tier copy too, and those of the late write hold their old or new
value. -/
def abandonMove (m : Move) (off : Nat) (s : State) : State :=
  let h := m.handle
  let t := s.tensor h
  let s :=
    if m.kind = MOVE_PROMOTE then
      (freeRuns (fun a => !a.dTier && a.who == .copy h) s).setTensor h { t with nBase := 0 }
    else if m.kind = MOVE_STAGE then
      let s := (s.raise FT_STATUS 7).addSat 0x220030 1
      (freeRuns (fun a => a.dTier && a.who == .copy h) s).setTensor h { t with dBase := 0 }
    else
      ((tkeys s.tier.dirty).filter (fun k => t.nBase / 65536 ≤ k && k < (t.nBase + copySize t) / 65536)).foldl
        (fun s k =>
          let d := k * 65536 - t.nBase + t.dBase
          if (t.dBase + off) / 65536 = d / 65536 then
            lateWrite { space := 1, off := d, room := 65536 } (mread s.tier.nmem (k * 65536) 65536) (openPage true (d / PAGE) s)
          else if s.fresh.1.getLsbD 0 then moveBytes false true (k * 65536) 65536 d (openPage true (d / PAGE) s.fresh.2)
          else s.fresh.2) (dropVictim h s)
  let s := if m.kind = MOVE_STAGE then s
    else
      let b := unitBlock true (t.dBase / D_HALF)
      (s.raise b 7).addSat (b + 0x14) 1
  dropMove h s

/-- The global address at which a move's access ended LATE. -/
def lateAddr (s : State) (m : Move) (off : Nat) : DWord :=
  let t := s.tensor m.handle
  if m.kind = MOVE_STAGE then globalAddr s 2 (t.fBase + off) else globalAddr s 1 (t.dBase + off)

/-- A demotion is cancelled, its N-tier copy kept; a promotion that waits for the space starts with the space that it then
finds, or not (R213, R218). -/
def cancelDemotion (h : Nat) (s : State) : State := dropVictim h (dropMove h s)

/-- Whether an N-tier copy has a dirty 64 KiB. -/
def dirtyCopy (s : State) (h : Nat) : Bool :=
  let t := s.tensor h
  !t.readOnly && (tkeys s.tier.dirty).any (fun k => t.nBase / 65536 ≤ k && k < (t.nBase + copySize t) / 65536)

/-- Space for a move's new copy. None: the move cannot start. -/
def moveSpace (h kind : Nat) (s : State) : Option State :=
  let t := s.tensor h
  if kind = MOVE_PROMOTE then
    (allocN (copySize t) (.copy h) s).map (fun r => r.2.setTensor h { r.2.tensor h with nBase := r.1 })
  else if kind = MOVE_STAGE then
    (allocD (copySize t) (.copy h) s).map (fun r => r.2.setTensor h { r.2.tensor h with dBase := r.1 })
  else some s

/-- A move starts, if its new copy finds a run (R208). The clean N-tier copy of a demotion is freed at once (R215). -/
def startMove (h kind cls : Nat) (bg : Bool) (s : State) : Option State :=
  if kind = MOVE_DEMOTE && !dirtyCopy s h then
    some (finishMove { handle := h, kind, cls, bg, started := true, victims := [] } s)
  else
    (moveSpace h kind s).map (fun s =>
      traceIn 704 768 [h, (s.tensor h).heat, kind, cls] <| refreshHeat (setMoveField h kind (!bg)
        (setMoves (s.tier.moves ++ [{ handle := h, kind, cls, bg, started := true, victims := [] }]) s)))

/-! ### The plan at each frame boundary (R213) -/

/-- Pages of a tensor (R213). -/
def pageCount (t : Tensor) : Nat := copySize t / PAGE

/-- HEAT of every movable tensor, then every counter halved. -/
def evaluateHeat (s : State) : State :=
  let s := (handles s).foldl (fun s h =>
    let t := s.tensor h
    if t.fixed then s
    else
      let sum := (s.tier.pages.filter (fun e => e.1 / 2 ^ 20 = h)).foldl (fun n e => n + e.2) 0
      s.setTensor h { t with heat := sum / pageCount t }) s
  { s with tier := { s.tier with
    pages := (s.tier.pages.map (fun e => (e.1, e.2 / 2))).filter (fun e => e.2 ≠ 0) } }

/-- Coldest first, then handle descending. -/
def colder (s : State) (a b : Nat) : Bool :=
  let ha := (s.tensor a).heat
  let hb := (s.tensor b).heat
  ha < hb || (ha = hb && b ≤ a)

/-- N-tier copies that may be demoted to make space: unpinned and not moving. -/
def unpinned (s : State) : List Nat :=
  sortBy (colder s) ((handles s).filter (fun h =>
    let t := s.tensor h
    !t.fixed && t.inN && !t.workset && t.move = 0))

/-- Victims taken in order until `need` more bytes would be free. -/
def takeVictims (s : State) (need : Nat) : List Nat → Nat → List Nat → Option (List Nat)
  | [], got, vs => if need ≤ got then some vs else none
  | h :: hs, got, vs => if need ≤ got then some vs else takeVictims s need hs (got + copySize (s.tensor h)) (vs ++ [h])

/-- make_room with may_demote: none when there is no room; else the victims to demote, at most `room` (R213). -/
def makeRoom (c room : Nat) (s : State) : Option (List Nat) :=
  let t := s.tensor c
  let need := copySize t
  if need + LOW_WATER ≤ ntFree s then some []
  else
    let vs := (unpinned s).filter (fun h =>
      let v := s.tensor h
      t.cls ≤ v.cls && v.heat + HYST ≤ t.heat)
    match takeVictims s (need + LOW_WATER - ntFree s) vs 0 [] with
    | some l => if l.length ≤ room then some l else none
    | none => none

/-- A promotion whose room has been looked for: it starts now, or once its victims' space is free. -/
def admitWith (room : Option (List Nat)) (c : Nat) (s : State) : State :=
  match room with
  | none => s
  | some [] => (startMove c MOVE_PROMOTE 3 true s).getD s
  | some vs =>
    let s := vs.foldl (fun s v => (startMove v MOVE_DEMOTE 3 true s).getD s) s
    refreshHeat (setMoveField c MOVE_PROMOTE false
      (setMoves (s.tier.moves ++ [{ handle := c, kind := MOVE_PROMOTE, cls := 3, bg := true, started := false, victims := vs }]) s))

/-- A promotion admitted, if room for it can be made. -/
def admitPromotion (c : Nat) (s : State) : State := admitWith (makeRoom c (BG_LIMIT - bgMoves s - 1) s) c s

/-- Hottest first, then latency-critical first, then handle ascending. -/
def hotter (s : State) (a b : Nat) : Bool :=
  let ta := s.tensor a
  let tb := s.tensor b
  tb.heat < ta.heat || (ta.heat = tb.heat && (ta.cls < tb.cls || (ta.cls = tb.cls && a ≤ b)))

/-- Bytes that demotions in flight will free. -/
def demoting (s : State) : Nat :=
  (s.tier.moves.filter (fun m => m.kind = MOVE_DEMOTE)).foldl (fun n m => n + copySize (s.tensor m.handle)) 0

/-- plan_moves (R213): promotions of hot tensors, demotions of archive tensors, and pressure demotion, which starts below
LOW_WATER and goes on to HIGH_WATER (R214, log 77). -/
def planMoves (s : State) : State :=
  let cands := sortBy (hotter s) ((handles s).filter (fun h =>
    let t := s.tensor h
    !t.fixed && !t.inN && t.inD && t.move = 0 && t.cls < 2 && promoteThreshold t.cls ≤ t.heat))
  let s := cands.foldl (fun s c => if bgMoves s < BG_LIMIT then admitPromotion c s else s) s
  let arch := (handles s).filter (fun h =>
    let t := s.tensor h
    !t.fixed && t.inN && t.cls = 2 && !t.workset && t.move = 0)
  let s := arch.foldl (fun s h => if bgMoves s < BG_LIMIT then (startMove h MOVE_DEMOTE 3 true s).getD s else s) s
  if ntFree s < LOW_WATER then
    (unpinned s).foldl (fun s h =>
      if bgMoves s < BG_LIMIT && ntFree s < HIGH_WATER then (startMove h MOVE_DEMOTE 3 true s).getD s
      else s) s
  else s

/-! ### Answers to halted traffic (R218) -/

/-- What the placement engine answers: the traffic resumes, waits for a move, holds a direct grant, or ends. -/
inductive Halt where
  | resume
  | wait
  | direct
  | noRoom

/-- A running move raised to the class of the traffic that waits for it; raised moves leave the background limit. -/
def raiseMove (h cls : Nat) (s : State) : State :=
  let s := setMoves (s.tier.moves.map (fun m =>
    if m.handle = h then { m with cls := min m.cls cls, bg := false } else m)) s
  refreshHeat (setMoveField h (s.tensor h).move true s)

/-- Whether a tensor has lost every copy: its archive was removed and no DRAM copy is left; it reads as UNMAPPED (R240). -/
def noCopy (t : Tensor) : Bool := t.fGone && !t.inN && !t.inD

/-- on_halt (R218): tensor `h` halted by traffic of class `cls`. While a tier controller is off the placement engine does not
serve, and what it would answer waits (R22). DESIGN CHOICE (log 207): where make_room finds room by its totals and no run of the
N-tier holds the copy, the answer is a direct grant. DESIGN CHOICE (log 208): a halt that re-enters after a staging counts in
HEAT_DEMANDS again. -/
def onHalt (h cls : Nat) (s : State) : Halt × State :=
  let t := s.tensor h
  let w := s
  let s := s.addSat HEAT_DEMANDS 1
  let grant := (Halt.direct, s.addSat HEAT_GRANTS 1)
  if !placementOn w then (.wait, w)
  else if t.move = MOVE_DEMOTE then (.resume, cancelDemotion h s)
  else if t.move ≠ 0 then (.wait, raiseMove h cls s)
  else if t.inN then (.resume, s)
  else if noCopy t then (.resume, s)
  else if !t.inD then
    match startMove h MOVE_STAGE cls false s with
    | some s => (.wait, s)
    | none => (.noRoom, s)
  else if t.cls < 2 && copySize t + LOW_WATER ≤ ntFree s then
    match startMove h MOVE_PROMOTE cls false s with
    | some s => (.wait, s)
    | none => grant
  else grant

/-- Whether an access by handle meets a halt (R188). -/
def halts (s : State) (h : Nat) : Bool :=
  let t := s.tensor h
  t.valid && !t.fixed && !noCopy t && (t.move ≠ 0 || !t.inN)

/-- The largest free gap of a range. -/
def largestGap (s : State) (dTier : Bool) (lo hi : Nat) : Nat := (freeGaps s dTier lo hi).foldl (fun n g => max n g.2) 0

/-- The largest free run of the N-tier, and of either D-tier half (R464). -/
def largestN (s : State) : Nat := largestGap s false N_SYSTEM N_CAPACITY
def largestD (s : State) : Nat :=
  max (if halfOn s 0 then largestGap s true 0 D_HALF else 0) (if halfOn s 1 then largestGap s true D_HALF D_CAPACITY else 0)

/-- A shortfall in MiB, rounded up (R464). -/
def mib (n : Nat) : Nat := ceilDiv n (2 ^ 20)

/-- Shortfall of a D-tier copy of `size` bytes (R464). -/
def shortD (s : State) (size : Nat) : Nat := mib (size - largestD s)

/-! ### Pins (R219) -/

/-- Bytes of the pinned working sets. -/
def pinnedBytes (s : State) : Nat :=
  (handles s).foldl (fun n h => let t := s.tensor h; if t.workset then n + copySize t else n) 0

/-- The limit of R214: 75 % of the allocatable N-tier. -/
def PIN_LIMIT : Nat := (N_CAPACITY - N_SYSTEM) * 75 / 100

/-- Unpinned copies demoted in class 2, coldest first, until `need` bytes would be free. -/
def demoteFor (need : Nat) (keep : List Nat) (s : State) : State :=
  ((unpinned s).filter (fun h => !keep.contains h)).foldl (fun s h =>
    if ntFree s + demoting s < need then (startMove h MOVE_DEMOTE 2 false s).getD s else s) s

/-- Bytes that the free N-tier and every unpinned copy make together. -/
def reachableN (s : State) (keep : List Nat) : Nat :=
  ntFree s + demoting s + ((unpinned s).filter (fun h => !keep.contains h)).foldl (fun n h => n + copySize (s.tensor h)) 0

/-- Whether handles can be pinned: within the limit, and with space (R214, R219). -/
def canPin (hs : List Nat) (s : State) : Bool :=
  let new := hs.filter (fun h => !(s.tensor h).workset)
  let bytes := new.foldl (fun n h => n + copySize (s.tensor h)) 0
  let need := (new.filter (fun h => !(s.tensor h).inN)).foldl (fun n h => n + copySize (s.tensor h)) 0
  pinnedBytes s + bytes ≤ PIN_LIMIT && need ≤ reachableN s new

/-- The promotion of a pin in class 2, or one more unpinned copy demoted where no run holds its copy; while demotions run, their
space is waited for. False: every unpinned copy is gone, and no run holds it. -/
def pinPromote : Nat → List Nat → Nat → State → Bool × State
  | 0, _, _, s => (false, s)
  | n + 1, keep, h, s =>
    match startMove h MOVE_PROMOTE 2 false s with
    | some s => (true, s)
    | none =>
      if demoting s ≠ 0 then (true, s)
      else match (unpinned s).filter (fun v => !keep.contains v) with
        | [] => (false, s)
        | v :: _ => (match startMove v MOVE_DEMOTE 2 false s with
          | some s => pinPromote n keep h s
          | none => (false, s))

/-- One tensor of a working set on its way into the N-tier: its move raised or started in class 2, or what makes that
impossible, status and DETAIL. DESIGN CHOICE (log 169): where the free runs hold none for the copy once every unpinned copy has
left, the pin fails for want of space with the shortfall of the largest run. -/
def pinOne (keep : List Nat) (acc : Option (Nat × Nat) × State) (h : Nat) : Option (Nat × Nat) × State :=
  let s := acc.2
  let t := s.tensor h
  let give := fun (bad : Nat × Nat) => (match acc.1 with | some f => some f | none => some bad, s)
  if t.move = MOVE_PROMOTE || t.move = MOVE_STAGE then (acc.1, raiseMove h 2 s)
  else if noCopy t then give (ST_ADDR_UNMAPPED, (globalAddr s 2 t.fBase).toNat)
  else if !t.inD then
    match startMove h MOVE_STAGE 2 false s with
    | some s => (acc.1, s)
    | none => give (ST_NO_ROOM, shortD s (copySize t))
  else
    let r := pinPromote ((unpinned s).length + 1) keep h s
    if r.1 then (acc.1, r.2)
    else (match acc.1 with | some f => some f | none => some (ST_NO_ROOM, mib (copySize t - largestN r.2)), r.2)

/-- The pins of a working set made: WORKSET set, copies demoted for space, and each tensor's move; with what makes a pin
impossible. While the placement engine does not serve, they wait (R22). -/
def pinStep (hs : List Nat) (s : State) : Option (Nat × Nat) × State :=
  if !placementOn s then (none, s)
  else
  let s := hs.foldl (fun s h => s.setTensor h { s.tensor h with workset := true }) s
  let lack := hs.filter (fun h => !(s.tensor h).inN)
  let need := lack.foldl (fun n h => if (s.tensor h).move = MOVE_PROMOTE then n else n + copySize (s.tensor h)) 0
  lack.foldl (pinOne hs) (none, demoteFor need hs s)

/-- Whether a demotion of a handle to be pinned is cancelled, keeping its N-tier copy. -/
def keepPinned (hs : List Nat) (s : State) : State :=
  if !placementOn s then s
  else hs.foldl (fun s h => if (s.tensor h).move = MOVE_DEMOTE then cancelDemotion h s else s) s

/-- Whether every handle of a working set stands in N-tier. -/
def pinned (hs : List Nat) (s : State) : Bool := hs.all (fun h => (s.tensor h).inN)

/-- Pins released (R219). -/
def unpin (hs : List Nat) (s : State) : State :=
  hs.foldl (fun s h => s.setTensor h { s.tensor h with workset := false }) s

/-! ### The tensor table (R206, R207, R210) -/

/-- A tensor's moves end, its copies are free, and its handle returns; GEN counts the freeing, from 0xFFFF to 1. -/
def freeTensor (h : Nat) (s : State) : State :=
  let t := s.tensor h
  let s := dropVictim h (setMoves (s.tier.moves.filter (·.handle ≠ h)) s)
  let s := freeRuns (fun a => a.who == .copy h || a.who == .region h) s
  let s := if t.inN then clearDirty t.nBase (copySize t) s else s
  let s := { s with tier := { s.tier with
    pages := tclear s.tier.pages (h * 2 ^ 20) ((h + 1) * 2 ^ 20)
    stepped := tclear s.tier.stepped (h * 2 ^ 40) ((h + 1) * 2 ^ 40) } }
  refreshHeat (s.setTensor h { gen := if t.gen = 0xFFFF then 1 else t.gen + 1 })

/-- The 64 bytes of a tensor table entry (R207). -/
def tensorRaw (t : Tensor) : BitVec 512 :=
  if !t.valid then 0
  else
    let w := b2n t.valid + 2 * b2n t.fixed + 4 * b2n t.readOnly + 8 * b2n t.workset + 16 * b2n t.share
      + 2 ^ 5 * t.cls + 2 ^ 7 * t.origin + 2 ^ 9 * b2n t.inN + 2 ^ 10 * b2n t.inD + 2 ^ 11 * t.move
      + 2 ^ 13 * b2n t.moveUp + 2 ^ 16 * t.format
    BitVec.ofNat 512 (packBytes [(0, 4, w), (4, 1, if t.owned then t.hull + 128 else 0),
      (6, 2, if t.bound then t.tenant + 2 ^ 15 else 0), (8, 8, t.elem), (16, 8, t.scale), (24, 8, t.nBase),
      (32, 8, t.dBase), (40, 8, t.fBase), (48, 1, t.heat), (50, 2, t.gen), (52, 4, t.binds)])

/-- A tensor table entry from its 64 bytes (R207), keeping what the entry does not hold. -/
def tensorOf (old : Tensor) (e : BitVec 512) : Tensor :=
  let w := eb e 0 4
  { old with
    valid := bit w 0, fixed := bit w 1, readOnly := bit w 2, workset := bit w 3, share := bit w 4
    cls := bits w 5 2, origin := bits w 7 2, inN := bit w 9, inD := bit w 10, move := bits w 11 2, moveUp := bit w 13
    format := bits w 16 4, hull := bits (eb e 4 1) 0 7, owned := bit (eb e 4 1) 7
    tenant := bits (eb e 6 2) 0 10, bound := bit (eb e 6 2) 15, elem := eb e 8 8, scale := eb e 16 8
    nBase := eb e 24 8, dBase := eb e 32 8, fBase := eb e 40 8, heat := eb e 48 1, gen := eb e 50 2, binds := eb e 52 4 }

/-- Scale bytes that a format's element plane needs (R208). -/
def shapeOk (fmt elem scale : Nat) : Bool :=
  if fmt = 0 then elem % 16 = 0 && scale = elem / 16
  else if fmt = 1 then elem % 32 = 0 && scale = elem / 32
  else if fmt = 2 then elem % 64 = 0 && scale = elem / 64
  else scale = 0

/-- A D-origin tensor in a free handle, with every page unwritten (R208, R211); 1 = no handle, 2 = no room. -/
def defineTensor (t : Tensor) (s : State) : Sum Nat (Nat × State) :=
  match freeHandle s with
  | none => .inl 1
  | some h =>
    match allocD (copySize t) (.copy h) s with
    | none => .inl 2
    | some r => .inr (h, refreshHeat (r.2.setTensor h
        { t with valid := true, origin := 1, inD := true, dBase := r.1, gen := (r.2.tensor h).gen }))

/-- An F-origin tensor in a free handle (R239). -/
def registerFTensor (f : FTensor) (archive : Nat) (s : State) : Option (Nat × State) :=
  (freeHandle s).map (fun h => (h, s.setTensor h
    { valid := true, readOnly := true, cls := f.cls, origin := 2, format := f.format, elem := f.elem, scale := f.scale,
      fBase := f.fBase, archive, gen := (s.tensor h).gen }))

end Sys2Proof.Machine
end

