-- ==== Sys2Proof/Machine/Sched.lean ====
section
/-! DEFINITION. The cyclic schedule and the arbiters of the scheduled resources (R257–R272), calibration windows (R205),
and breaches of guarantees (R269–R271). -/

namespace Sys2Proof.Machine

/-! ### The schedule table (R259, R263) -/

/-- The default table: BACKGROUND in every sixteenth slot, else FOREGROUND (R263). -/
def cycDefault (n : Nat) : Word := if n % 16 = 15 then 2#32 else 0#32

/-- Entry for slot `n` and resource `r` of a bank. -/
def cycEntry (s : State) (bank n r : Nat) : Word := tget s.sched.table (2048 * bank + 4 * n + r) (cycDefault n)

/-- An entry written. -/
def setCycEntry (bank n r : Nat) (v : Word) (s : State) : State :=
  { s with sched := { s.sched with table := tput s.sched.table (2048 * bank + 4 * n + r) v (cycDefault n) } }

def activeBank (s : State) : Nat := s.rd CYC_BANK
def shadowBank (s : State) : Nat := 1 - activeBank s

def cycKind (e : Word) : Nat := bits e.toNat 0 2

/-- Hulls that an entry names. -/
def cycHulls (e : Word) : List Nat :=
  if cycKind e = 1 then (List.range (bits e.toNat 2 2 + 1)).map (fun i => bits e.toNat (4 + 7 * i) 7) else []

/-- A HULLS entry for a list of hulls; for none, FOREGROUND. -/
def cycOf (hs : List Nat) : Word :=
  if hs = [] then 0#32
  else BitVec.ofNat 32 (1 + 4 * (hs.length - 1)
    + (hs.zip (List.range hs.length)).foldl (fun n e => n + e.1 * 2 ^ (4 + 7 * e.2)) 0)

/-- The entry in force at a resource. -/
def slotEntry (s : State) (r : Nat) : Word := cycEntry s (activeBank s) s.sched.slot r

/-- Whether a hull is named anywhere in a bank. -/
def cycNames (s : State) (bank h : Nat) : Bool :=
  (List.range 512).any (fun n => (List.range 4).any (fun r => (cycHulls (cycEntry s bank n r)).contains h))

/-- CYC_SLOTS of each resource follows the active bank (R272). -/
def refreshCycSlots (s : State) : State :=
  let b := activeBank s
  (List.range 4).foldl (fun s r =>
    let bg := ((List.range 512).filter (fun n => cycKind (cycEntry s b n r) = 2)).length
    let hl := ((List.range 512).filter (fun n => cycKind (cycEntry s b n r) = 1)).length
    s.wr32 (cycRes r) (bg + hl * 2 ^ 16)) s

/-- A destroyed hull leaves both banks (R263). -/
def cycRemoveHull (h : Nat) (s : State) : State :=
  refreshCycSlots ((List.range 2).foldl (fun s b => (List.range 512).foldl (fun s n => (List.range 4).foldl (fun s r =>
    let hs := cycHulls (cycEntry s b n r)
    if hs.contains h then setCycEntry b n r (cycOf (hs.filter (· ≠ h))) s else s) s) s) s)

/-- Both banks at the default table, bank 0 active (R263). -/
def cycReset (s : State) : State :=
  refreshCycSlots ((({ s with sched := { s.sched with table := [] } }).wr CYC_BANK 0).wr CYC_ARMED 0)

/-! ### Breaches (R269–R271) -/

def PARTY_GUARDIAN : Nat := 0
def PARTY_TWIN : Nat := 1
def PARTY_HULL : Nat := 2
def PARTY_SLOT : Nat := 3

/-- Requests that are ADMITTED or RUNNING, by index. -/
def liveRequests (s : State) : List Nat :=
  (s.srv.reqs.filter (fun e => e.2.used && (e.2.state = 1 || e.2.state = 2))).map (·.1)

/-- A mark put on requests. -/
def markRequests (p : Nat → Bool) (f : Request → Request) (s : State) : State :=
  (liveRequests s).foldl (fun s i => if p i then s.setRequest i (f (s.request i)) else s) s

/-- Whether a step that serves a request runs now. -/
def runsNow (s : State) (i : Nat) : Bool :=
  match (s.hull (s.request i).hull).step with
  | some st => st.begun && st.segs.any (fun g => g.req = i)
  | none => false

/-- Whether the guardian holds a pod below what its hull has asked for and been granted. -/
def guardHeld (s : State) (p : Nat) : Bool :=
  s.rd (POD_LIMIT_POINT p) < min (s.rd (POD_REQ_POINT p)) (s.pod p).rampPoint

/-- Hulls that the active table names (R426). -/
def namedHull (s : State) (h : Nat) : Bool := (s.hull h).live && cycNames s (activeBank s) h

/-- Tenant slots with a request running in a hull: one that is RUNNING, or whose first step runs now. -/
def tenantsOf (s : State) (h : Nat) : List Nat :=
  ((liveRequests s).filter (fun i => (s.request i).hull = h && ((s.request i).state = 2 || runsNow s i))).map
    (fun i => (s.request i).tenant)

/-- Tenant slots with a live request in a hull that has been admitted. -/
def tenantsIn (s : State) (h : Nat) : List Nat :=
  ((liveRequests s).filter (fun i => (s.request i).hull = h)).map (fun i => (s.request i).tenant)

/-- A mark put on the step that runs on a device that does not lead its hull; it reaches the lead with the boundary report. -/
def markStep (h : Nat) (f : Step → Step) (s : State) : State :=
  match (s.hull h).step with
  | some st => if (s.hull h).devIndex = 0 || !st.begun then s else s.setHull h { s.hull h with step := some (f st) }
  | none => s

/-- Whether the guardian holds a pod of a hull that the active table names: a reservation is broken while it does (R269). -/
def heldBreach (s : State) (h : Nat) : Bool := namedHull s h && (s.hull h).pods.any (guardHeld s)

/-- The breaches in progress mark what runs now: the requests of the tenants of each hull that the guardian holds, and its
step on a device that does not lead it (R270). -/
def markBreaches (s : State) : State :=
  ((tkeys s.srv.hulls).filter (heldBreach s)).foldl (fun s h =>
    let ts := tenantsOf s h
    markStep h (fun st => { st with breach := true })
      (markRequests (fun i => ts.contains (s.request i).tenant && runsNow s i) (fun q => { q with breach := true }) s)) s

/-- A higher-ranked cause of a shortfall noted for a slot: rank + 16 × party; the highest rank stays. -/
def noteCause (t rank party : Nat) (s : State) : State :=
  let v := s.slot t
  if v.floor = 0 then s
  else if v.cause = 0 || rank < v.cause % 16 then s.setSlot t { v with cause := rank + 16 * party } else s

/-- A breach: event at most once per pair of parties and frame, flag and companion counter each time, and the mark on those
requests of the affected tenants whose steps ran during it: now, or for a floor within the window that it tests (R270). -/
def breach (hr hk hid lr lk lid : Nat) (s : State) : State :=
  let key := (hk, hid, lk, lid)
  let s := if s.sched.breaches.contains key then s
    else
      let s := { s with sched := { s.sched with breaches := s.sched.breaches ++ [key] } }
      recordEvent 0x0401 (if lk = PARTY_HULL then some lid else none) (if lk = PARTY_SLOT then some lid else none)
        (payload [(32, 1, hr), (33, 1, hk), (34, 2, hid), (36, 1, lr), (37, 1, lk), (38, 2, lid), (40, 8, s.sched.frame)]) s
  let s := s.raise CYC_STATUS 2
  let ts := if lk = PARTY_HULL then tenantsOf s lid else [lid]
  let s := markRequests (fun i => ts.contains (s.request i).tenant
    && (runsNow s i || (lk = PARTY_SLOT && (s.request i).ran))) (fun q => { q with breach := true }) s
  let s := if lk = PARTY_HULL then markStep lid (fun st => { st with breach := true }) s else s
  if lk = PARTY_HULL then ts.foldl (fun s t => noteCause t hr hid s) s else s

/-! ### Arbiters (R264–R268) -/

/-- What an arbiter sees of a waiting request. -/
structure Cand where
  id   : Nat
  cls  : Nat
  hull : Nat
  /-- Hop number of a packet's virtual channel; 0 at a tier (R368). -/
  hop  : Nat := 0

/-- The hull key of traffic without a hull. -/
def NO_HULL : Nat := 128

/-- The class of a hull's or other traffic in the present slot (R264). -/
def classOf (s : State) (r : Nat) (hull : Option Nat) (cls : Nat) : Nat :=
  if cls = 0 || cls = 3 then cls
  else match hull with
    | some h => if (cycHulls (slotEntry s r)).contains h then 1 else 2
    | none => cls

/-- The requests that wait at an arbiter of a tier, in arrival order. -/
def tierCands (s : State) (r unit : Nat) : List Cand :=
  (s.tier.queue.filter (fun a => !a.granted && !a.recover)).filterMap (fun a =>
    match arbiterFor s a with
    | some (r2, u, _) =>
      if r2 = r && u = unit then
        some { id := a.id, cls := classOf s r a.hull a.req.cls, hull := a.hull.getD NO_HULL } else none
    | none => none)

/-- The packets that the next flit of a virtual channel carries, with their hulls. -/
def vcLoad (s : State) (p v : Nat) : List (Option Nat × Packet) :=
  (streamOf (s.port p) v).take (nextParts (s.port p) v).length

/-- A virtual channel with a flit to send: its class is the highest of the packets that the flit carries (R368, log 219), and
its hull that of the first such packet. -/
def vcCand (s : State) (p v : Nat) : Cand :=
  let xs := (vcLoad s p v).map (fun x => (classOf s 3 x.1 (packetClass x.2), x.1.getD NO_HULL))
  let cls := xs.foldl (fun m x => min m x.1) 3
  { id := v, cls, hull := ((xs.find? (fun x => x.1 = cls)).map (·.2)).getD NO_HULL, hop := vcHop v }

/-- The virtual channels of a port that have a flit to send, a place at the peer and one in the retry buffer (R366–R368). -/
def portCands (s : State) (p : Nat) : List Cand :=
  let t := s.port p
  if !portUp s p || 2048 ≤ t.retry.length then []
  else ((List.range 7).filter (fun v => streamOf t v ≠ [] && placeFree t v)).map (vcCand s p)

/-- The next flit of a virtual channel leaves. It acknowledges and returns credits as every flit does, carries the class of
its grant, and stands in the retry buffer until it is acknowledged (R365, R366). -/
def sendFlit (p v cls : Nat) (s : State) : State :=
  let t := s.port p
  let parts := nextParts t v
  let f : LinkFlit := {
    seq := t.txSeq, ack := (t.rxSeq + 4095) % 4096, nak := false, vc := v, cls, credits := creditsOwed t
    time := if t.timeDue then some (2 * s.counter.toNat) else none, parts }
  let left := match parts.getLast? with | some x => if partDone x then 0 else x.off + x.len | none => 0
  let s := s.setPort p { t with
    egress := dropSent v (parts.filter partDone).length t.egress
    sent := tput t.sent v left 0
    txSeq := (t.txSeq + 1) % 4096
    used := tput t.used v (tget t.used v 0 + 1) 0
    owed := owedAfter t
    ackDue := false
    timeDue := false
    retry := t.retry ++ [f] }
  refreshLag ((s.add64 (portBlock p + 0x18) 512).emit (.flit p f))

/-- Metered unit of an arbiter (R258): stack, half, tier or port. -/
def meterUnit (r unit : Nat) : Nat := if r = 0 then unit / 64 else if r = 1 then unit / 32 else if r = 2 then 0 else unit

/-- Arbiters that share a meter: the pseudo-channels of a stack, the channels of a half or of the F-tier, a port (R258). -/
def meterArbiters (r : Nat) : Nat := if r = 0 then 64 else if r = 1 then 32 else if r = 2 then 256 else 1

/-- Metered units of a resource. -/
def meterUnits (r : Nat) : Nat := if r = 0 then 12 else if r = 1 then 2 else if r = 2 then 1 else 16

def meterKey (r u : Nat) : Nat := r * 256 + u

/-- The service time that class 0 and maintenance leave of one frame at a metered unit, in 0.1 ns over its arbiters (R267). -/
def frameTime (s : State) (r u : Nat) : Nat :=
  meterArbiters r * 10000000 - tget s.sched.c0 (meterKey r u) 0 - tget s.sched.maint (meterKey r u) 0

/-- Cap of the class-3 meter, in 0.1 ns: 8 % of a frame, or of 16 consecutive frames at the F-tier (R267). -/
def bgCap (s : State) (r u : Nat) : Nat :=
  (frameTime s r u + (if r = 2 then 15 * meterArbiters 2 * 10000000 else 0)) * 8 / 100

/-- The class-3 meter: this frame's service with the debt, and at the F-tier that of the 15 frames before. -/
def bgMeter (s : State) (r u : Nat) : Nat :=
  tget s.sched.bg (meterKey r u) 0 + (if r = 2 then s.sched.fLast.foldl (· + ·) 0 else 0)

/-- Maintenance blocks a metered unit for a time of one arbiter, in 0.1 ns. -/
def noteMaint (r u time : Nat) (s : State) : State :=
  let k := meterKey r u
  { s with sched := { s.sched with maint := tput s.sched.maint k (tget s.sched.maint k 0 + time) 0 } }

/-- The class that an arbiter grants next (R265). -/
def grantClass (s : State) (r unit : Nat) (cs : List Cand) : Option Nat :=
  let has := fun c => cs.any (fun x => x.cls = c)
  let capped := bgCap s r (meterUnit r unit) ≤ bgMeter s r (meterUnit r unit)
  let three := has 3 && !capped
  let back := cycKind (slotEntry s r) = 2
  if has 0 && has 1 && tget s.sched.lastC0 (r * 4096 + unit) false then some 1
  else if has 0 then some 0
  else if has 1 then some 1
  else if back && three then some 3
  else if has 2 then some 2
  else if three then some 3
  else none

/-- The first of some requests in a round of `n` parties that starts at party `next`; of one party, the oldest. -/
def firstFrom (n next : Nat) (party : Cand → Nat) (xs : List Cand) : Option Cand :=
  let d := fun (x : Cand) => (party x + n - next % n) % n
  xs.foldl (fun (best : Option Cand) x => match best with
    | some b => if d x < d b then some x else some b
    | none => some x) none

/-- The request granted within a class at a tier: round-robin by hull, in arrival order within a hull; class 3 in arrival
order. `next` is the hull after the one served last. DESIGN CHOICE (log 170): the manual does not say where the round-robin
starts, nor where traffic without a hull stands in it: it starts at hull 0, and such traffic is one party after hull 127. -/
def grantWithin (next cls : Nat) (cs : List Cand) : Option Cand :=
  let xs := cs.filter (fun x => x.cls = cls)
  if cls = 3 then xs.head? else firstFrom 129 next (·.hull) xs

/-- The virtual channel granted within a class at a port: those of the highest hop number first, then round-robin (R368). -/
def grantVc (next cls : Nat) (cs : List Cand) : Option Cand :=
  let ys := cs.filter (fun x => x.cls = cls)
  let top := ys.foldl (fun n x => max n x.hop) 0
  firstFrom 7 next (·.id) (ys.filter (fun x => x.hop = top))

/-- A class-1 wait in 0.1 ns is observed: the largest is kept, and one beyond the bound is a breach by a higher-ranked
guarantee, or else BOUND_EXCEEDED (R266, R270, R271). -/
def observeWait (r hull waited : Nat) (cause : BlockCause) (s : State) : State :=
  let b := cycRes r
  let s := s.wr32 (b + 4) (max (s.rd32 (b + 4)) (min waited (2 ^ 32 - 1)))
  let step := if r = 0 then 135 else if r = 1 then 180 else if r = 2 then 670000 else 46
  let bound := s.rd32 (b + 8) + ((cycHulls (slotEntry s r)).length - 1) * step
  if waited ≤ bound then s
  else
    let s := s.addSat (b + 0xC) 1
    match cause with
    | .guardian => breach 1 PARTY_GUARDIAN 0 3 PARTY_HULL hull s
    | .twin => breach 2 PARTY_TWIN 0 3 PARTY_HULL hull s
    | .other => markStep hull (fun st => { st with boundOver := true })
        (markRequests (fun i => (s.request i).hull = hull && runsNow s i) (fun q => { q with boundOver := true })
          (s.raise CYC_STATUS 3))

/-- The arbiter's own state after a grant, its service time in 0.1 ns. -/
def noteGrant (r unit service : Nat) (c : Cand) (oneWaits : Bool) (s : State) : State :=
  let k := meterKey r (meterUnit r unit)
  let sc := s.sched
  let sc := { sc with lastC0 := tput sc.lastC0 (r * 4096 + unit) (c.cls = 0 && oneWaits) false
                      lastHull := tput sc.lastHull ((r * 4096 + unit) * 4 + c.cls)
                        (if r = 3 then (c.id + 1) % 7 else (c.hull + 1) % 129) 0 }
  let sc := if c.cls = 3 then { sc with bg := tput sc.bg k (tget sc.bg k 0 + service) 0
                                        c3 := tput sc.c3 k (tget sc.c3 k 0 + service) 0 }
    else if c.cls = 0 then { sc with c0 := tput sc.c0 k (tget sc.c0 k 0 + service) 0 } else sc
  { s with sched := sc }

/-- Whether an arbiter would grant a request that comes up now before all that wait there. -/
def passes (s : State) (r unit : Nat) (x : Cand) : Bool :=
  let cs := tierCands s r unit ++ [x]
  match grantClass s r unit cs with
  | some c => c = x.cls && !cs.any (fun y => y.cls = c && y.id ≠ x.id)
  | none => false

/-- Background traffic of a tier in one event: class 3, without a hull (R264). -/
def backCand (s : State) : Cand := { id := s.tier.nextId, cls := 3, hull := NO_HULL }

/-- The maintenance that blocked an arbiter's banks or whole unit has ended by its next grant (R205). -/
def endBlocks (r unit : Nat) (s : State) : State :=
  if 1 < r then s
  else
    let d := r = 1
    let u := meterUnit r unit
    let s := { s with tier := { s.tier with blocked := s.tier.blocked.filter (fun b => !(b.1 == d && b.2.1 = u)) } }
    s.wr ⟨unitBlock d u, 2, 1⟩ 0

/-- The resource number of R258. -/
def resourceNo : Resource → Nat
  | .nTier => 0
  | .dTier => 1
  | .fTier => 2
  | .fabric => 3

/-- ARBITER_GRANT: an arbiter grants one waiting request (R265). `waited` is its blocking and `service` its service
time, both in 0.1 ns, `cause` what made a class-1 wait exceed its bound. At a fabric or twin port
the next flit of the granted virtual channel leaves. -/
def execArbiterGrant (res : Resource) (unit waited service : Nat) (cause : BlockCause) (s : State) : Result :=
  let r := resourceNo res
  let cs := if r = 3 then portCands s unit else tierCands s r unit
  match grantClass s r unit cs with
  | none => .next s
  | some c =>
    let next := tget s.sched.lastHull ((r * 4096 + unit) * 4 + c) 0
    match (if r = 3 then grantVc next c cs else grantWithin next c cs) with
    | none => .next s
    | some x =>
      let s := noteGrant r unit service x (cs.any (fun y => y.cls = 1)) (endBlocks r unit s)
      let s := if c = 1 then
          let held := (cs.filter (fun y => y.cls = 2 && y.hull < NO_HULL && y.hull ≠ x.hull)).flatMap (fun y => tenantsIn s y.hull)
          observeWait r x.hull waited cause (held.foldl (fun s t => noteCause t 3 x.hull s) s)
        else s
      if r = 3 then .next (sendFlit unit x.id c s)
      else .next { s with tier := { s.tier with
        queue := s.tier.queue.map (fun a => if a.id = x.id then { a with granted := true } else a) } }

/-! ### Slots and calibration (R205, R257) -/

/-- The counter at the start of slot `n` of frame `f` (R257). -/
def slotStart (f n : Nat) : Nat := f * 1000000 + n * 15625 / 8

/-- The step counter moves forward to a value, never back (R398). DESIGN CHOICE (log entry 222): at the end of its range, after
584 years, it stays there. -/
def advanceTo (v : Nat) (s : State) : State :=
  { s with counter := BitVec.ofNat 64 (min (2 ^ 64 - 1) (max s.counter.toNat v)) }

/-- The slot of its frame in which a counter value lies: the last n with ⌊n × 15,625 / 8⌋ at or before it (R257). -/
def slotAt (c : Nat) : Nat := (8 * (c % 1000000) + 7) / 15625

/-- Frame and slot follow the step counter (R257). Frame boundaries that it has passed at once are due. -/
def syncFrame (s : State) : State :=
  let c := s.counter.toNat
  let f := c / 1000000
  let n := slotAt c
  ({ s with sched := { s.sched with frame := f, slot := n, due := s.sched.due + (f - s.sched.frame) } }.wr CYC_SLOT n).wr64
    CYC_FRAME f

/-- No frame boundary is due. -/
def clearDue (s : State) : State := { s with sched := { s.sched with due := 0 } }

/-- CALIBRATION_WINDOW: a window opens for a powered stack or half in a slot that reserves the resource for no hull, at
most once per 50 ms or 100 ms (R205). It blocks the whole unit until the next grant there, for `ns`, at most 1.5 µs or
2 µs. -/
def execCalibrationWindow (place : UnitAt) (ns : Nat) (s : State) : Result :=
  let dTier := place.dTier
  let unit := place.unit
  let r := if dTier then 1 else 0
  let k := r * 16 + unit
  let b := unitBlock dTier unit
  let early := match s.sched.calLast.find? (fun e => e.1 = k) with
    | some e => s.sched.frame < e.2 + (if dTier then 100 else 50)
    | none => false
  if cycKind (slotEntry s r) = 1 || early || !bit (s.rd32 b) 1 || (if dTier then 2 else 12) ≤ unit then .next s
  else
    let s := { s with sched := { s.sched with calLast := tput s.sched.calLast k s.sched.frame (2 ^ 64) } }
    let s := { s with tier := { s.tier with blocked := s.tier.blocked ++ [(dTier, unit, 1000)] } }
    let s := noteMaint r unit (meterArbiters r * 10 * min ns (if dTier then 2000 else 1500)) s
    .next ((s.wr ⟨b, 2, 1⟩ 1).addSat (b + 0x20) 1)

/-- CAL_OVERDUE: a window that has waited 1 s sets the flag (R205). -/
def execCalOverdue (dTier : Bool) (unit : Nat) (s : State) : Result :=
  if (if dTier then 2 else 12) ≤ unit then .next s else .next (s.raise (unitBlock dTier unit) 6)

/-- A class's service in this frame over the metered units of a resource. -/
def classTime (m : Tab Nat) (r : Nat) : Nat :=
  (List.range (meterUnits r)).foldl (fun n u => n + tget m (meterKey r u) 0) 0

/-- A share of this frame in 0.1 %, of the time that class 0 and maintenance leave (R267). -/
def classShare (s : State) (m : Tab Nat) (r : Nat) : Nat :=
  let time := (List.range (meterUnits r)).foldl (fun n u => n + frameTime s r u) 0
  min 1023 (classTime m r * 1000 / max 1 time)

/-- Meters at a frame boundary: the shares of the frame that ends, its peak, and the debt carried on; the F-tier's service
joins that of its last 15 frames (R267, R268). -/
def rollMeters (s : State) : State :=
  let s := (List.range 4).foldl (fun s r =>
    let c3 := classShare s s.sched.c3 r
    let b := cycRes r
    (s.wr32 (b + 0x10) (c3 + classShare s s.sched.c0 r * 2 ^ 16)).wr32 (b + 0x14) (max (s.rd32 (b + 0x14)) c3)) s
  let debt := s.sched.bg.map (fun e => (e.1, if e.1 / 256 = 2 then 0 else e.2 - bgCap s (e.1 / 256) (e.1 % 256)))
  { s with sched := { s.sched with
    bg := debt.filter (fun e => e.2 ≠ 0)
    fLast := (tget s.sched.bg (meterKey 2 0) 0 :: s.sched.fLast).take 15
    c0 := [], c3 := [], maint := [], breaches := [] } }

end Sys2Proof.Machine
end

