-- ==== Sys2Proof/Machine/Stream.lean ====
section
/-! DEFINITION. Stream engines: descriptors, their chunks and queues, halts for placement moves, delivery and completion
(R177–R189, R194, R225). -/

namespace Sys2Proof.Machine

/-! ### Descriptor fields (R177, R178) -/

def Desc.write (d : Desc) : Bool := bit (eb d.raw 0 2) 0
def Desc.tside (d : Desc) : Nat := bits (eb d.raw 0 2) 1 2
def Desc.tkind (d : Desc) : Nat := bits (eb d.raw 0 2) 3 1
def rawEngine (r : BitVec 512) : Nat := bits (eb r 0 2) 4 2
def Desc.scale (d : Desc) : Bool := bit (eb d.raw 0 2) 6
def Desc.dims (d : Desc) : Nat := bits (eb d.raw 0 2) 7 3
def Desc.chunkG (d : Desc) : Nat := eb d.raw 2 2
def Desc.chunkBytes (d : Desc) : Nat := 64 * d.chunkG
def Desc.tileStart (d : Desc) : Nat := eb d.raw 4 4
def Desc.tierStart (d : Desc) : Nat := eb d.raw 8 8
def Desc.handle (d : Desc) : Nat := bits d.tierStart 0 20
def Desc.count (d : Desc) (k : Nat) : Nat := bits (eb d.raw (16 + 8 * k) 8) 0 16
def Desc.tileStride (d : Desc) (k : Nat) : Int := signed (bits (eb d.raw (16 + 8 * k) 8) 16 24) 24
def Desc.tierStride (d : Desc) (k : Nat) : Int := signed (bits (eb d.raw (16 + 8 * k) 8) 40 24) 24

/-- Dimensions that a descriptor runs: at most six. -/
def Desc.dimList (d : Desc) : List Nat := List.range (min d.dims 6)

/-- Chunks of the descriptor. -/
def Desc.chunks (d : Desc) : Nat := d.dimList.foldl (fun n k => n * d.count k) 1

/-- Index of dimension `k` at chunk `n`: dimension 0 is the fastest. -/
def Desc.indexAt (d : Desc) (n k : Nat) : Nat :=
  n / ((List.range k).foldl (fun m j => m * d.count j) 1) % d.count k

/-- Σ ik × stridek × 64. -/
def Desc.offsetAt (d : Desc) (n : Nat) (stride : Nat → Int) : Int :=
  64 * d.dimList.foldl (fun (a : Int) k => a + (d.indexAt n k : Int) * stride k) 0

/-- The highest dimension whose index is non-zero at a chunk: DETAIL of DESC_BOUND (R186). -/
def Desc.levelAt (d : Desc) (n : Nat) : Nat :=
  d.dimList.foldl (fun m k => if d.indexAt n k ≠ 0 then k else m) 0

/-- Tile-side address of a chunk (R178). -/
def Desc.tileAddr (d : Desc) (n : Nat) : Int := (d.tileStart : Int) + d.offsetAt n d.tileStride

/-- Tier-side target of a chunk (R177, R178); none when a byte offset would be negative. -/
def Desc.target (d : Desc) (n : Nat) : Option Target :=
  let o := d.offsetAt n d.tierStride
  if d.tkind = 0 then
    let a := (bits d.tierStart 20 44 : Int) + o
    if a < 0 then none else some (.handle d.handle d.scale a.toNat)
  else some (.addr (BitVec.ofNat 64 (wrap ((d.tierStart : Int) + o) 64)))

/-- Whether the descriptor itself is well formed (R177, R179, R186). -/
def Desc.wellFormed (d : Desc) : Bool :=
  1 ≤ d.dims && d.dims ≤ 6 && d.dimList.all (fun k => d.count k ≠ 0) && 1 ≤ d.chunkG && d.chunkG ≤ 64
    && (d.tside = 0 || (d.tside = 1 && !d.write) || (d.tside = 2 && d.write))
    && bits (eb d.raw 0 2) 10 6 = 0

/-- Local tile and SRAM offset of a TSIDE 0 chunk. -/
def Desc.sramAt (d : Desc) (n : Nat) : Nat × Nat :=
  let a := (d.tileAddr n).toNat
  (a / 2 ^ 18, a % 2 ^ 18)

/-- Channel key of a TSIDE 1 descriptor: local tile and channel. -/
def Desc.chanAt (d : Desc) : Nat × Nat := (bits d.tileStart 18 8, bits d.tileStart 26 4)

/-- Hub write port of a TSIDE 2 descriptor. -/
def Desc.hubAt (d : Desc) : Nat := bits d.tileStart 0 5

/-- Whether a channel of a tile is an INPUT channel of its active shell (R179). -/
def inputChan (t : Tile) (q : Nat) : Bool := chMode (t.chanEntry t.active q) = MODE_INPUT

/-- The run-time test of a chunk: the tile side lies in one tile below its SRAM_TOP, or names an INPUT channel (R179); the
tier side of a handle lies in its plane (R186). -/
def chunkOk (s : State) (p : Nat) (d : Desc) (n : Nat) : Bool :=
  let tileOk :=
    if d.tside = 0 then
      0 ≤ d.tileAddr n && (d.sramAt n).1 < 160
        && (d.sramAt n).2 + d.chunkBytes ≤ (s.tile (p * 160 + (d.sramAt n).1)).sramTop
    else if d.tside = 1 then d.chanAt.1 < 160 && inputChan (s.tile (p * 160 + d.chanAt.1)) d.chanAt.2
    else true
  let tierOk := match d.target n with
    | none => false
    | some (.handle h sc o) =>
      let t := s.tensor h
      !t.valid || o + d.chunkBytes ≤ (if sc then t.scale else t.elem)
    | some (.addr _) => true
  d.wellFormed && tileOk && tierOk

/-! ### Engine registers (R194) -/

/-- BUSY, WAIT_PLACE, QUEUED and STR_POS follow the engine's queue. -/
def refreshEngine (p e : Nat) (s : State) : State :=
  let q := (s.engine p e).queue
  let h := q.find? (fun d => d.halted.isSome)
  let s := (s.wrB (STR_BUSY p e) (q ≠ [])).wrB (STR_WAIT p e) h.isSome
  let s := s.wr (STR_QUEUED p e) q.length
  let s := s.wr64 (STR_POS p e) (match h with
    | some d => (d.halted.getD 0) % 2 ^ 32 + d.index * 2 ^ 32 + (d.tile % 160) * 2 ^ 42 + d.ticket * 2 ^ 50 + 2 ^ 53
    | none => 0)
  refreshHubIdle p s

def setQueue (p e : Nat) (q : List Desc) (s : State) : State :=
  refreshEngine p e (s.setEngine p e { s.engine p e with queue := q })

def setDesc (p e : Nat) (d : Desc) (s : State) : State :=
  setQueue p e ((s.engine p e).queue.map (fun x => if x.job = d.job then d else x)) s

def findDesc (s : State) (p e job : Nat) : Option Desc := (s.engine p e).queue.find? (fun d => d.job = job)

/-- A descriptor leaves its engine: its ticket is free, and the completion is a progress event (R182). DESIGN CHOICE (log
195): one that ends on a tier error counts in STR_DESCS and sets DESC_ERROR and not DESC_DONE. -/
def endDesc (p e : Nat) (d : Desc) (flag : Nat) (s : State) : State :=
  let s := setQueue p e ((s.engine p e).queue.filter (fun x => x.job ≠ d.job)) s
  let t := s.tile d.tile
  let s := s.setTile d.tile { t with tickets := tput t.tickets d.ticket {} {} }
  progress p ((s.raise (STR_STATUS p e) flag).addSat (STR_DESCS p e) 1)

/-- A descriptor ends on a tier error (R225). -/
def failDesc (p e : Nat) (d : Desc) (code : Nat) (addr : DWord) (s : State) : State :=
  let s := endDesc p e d 3 s
  match s.podOwner p with
  | some h => stepError h (rspStatus code) addr s
  | none => s

/-- A halted descriptor is discarded: its ticket is free and nothing of it goes on (R189). -/
def discardDesc (p e : Nat) (d : Desc) (s : State) : State :=
  let s := setQueue p e ((s.engine p e).queue.filter (fun x => x.job ≠ d.job)) s
  let t := s.tile d.tile
  s.setTile d.tile { t with tickets := tput t.tickets d.ticket {} {} }

/-- The halted descriptors of a hull that HULL_DESTROY ends (R189). -/
def discardHalted (h : Nat) (s : State) : State :=
  (s.hull h).pods.foldl (fun s p => (List.range 4).foldl (fun s e =>
    ((s.engine p e).queue.filter (fun d => d.halted.isSome)).foldl (fun s d => discardDesc p e d s) s) s) s

/-- A page never written was read in the hull's step (R211). -/
def noteUnwritten (p : Nat) (code : Nat) (s : State) : State :=
  if code ≠ RSP_UNWRITTEN then s
  else match s.podOwner p with
    | some h =>
      let hl := s.hull h
      match hl.step with
      | some st => s.setHull h { hl with step := some { st with unwritten := true } }
      | none => s
    | none => s

/-! ### STREAM (R182) -/

/-- STREAM: reads the descriptor at STR_TABLE + 64 × index and queues it on its engine under a ticket; waits while the
queue is full, the ticket is in use, or the N-tier does not serve (R22). -/
def execStreamOp (tile : Nat) (s : State) : Result :=
  match issueGate OP_STREAM tile s with
  | .inl s => .next s
  | .inr w =>
    let p := podOf tile
    let t := s.tile tile
    let idx := bits (wImm w) 0 10
    let tk := bits (wImm w) 10 3
    if (tget t.tickets tk {}).busy || !ntOn s then .next (s.setTile tile { t with stalled := true })
    else
      let g := BitVec.ofNat 64 (s.rd64 (STR_TABLE p) + 64 * idx)
      let who : Requester := .hullPort ((s.podOwner p).getD NO_POD_HULL)
      let r := access true who (.addr g) (.read 64) s
      let raw := BitVec.ofNat 512 (leNat r.data)
      let e := rawEngine raw
      if 32 ≤ (s.engine p e).queue.length then .next (s.setTile tile { t with stalled := true })
      else
        let job := (s.pod p).nextJob + 1
        let d : Desc := { job, index := idx, raw, tile, ticket := tk }
        let t2 := advance { t with tickets := tput t.tickets tk { busy := true, desc := idx, job } {} }
        let s := r.s.setTile tile t2
        let s := s.setPod p { s.pod p with nextJob := job }
        let s := setQueue p e ((s.engine p e).queue ++ [d]) s
        .next (if rspFails r.code then failDesc p e d r.code g s else noteUnwritten p r.code s)
where
  /-- No hull has this number: a pod without a hull reads nothing. -/
  NO_POD_HULL : Nat := 128

/-! ### Issue (R183, R184, R186, R188) -/

/-- Offset in tile space of a byte of a tile's region (R39). -/
def tsOffset (k region byte : Nat) : Nat := byte + tileX k * 2 ^ 18 + tileY k * 2 ^ 26 + region * 2 ^ 33

/-- Whether a descriptor can issue a chunk now; a hub port must hold an entry, unless the chunk's data is complete. Bytes of
a tile do not cross to the hub while the pod's PLL relocks (R55). -/
def canIssue (s : State) (p : Nat) (d : Desc) : Bool :=
  d.halted.isNone && (d.next < d.chunks || !d.wellFormed) && !(d.write && d.tside = 0 && (s.pod p).changing)
    && (d.tside ≠ 2 || (hubQueue s p d.hubAt ≠ [])
      || (match d.kept.find? (fun k => k.1 = d.next) with | some k => d.chunkBytes ≤ k.2.length | none => false))

/-- The running descriptors of an engine, in turn after the one that issued last (R183). -/
def issueOrder (en : Engine) : List Desc :=
  let r := en.queue.take 8
  r.filter (fun d => en.turn < d.job) ++ r.filter (fun d => d.job ≤ en.turn)

/-- Chunks in flight on an engine. -/
def inFlight (en : Engine) : Nat := en.queue.foldl (fun n d => n + d.flying.length) 0

/-- Entries of the hub port taken toward chunk `d.next`, as far as they reach (R184, R188). -/
def takeHub (p e : Nat) : Nat → Desc → State → Desc × State
  | 0, d, s => (d, s)
  | n + 1, d, s =>
    let cur := ((d.kept.find? (fun k => k.1 = d.next)).map (·.2)).getD []
    if d.chunkBytes ≤ cur.length then (d, s)
    else match hubTake p d.hubAt s with
      | (none, s) => (d, s)
      | (some x, s) =>
        let kept := d.kept.filter (fun k => k.1 ≠ d.next) ++ [(d.next, cur ++ leBytes x.2.toNat 64)]
        takeHub p e n { d with kept } s

/-- A chunk goes to its tier: onto the crossbar, or as a REQ packet to another device (R38, R376). -/
def sendChunk (p e : Nat) (d : Desc) (tg : Target) (op : TierOp) (s : State) : State :=
  let who : Requester := .stream p e d.job d.next
  let d2 := { d with next := d.next + 1, flying := d.flying ++ [d.next] }
  let s := setDesc p e d2 (s.setEngine p e { s.engine p e with turn := d.job })
  let hull := s.podOwner p
  let remote : Bool := match tg with | .addr g => !s.isHere (gDevice g) | _ => false
  if remote then
    match tg with
    | .addr g =>
      if reachable s (gDevice g) then
        sendRequest (gDevice g) hull (.stream p e d.job d.next) (fun h => .request h .hull g op) s
      else failDesc p e d2 RSP_UNREACHABLE (BitVec.ofNat 64 (gDevice g)) s
    | _ => s
  else
    let a : Access := { id := s.tier.nextId, req := { who, target := tg, op, cls := 2 }, hull }
    { s with tier := { s.tier with nextId := s.tier.nextId + 1, xbar := s.tier.xbar ++ [a] } }

/-- Whether the hull that holds a pod is being destroyed. -/
def dying (s : State) (p : Nat) : Bool := match s.podOwner p with | some h => (s.hull h).destroying | none => false

/-- A descriptor halts before a chunk (R188): the position is saved, later chunks are issued again after it, and the
placement engine answers (R218). One of a hull that is being destroyed is discarded (R189). -/
def haltDesc (p e : Nat) (d : Desc) (s : State) : State :=
  let pos := d.flying.foldl min d.next
  let d2 := { d with halted := some pos, next := pos, flying := [] }
  let s := (setDesc p e d2 s).addSat (STR_PLACE_WAITS p e) 1
  if dying s p then discardDesc p e d2 s
  else match onHalt d.handle (classOf s 0 (s.podOwner p) 2) s with
  | (.noRoom, s) => failDesc p e d2 RSP_NO_ROOM (BitVec.ofNat 64 (shortD s (copySize (s.tensor d.handle)))) s
  | (.direct, s) => setDesc p e { d2 with direct := true } s
  | (_, s) => s

/-- CHUNK_ISSUE: the engine tests and issues the next chunk of the descriptor whose turn it is; a failing chunk raises
DESC_BOUND, a chunk whose tensor is moving or outside the N-tier halts its descriptor (R186, R188). -/
def execChunkIssue (pod eng : Nat) (s : State) : Result :=
  let en := s.engine pod eng
  if s.rdB (STR_STOP pod eng) || s.rd (POD_STATE pod) ≠ POD_RUNNING || !ntOn s || 32 ≤ inFlight en then .next s
  else match (issueOrder en).find? (canIssue s pod) with
  | none => .next s
  | some d =>
    if !chunkOk s pod d d.next then
      let s := s.raise (STR_STATUS pod eng) 3
      .next (raiseFault d.tile ⟨0x0C, d.levelAt d.next, 0⟩ none s)
    else match d.target d.next with
    | none => .next s
    | some tg =>
      let halt := d.tkind = 0 && halts s d.handle && !(d.direct && (s.tensor d.handle).move = 0)
      if halt then .next (haltDesc pod eng d s)
      else if !d.write then .next (sendChunk pod eng d tg (.read d.chunkBytes) s)
      else if d.tside = 2 then
        let r := takeHub pod eng 16 d s
        let s := setDesc pod eng r.1 r.2
        match r.1.kept.find? (fun k => k.1 = d.next) with
        | some k => if d.chunkBytes ≤ k.2.length then .next (sendChunk pod eng r.1 tg (.write k.2) s) else .next s
        | none => .next s
      else
        let k := pod * 160 + (d.sramAt d.next).1
        let off := (d.sramAt d.next).2
        let a := tileRead { space := 3, off := tsOffset k 0 off, room := 0x30000 - off } d.chunkBytes s
        if rspFails a.code then
          .next (failDesc pod eng d a.code (globalAddr s 3 (tsOffset k 0 (off + a.at_))) a.s)
        else .next (sendChunk pod eng d tg (.write a.data) a.s)

/-- STREAM_RESUME: a halted descriptor goes on from its saved position once its tensor stands in N-tier or it holds a
direct grant; a tensor staged and not promoted is answered again (R188, R218). `cycles` are the mesh cycles that it has
stood halted and that are not counted yet (R194). -/
def execStreamResume (engine : EngineAt) (cycles : Nat) (s : State) : Result :=
  let pod := engine.pod
  let eng := engine.eng
  let q := (s.engine pod eng).queue
  let ready := fun (d : Desc) => d.halted.isSome && (s.tensor d.handle).move = 0
    && (d.direct || !halts s d.handle || placementOn s)
  match q.find? ready with
  | none => .next s
  | some d =>
    let s := s.addSat (STR_PLACE_CYCLES pod eng) cycles
    if d.direct || !halts s d.handle then .next (setDesc pod eng { d with halted := none } s)
    else match onHalt d.handle (classOf s 0 (s.podOwner pod) 2) s with
      | (.noRoom, s) => .next (failDesc pod eng d RSP_NO_ROOM (BitVec.ofNat 64 (shortD s (copySize (s.tensor d.handle)))) s)
      | (.direct, s) => .next (setDesc pod eng { d with direct := true, halted := none } s)
      | (_, s) => .next s

/-! ### Delivery and completion (R182, R184) -/

/-- Entries delivered into an INPUT channel, as room allows: the credits of the riser interface are the places of the
channel that hold no entry and owe no credit (R179). Answers the entries delivered. -/
def deliverEntries (k q : Nat) : List (List Byte) → Nat → State → Nat × State
  | [], n, s => (n, s)
  | x :: xs, n, s =>
    let t := s.tile k
    let c := t.chan q
    let e := t.chanEntry t.active q
    if chMode e = MODE_INPUT && chDepth e ≤ c.count + c.owed then (n, s)
    else
      let s2 := acceptEntry k q (BitVec.ofNat 512 (leNat x)) s
      if chMode e ≠ MODE_INPUT then (n, s2) else deliverEntries k q xs (n + 1) s2

/-- The 64 B entries of a chunk. -/
def entries64 (data : List Byte) : List (List Byte) :=
  (List.range (data.length / 64)).map (fun i => (data.drop (64 * i)).take 64)

/-- An ended access taken. -/
def dropEnded (id : Nat) (s : State) : State :=
  { s with tier := { s.tier with ended := s.tier.ended.filter (fun x => x.id ≠ id) } }

/-- A chunk is done. The WRITE data of every chunk from the oldest one not yet acknowledged onward is kept (R188). -/
def chunkDone (p e : Nat) (d : Desc) (n : Nat) (s : State) : State :=
  let flying := d.flying.filter (· ≠ n)
  let low := flying.foldl min d.next
  setDesc p e { d with flying, part := 0, kept := d.kept.filter (fun k => low ≤ k.1) } s

/-- Whether this module is the active of a pair that mirrors (R385, R386). -/
def mirroring (s : State) : Bool := s.rdB TWIN_ACTIVE && (s.rd TWIN_STATE = 2 || s.rd TWIN_STATE = 3)

/-- A granule of a movable tensor's copy is kept in mind as written by a step, for a snapshot (R385). -/
def noteStepped (dTier : Bool) (s : State) (g : Nat) : State :=
  match allocAt s dTier (g * 64) with
  | some a => match a.who with
    | .copy h => { s with tier := { s.tier with stepped := tput s.tier.stepped (h * 2 ^ 40 + (g * 64 - a.base) / 64) true false } }
    | _ => s
  | none => s

/-- Granules of `[off, off + len)` of a DRAM space join what the hull's step wrote (R385). -/
def noteWrote (h space off len : Nat) (s : State) : State :=
  let s := (granulesOf off len).foldl (noteStepped (space = 1)) s
  if !mirroring s then s
  else
    let hl := s.hull h
    match hl.step with
    | some st =>
      let base := (globalAddr s space 0).toNat / 64
      let gs := ((granulesOf off len).map (fun g => base + g)).filter (fun g => !st.wrote.contains g)
      s.setHull h { hl with step := some { st with wrote := st.wrote ++ gs } }
    | none => s

/-- The granules of an acknowledged WRITE chunk. -/
def noteChunk (p : Nat) (who : Requester) (tg : Target) (len : Nat) (s : State) : State :=
  match s.podOwner p, locate s who tg true with
  | some h, .spot sp => if sp.space ≤ 1 then noteWrote h sp.space sp.off len s else s
  | _, _ => s

/-- One ended chunk of an engine. -/
def applyChunk (p e : Nat) (d : Desc) (n : Nat) (x : Ended) (s : State) : State :=
  if rspFails x.code then failDesc p e d x.code x.addr (dropEnded x.id s)
  else if d.write then
    let s := noteChunk p x.req.who x.req.target d.chunkBytes s
    (chunkDone p e d n (dropEnded x.id s)).add64 (STR_BYTES_WR p e) d.chunkBytes
  else if d.tside = 0 then
    let k := p * 160 + (d.sramAt n).1
    let s := dropEnded x.id s
    let a := tileWrite { space := 3, off := tsOffset k 0 (d.sramAt n).2, room := d.chunkBytes } x.data s
    noteUnwritten p x.code ((chunkDone p e d n a.s).add64 (STR_BYTES_RD p e) d.chunkBytes)
  else
    let r := deliverEntries (p * 160 + d.chanAt.1) d.chanAt.2 (entries64 (x.data.drop d.part)) 0 s
    let s := r.2.add64 (STR_BYTES_RD p e) (64 * r.1)
    if d.part + 64 * r.1 < d.chunkBytes then setDesc p e { d with part := d.part + 64 * r.1 } s
    else noteUnwritten p x.code (chunkDone p e d n (dropEnded x.id s))

/-- The ended chunk of an engine that comes next: READ chunks in chunk order (R184); one that no descriptor awaits is
discarded (R187, R188). -/
def nextEnded (s : State) (p e : Nat) : Option (Ended × Option (Desc × Nat)) :=
  s.tier.ended.findSome? (fun x => match x.req.who with
    | .stream p2 e2 job n =>
      if p2 ≠ p || e2 ≠ e then none
      else match findDesc s p e job with
        | none => some (x, none)
        | some d =>
          if !d.flying.contains n then some (x, none)
          else if !d.write && d.flying.foldl min n ≠ n then none
          else some (x, some (d, n))
    | _ => none)

/-- CHUNK_RESPONSE: a READ chunk is delivered to its tile or a WRITE chunk is acknowledged (R184). A halted pod discards
READ chunks in flight (R187). While the pod's PLL relocks, READ data waits at the crossing to its tile (R55). -/
def execChunkResponse (pod eng : Nat) (s : State) : Result :=
  match nextEnded s pod eng with
  | none => .next s
  | some (x, none) => .next (dropEnded x.id s)
  | some (x, some (d, n)) =>
    if s.rd (POD_STATE pod) ≠ POD_RUNNING && !d.write then .next (dropEnded x.id s)
    else if !d.write && (s.pod pod).changing then .next s
    else .next (applyChunk pod eng d n x s)

/-- DESCRIPTOR_COMPLETE: a descriptor with every chunk delivered or acknowledged completes (R182, R184). -/
def execDescriptorComplete (pod eng : Nat) (s : State) : Result :=
  match (s.engine pod eng).queue.find? (fun d => d.chunks ≤ d.next && d.flying = [] && d.halted.isNone && d.wellFormed) with
  | none => .next s
  | some d => .next (endDesc pod eng d 2 s)

/-- STREAM_STOP: STR_CTRL.STOP keeps the engine from issuing a new chunk (R194). -/
def execStreamStop (pod eng : Nat) (s : State) : Result := .next (s.wr (STR_STOP pod eng) 1)

end Sys2Proof.Machine
end

