-- ==== Sys2Proof/Machine/Requests.lean ====
section
/-! DEFINITION. Requests and tenants: the request table, the end of a request and its completion, budgets, the floor test
(R273–R276, R286–R291, R301, R302, R339, R359), the ends of commands that run for longer than one event, and what a FENCE waits for (R222, R327). -/

namespace Sys2Proof.Machine

/-! ### Running commands (R335, R337) -/

/-- A command that runs on: it is kept until its completion. -/
def startRun (r : Running) (s : State) : State :=
  { s with host := { s.host with running := s.host.running ++ [r] } }

def findRun (s : State) (p : Running → Bool) : Option Running := s.host.running.find? p

def setRun (r : Running) (s : State) : State :=
  { s with host := { s.host with running := s.host.running.map (fun x => if x.seqNo = r.seqNo then r else x) } }

/-- The command and its outstanding reads leave the tables. -/
def dropRun (seqNo : Nat) (s : State) : State :=
  dropReads (fun d => d.use = .command seqNo)
    { s with host := { s.host with running := s.host.running.filter (fun x => x.seqNo ≠ seqNo) } }

/-- The completion of a running command. -/
def endRun (r : Running) (status progress detail : Nat) (s : State) : State :=
  if r.quiet then dropRun r.seqNo s else complete r.ring r.entry status progress detail (dropRun r.seqNo s)

/-- The completion of a running command that carries a hull's step in STEP. -/
def endRunAt (r : Running) (step : Nat) (s : State) : State :=
  if r.quiet then dropRun r.seqNo s else completeAt r.ring r.entry ST_OK 0 step 0 (dropRun r.seqNo s)

def BDP_OWNER (c : Nat) : Nat := bdpBlock c

/-- Whether a function owns a channel (R324). -/
def ownsChannel (s : State) (fn c : Nat) : Bool :=
  c < 64 && bits (s.rd32 (BDP_OWNER c)) 0 8 = fn && bit (s.rd32 (BDP_OWNER c)) 8

/-- Whether a running command still has tier writes to make. -/
def writesTier : RunKind → Bool
  | .tensorWrite _ _ _ _ _ => true
  | .variantList _ => true
  | .variantPull _ _ _ => true
  | .archiveList _ => true
  | .archiving _ _ _ => true
  | .baseManifest _ => true
  | .installing _ _ => true
  | .baseStaging _ _ _ _ => true
  | .creating _ _ => true
  | .resizing _ _ _ _ => true
  | .draining _ => true
  | _ => false

/-- Whether the order that a FENCE asks for holds: earlier commands of its ring have made their writes, the buffers of its
function's channels have drained, and with scope 1 the function's writes to other devices are acknowledged. -/
def fenceHolds (s : State) (r : Running) (remote : Bool) : Bool :=
  s.host.running.all (fun x => !(x.ring = r.ring && x.seqNo < r.seqNo && writesTier x.kind))
    && s.host.bdpBuf.all (fun b => b.2 = [] || !ownsChannel s r.fn b.1)
    && (!remote || s.fab.pending.all (fun p => match p.use with | .bdp _ fn _ _ => fn ≠ r.fn | _ => true))

/-- A running FENCE completes once its order holds. -/
def pumpFence (r : Running) (s : State) : State :=
  match r.kind with
  | .fencing _ remote => if fenceHolds s r remote then endRun r ST_OK 0 0 s else s
  | _ => s

def pumpFences (s : State) : State := s.host.running.foldl (fun s r => pumpFence r s) s

/-- A running command completes, and the FENCEs that waited for it do. -/
def finishRun (r : Running) (status progress detail : Nat) (s : State) : State :=
  pumpFences (endRun r status progress detail s)

/-- Every running command that meets a test completes with a status. -/
def finishRuns (p : Running → Bool) (status detail : Nat) (s : State) : State :=
  (s.host.running.filter p).foldl (fun s r => finishRun r status 0 detail s) s

/-! ### The request table (R274, R275) -/

def REQ_QUEUED : Nat := 0
def REQ_ADMITTED : Nat := 1
def REQ_RUNNING : Nat := 2
def REQ_COMPLETED : Nat := 3
def REQ_CANCELLED : Nat := 4
def REQ_FAILED : Nat := 5
def REQ_ENTRIES : Nat := 16384

def isLive (q : Request) : Bool := q.used && q.state ≤ REQ_RUNNING

/-- Indexes of live requests. -/
def liveIdx (s : State) : List Nat := (s.srv.reqs.filter (fun e => isLive e.2)).map (·.1)

/-- DEV_REQ_LIVE follows the table (R303). -/
def refreshLive (s : State) : State := s.wr32 DEV_REQ_LIVE (liveIdx s).length

/-- The entry that a ring and SEQ name. -/
def findRequest (s : State) (ring seq : Nat) : Option Nat :=
  let c := s.srv.reqs.filter (fun e => e.2.used && e.2.ring = ring && entrySeq e.2.entry = seq)
  match c.find? (fun e => isLive e.2) with
  | some e => some e.1
  | none => (c.foldl (fun (b : Option (Nat × Request)) e => match b with
      | some x => if x.2.order < e.2.order then some e else b
      | none => some e) none).map (·.1)

/-- The lowest unused index. -/
def firstUnused (s : State) : Nat → Nat → Option Nat
  | _, 0 => none
  | i, n + 1 => if (s.request i).used then firstUnused s (i + 1) n else some i

/-- A free entry, else the one whose request reached its final state earliest; none with every entry live (R274). -/
def freeEntry (s : State) : Option Nat :=
  match firstUnused s 0 (min REQ_ENTRIES (s.srv.reqs.length + 1)) with
  | some i => some i
  | none => ((s.srv.reqs.filter (fun e => !isLive e.2)).foldl (fun (b : Option (Nat × Request)) e => match b with
      | some x => if e.2.finalAt < x.2.finalAt then some e else b
      | none => some e) none).map (·.1)

/-- DETAIL of a request completion (R302). -/
def requestDetail (q : Request) : Nat :=
  b2n (q.kvD ≠ 0) + 2 * b2n q.degraded + 4 * b2n q.breach + 8 * b2n q.boundOver + 16 * b2n q.floorMiss
    + 32 * b2n q.dropped + 64 * b2n q.unwritten + 128 * b2n q.everPaused
    + 2 ^ 16 * min q.rejected 65535 + 2 ^ 32 * (q.steps % 2 ^ 32)

/-- The success status of a request: the first that applies in the order of R339. -/
def successStatus (q : Request) (late : Bool) : Nat :=
  if late then ST_OK_CANCEL_LATE
  else if q.replayed || q.truncated then ST_OK_PARTIAL
  else if q.kvD ≠ 0 || q.degraded || q.breach || q.boundOver || q.floorMiss then ST_OK_DEGRADED
  else if q.unwritten then ST_OK_UNWRITTEN else ST_OK

/-- A request's KV reservation is released (R290). -/
def releaseKv (q : Request) (s : State) : State :=
  if q.kvN = 0 && q.kvD = 0 then s
  else
    let h := s.hull q.hull
    s.setHull q.hull { h with kvNUsed := h.kvNUsed - q.kvN, kvDUsed := h.kvDUsed - q.kvD }

/-- A request reaches a final state and its completion is written; guesses it still holds were made and not committed
(R275, R294, R302). -/
def endRequest (i final status detail : Nat) (s : State) : State :=
  let q := s.request i
  let s := (s.add64 DEV_SPROUT_REJECTED q.guesses.length).add64 DEV_REQ_DONE 1
  let q2 := { q with state := final, paused := false, guesses := [], rejected := q.rejected + q.guesses.length }
  let d := if status ≤ 0x0FFF then requestDetail q2 else detail
  let q3 := { q2 with finalAt := s.srv.order,
                      finalRaw := completionRaw status (entrySeq q.entry) (entryTag q.entry) q.progress q.stepVal.toNat d false }
  let s := releaseKv q s
  let s := { s with srv := { s.srv with order := s.srv.order + 1 } }
  let s := refreshLive (s.setRequest i q3)
  if q.quiet then s else completeAt q.ring q.entry status q.progress q.stepVal.toNat d s

/-- A request ends with a failure whose status gives no DETAIL of its own: its DETAIL is that of R302 (R359). -/
def failRequest (i status : Nat) (detail : Option Nat) (s : State) : State :=
  let q := s.request i
  let q2 := { q with rejected := q.rejected + q.guesses.length }
  endRequest i REQ_FAILED status (detail.getD (requestDetail q2)) s

/-- A cancelled request (R301, R359). -/
def cancelRequest (i : Nat) (s : State) : State :=
  let q := s.request i
  endRequest i REQ_CANCELLED ST_CANCELLED (requestDetail { q with rejected := q.rejected + q.guesses.length }) s

/-- Live requests of a hull, in arrival order. -/
def hullRequests (s : State) (h : Nat) : List Nat :=
  sortBy (fun a b => (s.request a).order ≤ (s.request b).order) ((liveIdx s).filter (fun i => (s.request i).hull = h))

/-! ### Fixed regions of a hull (R278, R295) -/

/-- Tier and OFFSET of a fixed region. -/
def regionAt (s : State) (h : Nat) : Bool × Nat :=
  let t := s.tensor h
  if t.origin = 0 then (false, t.nBase) else (true, t.dBase)

/-- A hull's expert map as it stands now; an unwritten page reads zero. -/
def mapNow (s : State) (h : Nat) : List Byte :=
  match (s.hull h).expmap with
  | none => []
  | some m =>
    let r := regionAt s m
    (List.range 4480).map (fun i => if s.written r.1 ((r.2 + i) / PAGE) then tget (s.mem r.1) (r.2 + i) 0#8 else 0#8)

/-- The map that a hull's step works by: as it stood at the step's start, or as it stands with no step begun. -/
def mapOf (s : State) (h : Nat) : List Byte :=
  match (s.hull h).step with
  | some st => if st.begun then st.map else mapNow s h
  | none => mapNow s h

/-- Bytes of a hull's expert map; zeros without one. -/
def mapBytes (s : State) (h off len : Nat) : Nat := leNat (((mapOf s h).drop off).take len)

/-! ### Tenants and budgets (R286, R288) -/

def UNLIMITED : Nat := 0xFFFFFFFF

/-- available() in whole tokens; a tenant with unlimited RATE is never short (R288). -/
def available (v : Slot) : Nat := if v.rate = UNLIMITED then 2 ^ 40 else (v.level - v.reserved) / 1000

/-- LEVEL as it reads (R288). -/
def levelShown (v : Slot) : Nat := if v.rate = UNLIMITED then 0xFFFFFFFFFFFF else v.level

/-- Bound slots. -/
def boundSlots (s : State) : List Nat := (s.srv.slots.filter (fun e => e.2.bound)).map (·.1)

/-- The refill at a frame boundary (R288). -/
def refill (s : State) : State :=
  (boundSlots s).foldl (fun s t =>
    let v := s.slot t
    if v.rate = UNLIMITED then s else s.setSlot t { v with level := min (v.level + v.rate) (v.burst * 1000) }) s

/-- A segment's reservation given back. -/
def releaseSeg (g : Seg) (s : State) : State :=
  if g.kind ≠ 1 then s
  else
    let v := s.slot g.tenant
    s.setSlot g.tenant { v with reserved := v.reserved - 1000 * g.len }

/-- Every reservation of a step given back (R288). -/
def releaseStep (st : Step) (s : State) : State := st.segs.foldl (fun s g => releaseSeg g s) s

/-- Live requests of a slot. -/
def slotRequests (s : State) (t : Nat) : List Nat := (liveIdx s).filter (fun i => (s.request i).tenant = t)

/-! ### Floors (R291) -/

/-- The deficit of a slot at step formation in the present frame: positive when it is below its floor. -/
def deficit (s : State) (v : Slot) : Nat :=
  if v.floor = 0 then 0 else ceilDiv (v.floor * (s.sched.frame % 100 + 1)) 1000 - v.window

/-- The floor test of a slot at the end of a window of 100 frames. A window in which the binding or the floor began
part way is not tested. -/
def floorTest (wStart t : Nat) (s : State) : State :=
  let v := s.slot t
  let fails := v.floor ≠ 0 && v.since ≤ wStart && v.window * 10 < v.floor && v.leftOut
  let s := if !fails then s
    else
      let s := markRequests (fun i => (s.request i).tenant = t && ((s.request i).ran || runsNow s i))
        (fun q => { q with floorMiss := true }) s
      if v.cause = 0 then s.raise DEV_SRV_STATUS 1
      else
        let r := v.cause % 16
        breach r (if r = 1 then PARTY_GUARDIAN else if r = 2 then PARTY_TWIN else PARTY_HULL) (v.cause / 16) 4 PARTY_SLOT t s
  s.setSlot t { s.slot t with window := 0, leftOut := false, cause := 0 }

/-- A new window begins: only the steps in progress run in it so far. -/
def newWindow (s : State) : State :=
  (liveIdx s).foldl (fun s i => s.setRequest i { s.request i with ran := runsNow s i }) s

/-- The floor tests of a window that ends as frame `f` begins. -/
def floorTests (f : Nat) (s : State) : State :=
  if f % 100 ≠ 0 then s else newWindow ((boundSlots s).foldl (fun s t => floorTest (f - 100) t s) s)

end Sys2Proof.Machine
end

