-- ==== Sys2Proof/Machine/Epoch.lean ====
section
/-! DEFINITION. The epochs that an active twin sends: what changed between two states, as body records between a header and
a commit marker (R29, R385, R386). -/

namespace Sys2Proof.Machine

/-- Whether this module is the standby of a pair (R388). -/
def isStandby (s : State) : Bool :=
  !s.rdB TWIN_ACTIVE && (s.rd TWIN_STATE = 2 || s.rd TWIN_STATE = 3)

/-- The twin-alive state that TWA_OUT carries: 1 = ACTIVE, 2 = STANDBY, 3 = TAKING_OVER, 4 = PARKED (R436). A module whose
sideband header is mated reversed drives nothing (R435). -/
def setTwa (code : Nat) (s : State) : State :=
  if s.twin.twaOut = code then s
  else
    let s := { s with twin := { s.twin with twaOut := code } }
    if s.pwr.reversed then s else s.emit (.twaOut code)

/-- Keys at which two tables differ. -/
def changed {α : Type} [DecidableEq α] (a b : Tab α) (d : α) : List Nat :=
  let ks := tkeys a ++ (tkeys b).filter (fun k => !(tkeys a).contains k)
  ks.filter (fun k => tget a k d ≠ tget b k d)

/-- A tenant slot's record. -/
def slotRec (i : Nat) (v : Slot) : MirrorRec :=
  .slot i v.bound v.identity v.owner v.rate v.burst v.floor v.level v.reserved

/-- A request's record. -/
def requestRec (i : Nat) (q : Request) : MirrorRec :=
  .request i q.ring q.fn q.entry q.state q.progress q.stepVal q.steps q.lastTok q.prefilled q.kvN q.kvD

/-- A hull's record. -/
def hullRec (i : Nat) (h : Hull) : MirrorRec := .hull i h.live h.entry h.pkg h.handles h.saves

/-- A ring's record. -/
def ringRec (s : State) (n : Nat) : MirrorRec :=
  .ring n (s.word (RING_CFG n)) (s.word (RING_CFG n + 4)) (s.word (RING_CFG n + 8)) (s.rd64 (RING_SQ_BASE n))
    (s.rd64 (RING_CQ_BASE n)) (s.rd (RING_SQ_HEAD n)) (s.rd (RING_SQ_TAIL n)) (s.rd (RING_CQ_TAIL n))

/-- Where an F-origin tensor's origin lies: its archive (0 = the base) and its position there. -/
def originPlace (s : State) (t : Tensor) : Nat × Nat :=
  if t.origin ≠ 2 then (0, 0)
  else
    let ms := if t.archive = 0 then s.flash.base else (tget s.flash.archives t.archive {}).members
    (t.archive, ms.findIdx (fun m => m.fBase = t.fBase))

/-- A tensor's record. -/
def tensorRec (s : State) (h : Nat) : MirrorRec :=
  let p := originPlace s (s.tensor h)
  .tensor h (tensorRaw (s.tensor h)) p.1 p.2

/-- What a hull's record mirrors. -/
def sameHull (a b : Hull) : Bool := a.live == b.live && a.pkg == b.pkg && a.handles == b.handles && a.saves == b.saves

/-- Rings whose configuration has been written. -/
def ringsInUse (s : State) : List Nat :=
  ((tkeys s.bar).filter (fun o => 0x100000 ≤ o && o < 0x140000 && o % 0x40 = 0x18)).map (fun o => (o - 0x100000) / 0x40)

/-- Hulls of which a record is sent. -/
def hullsChanged (a b : State) : List Nat :=
  (changed a.srv.hulls b.srv.hulls {}).filter (fun h => !sameHull (a.hull h) (b.hull h))

/-- What two states differ in, of what a pair mirrors (R385). -/
def mirrorDiff (a b : State) : List MirrorRec :=
  (changed a.tier.tensors b.tier.tensors {}).map (tensorRec b)
  ++ (changed a.srv.slots b.srv.slots {}).map (fun i => slotRec i (b.slot i))
  ++ (changed a.sched.table b.sched.table 0xFFFFFFFF#32).map (fun k =>
        .cyc (k / 2048) (k % 2048) (cycEntry b (k / 2048) (k % 2048 / 4) (k % 4)))
  ++ (if activeBank a = activeBank b then [] else [.cycBank (activeBank b)])
  ++ (hullsChanged a b).map (fun h => hullRec h (b.hull h))
  ++ (changed a.srv.reqs b.srv.reqs {}).map (fun i => requestRec i (b.request i))
  ++ (b.out.drop a.out.length).filterMap (fun o => match o with
        | .dmaWrite fn addr data => some (.output fn addr data)
        | .completion _ ring slot _ raw => some (.completion ring slot raw)
        | _ => none)
  ++ ((ringsInUse b).filter (fun n => ringRec a n ≠ ringRec b n)).map (ringRec b)

/-- Granules as body records, with their present contents. -/
def granuleRecs (s : State) (gs : List Nat) : List MirrorRec :=
  gs.map (fun g =>
    let a := BitVec.ofNat 64 (g * 64)
    .granule a (mread (s.mem (gSpace a = 1)) (gOffset a) 64))

/-- The reads of granules for an epoch, served in class 0 (R26, R265): their service time at each tier's meter. -/
def chargeTwin (gs : List Nat) (s : State) : State :=
  gs.foldl (fun s g =>
    let a := BitVec.ofNat 64 (g * 64)
    let dT := gSpace a = 1
    let k := meterKey (b2n dT) (unitOf dT (gOffset a))
    { s with sched := { s.sched with c0 := tput s.sched.c0 k (tget s.sched.c0 k 0 + (if dT then 180 else 135)) 0 } }) s

/-- The staging region's size (R386). -/
def EPOCH_LIMIT : Nat := 16 * 2 ^ 30

/-- A TWIN_RESYNC event and count (R386). -/
def twinResync (epoch cause : Nat) (s : State) : State :=
  recordEvent 0x0603 none none (payload [(32, 8, epoch), (40, 1, cause)]) (s.addSat TWIN_RESYNCS 1)

/-- An epoch sent: header, body, marker with the CRC of both. Answers its number. The header names RECORDS, BYTES and a number
given in the order of commits, so that the body follows it at the commit (R386, log 217). -/
def sendEpoch (kind h : Nat) (step : DWord) (body : List MirrorRec) (abort : Bool) (s : State) : Nat × State :=
  let n := s.twin.nextEpoch
  let hdr : EpochHdr := { epoch := n, kind, hull := h, records := body.length, step, bytes := bodyBytes body }
  let s := sendTwin (.header hdr) s
  let s := body.foldl (fun s r => sendTwin (.record r) s) s
  let s := sendTwin (.marker n abort (epochCrc hdr body)) s
  (n, fabricTrace n (({ s with twin := { s.twin with nextEpoch := n + 1 } }).wr64 TWIN_SENT n))

/-- A graph package's contents, at the D-tier offsets that both modules give it (R385). An F-origin package without a
D-tier copy is read from each module's own F-tier. -/
def packageRecs (s : State) (h : Nat) : List MirrorRec :=
  let t := s.tensor h
  if !t.valid || !t.inD then []
  else (granulesOf t.dBase t.elem).map (fun g =>
    let src := if t.inN then g * 64 - t.dBase + t.nBase else g * 64
    .granule (globalAddr s 1 (g * 64)) (mread (s.mem (!t.inN)) src 64))

/-- The packages of hulls whose records are sent. -/
def hullPackages (a b : State) : List MirrorRec :=
  ((hullsChanged a b).filter (fun h => (b.hull h).live)).flatMap (fun h => packageRecs b (b.hull h).pkg)

/-- The written pages of the fixed regions: what steps may have written. -/
def regionRecs (s : State) : List MirrorRec :=
  s.tier.allocs.flatMap (fun a => match a.who with
    | .region _ => (List.range (a.size / PAGE)).flatMap (fun i =>
        if s.written a.dTier (a.base / PAGE + i) then
          (granulesOf (a.base + i * PAGE) PAGE).map (fun g =>
            .granule (globalAddr s (b2n a.dTier) (g * 64)) (mread (s.mem a.dTier) (g * 64) 64))
        else [])
    | _ => [])

/-- The granules of movable tensors that steps have written, in their present copies (R385). -/
def steppedRecs (s : State) : List MirrorRec :=
  (tkeys s.tier.stepped).flatMap (fun k =>
    let t := s.tensor (k / 2 ^ 40)
    let rec_ := fun (dTier : Bool) (base : Nat) =>
      let off := base + k % 2 ^ 40 * 64
      MirrorRec.granule (globalAddr s (b2n dTier) off) (mread (s.mem dTier) off 64)
    if !t.valid then [] else (if t.inN then [rec_ false t.nBase] else []) ++ (if t.inD then [rec_ true t.dBase] else []))

/-- What SHELL_LOAD has put into the slots of the hulls. -/
def shellRecs (s : State) : List MirrorRec :=
  (tkeys s.srv.hulls).flatMap (fun h => ((s.hull h).shells.filter (fun x => (s.tensor x.2.2).valid)).flatMap (fun x =>
    packageRecs s x.2.2 ++ [.shell h x.1 x.2.1 x.2.2]))

/-- Everything that a pair mirrors, as the body of a snapshot (R384, R385). Host-filled contents are not mirrored. -/
def snapshotBody (s : State) : List MirrorRec :=
  let s := { s with out := [] }
  mirrorDiff {} s ++ hullPackages {} s ++ regionRecs s ++ steppedRecs s ++ shellRecs s

/-- A snapshot sent; the pair is SYNCING until it is applied (R384, R386). -/
def sendSnapshot (s : State) : State :=
  let r := sendEpoch 2 0 s.counter (snapshotBody s) false s
  let s := { r.2 with twin := { r.2.twin with snapEpoch := some r.1 } }
  s.wr TWIN_STATE 2

/-- A body too large for the standby's staging: the epoch is closed, the pair returns to SYNCING and a new snapshot goes
out (R386). -/
def oversized (kind h : Nat) (step : DWord) (s : State) : State :=
  let r := sendEpoch kind h step [] true s
  sendSnapshot (twinResync r.1 0 r.2)

/-- The epoch of a state-changing command, where this module mirrors: what it changed, the packages of the hulls that it
made, and what else it names (R385, R386). -/
def commandEpochWith (extra : List MirrorRec) (before s : State) : State :=
  if !mirroring s then s
  else
    let body := mirrorDiff before s ++ hullPackages before s ++ extra
    if body = [] then s
    else if EPOCH_LIMIT < bodyBytes body then oversized 1 0 s.counter s
    else (sendEpoch 1 0 s.counter body false s).2

/-- The epoch of a state-changing command that names no package by itself. -/
def commandEpoch (before s : State) : State := commandEpochWith [] before s

end Sys2Proof.Machine
end

