-- ==== Sys2Proof/Machine/Sequencer.lean ====
section
/-! DEFINITION. The loop sequencer's own words END, REPEAT, WAIT and FENCE, step starts and boundaries, shell switches, and
the watchdog's STALL (R68, R70–R72, R141–R143, R160–R164, R221). -/

namespace Sys2Proof.Machine

/-! ### Words (R162, R164, R221) -/

/-- END, or the end of the list: the tile waits for its boundary; an open accumulation raises SHELL_FIELD with the word's
offset (R164). -/
def runEnd (t : Tile) (_w : Nat) (_s : State) : Issue :=
  if t.seq.accOpen then .trap ⟨0x0B, 0x300 + 8 * t.seq.index, 0⟩
  else .done { t with seq := { t.seq with phase := 3 }, waitPop := [], waitPush := [], stalled := false } 0

def execEndOp (tile : Nat) (s : State) : Result := .next (tileOp OP_END tile runEnd s)

/-- REPEAT: a record whose body the next words are (R162, R192). -/
def runRepeat (t : Tile) (w : Nat) (_s : State) : Issue :=
  let r : Rep := { left := bits (wImm w) 0 16, first := t.seq.index + 1, len := bits (wImm w) 16 8 }
  .done { t with seq := { t.seq with index := t.seq.index + 1, reps := r :: t.seq.reps, phase := 1 }, stalled := false } 0

def execRepeatOp (tile : Nat) (s : State) : Result := .next (tileOp OP_REPEAT tile runRepeat s)

/-- Whether ticket `k` of a tile is free. -/
def ticketFree (t : Tile) (k : Nat) : Bool := !(tget t.tickets k {}).busy

/-- WAIT: until every ticket of the mask is free (R162). -/
def runWait (t : Tile) (w : Nat) (_s : State) : Issue :=
  if (List.range 8).all (fun k => !bit (wImm w) k || ticketFree t k) then .done (advance t) 0 else .wait t

def execWaitOp (tile : Nat) (s : State) : Result := .next (tileOp OP_WAIT tile runWait s)

/-- FENCE: until every descriptor of the tile is complete, and with scope 1 every entry that it pushed to a remote route
has been accepted (R221). -/
def runFence (t : Tile) (w : Nat) (_s : State) : Issue :=
  let pushed := (List.range 16).any (fun q =>
    let e := t.chanEntry t.active q
    chMode e = MODE_OUTPUT && chHub e && 32 ≤ chHubIdx e && chHubIdx e < 48 && (t.chan q).count ≠ 0)
  if (List.range 8).all (ticketFree t) && (!bit (wImm w) 0 || (t.remoteOut = 0 && !pushed)) then .done (advance t) 0
  else .wait t

def execInGraphFence (tile : Nat) (s : State) : Result := .next (tileOp OP_FENCE tile runFence s)

/-! ### Step boundary (R141, R164) -/

/-- The tiles of a hull on this device. -/
def hullTiles (s : State) (h : Nat) : List Nat :=
  (s.hull h).pods.flatMap (fun p => (List.range 160).map (fun l => p * 160 + l))

/-- Whether END completes: SFU results written, tickets free (R164). -/
def atBoundary (t : Tile) : Bool := t.seq.phase = 3 && t.sfu.isNone && (List.range 8).all (ticketFree t)

/-- The pods of a hull at the end of its step: HALTED where HALT asks for it, else LOADED (R82, R155). -/
def parkPods (h : Nat) (s : State) : State :=
  (s.hull h).pods.foldl (fun s p => s.wr (POD_STATE p) (if s.rdB (POD_HALT p) then POD_HALTED else POD_LOADED)) s

/-- The epoch of a step on a device that does not lead its hull, sent before its boundary report; a failed step's is
closed with ABORT (R386). -/
def partEpoch (h : Nat) (st : Step) (s : State) : State :=
  let body := granuleRecs s st.wrote
  let s := chargeTwin st.wrote s
  if EPOCH_LIMIT < bodyBytes body then oversized 0 h st.start s
  else (sendEpoch 0 h st.start body st.error.isSome s).2

/-- The device's part of the step has ended: a progress event, and the boundary is reported to the lead device (R71,
R280). -/
def stepEnds (h : Nat) (s : State) : State :=
  let hl := s.hull h
  let s := match hl.pods.head? with | some p => progress p s | none => s
  let s := parkPods h s
  match hl.step with
  | none => s
  | some st =>
    let s := s.setHull h { hl with step := some { st with reported := st.reported ++ [hl.devIndex] } }
    if hl.devIndex = 0 then s
    else
      let s := if mirroring s then partEpoch h st s else s
      let lead := hl.devices.headD 0
      let fate : PartEnd := match st.error with
        | some e => .failed e.1 e.2
        | none => .clean { unwritten := st.unwritten, breach := st.breach, boundOver := st.boundOver, dropped := st.dropped, degraded := st.degraded }
      sendPacket lead (some h) (.boundaryReport lead h fate) s

/-- STEP_BOUNDARY_REACHED: END of the tile completes (R164). A NEXT_EN shell's switch is pending from here; its target must
be READY or ACTIVE (R141). -/
def execStepBoundaryReached (tile : Nat) (s : State) : Result :=
  let p := podOf tile
  let t := s.tile tile
  if s.rd (POD_STATE p) ≠ POD_RUNNING || !atBoundary t then .next s
  else
    let n := t.nextShell t.active
    if t.nextEn t.active && s.rd (SHL_SLOT p n) < 2 then .next (raiseFault tile ⟨0x0B, 3, 0⟩ none s)
    else
      let s := s.setTile tile { t with seq := {}, acc := [], left := {}, pend := if t.nextEn t.active then some n else t.pend }
      match s.podOwner p with
      | none => .next s
      | some h =>
        if (hullTiles s h).all (fun k => (s.tile k).seq.phase = 0) then .next (stepEnds h s) else .next s

/-! ### Step start (R68, R141–R143, R160) -/

/-- One tile at the start of a step: a pending switch after its checks, then word 0. The first failing check faults. -/
def startTile (k : Nat) (s : State) : State :=
  let t := s.tile k
  let begin_ := fun (t : Tile) => { t with seq := { phase := 1 }, waitPop := [], waitPush := [], stalled := false }
  match t.pend with
  | none => s.setTile k (begin_ t)
  | some n =>
    match activationFault t n with
    | some b => raiseFault k ⟨0x0B, b, 0⟩ none s
    | none =>
      match layoutClash t n with
      | some q => raiseFault k ⟨0x04, n, q⟩ none s
      | none => s.setTile k (begin_ { t with chans := switchChans t n, active := n, pend := none })

/-- A pod's slot states at a switch (R142). DESIGN CHOICE (log 199): they follow the pending switch of the pod's local tile 0,
where the tiles' shells differ in NEXT_EN or NEXT_SHELL. -/
def switchSlots (p : Nat) (s : State) : State :=
  match (s.tile (p * 160)).pend with
  | none => s
  | some n => (s.wr (SHL_SLOT p (s.tile (p * 160)).active) 2).wr (SHL_SLOT p n) 3

/-- The serving engine reads the hull's expert map as its step starts (R295): an error is the step's (R225). -/
def takeMap (h : Nat) (s : State) : State :=
  match (s.hull h).expmap with
  | none => s
  | some m =>
    let r := look [(m, 0, 4480)] s
    let s := match r.1 with | some f => stepError h f.1 (BitVec.ofNat 64 f.2) r.2.2 | none => r.2.2
    let hl := s.hull h
    match hl.step with
    | some st => s.setHull h { hl with step := some { st with map := mapNow s h, unwritten := st.unwritten || r.2.1 } }
    | none => s

/-- STEP_START: the agreed counter value of the hull's next step arrives; every tile performs its pending switch and starts
its operation list (R36, R141, R160). One that starts while the guardian holds a named hull runs during that breach (R270). DESIGN CHOICE (log 200): where the checks of an activation fail in some tile, the slot
states of every pod stay as they were, although other tiles have switched (R142). -/
def execStepStart (hull : Nat) (s : State) : Result :=
  let hl := s.hull hull
  match hl.step with
  | none => .next s
  | some st =>
    if st.begun || st.staging ≠ 0 || hl.fault.isSome || !hl.live || !hl.pods.all (fun p => s.rd (POD_STATE p) = POD_LOADED) then
      .next s
    else
      let s := syncFrame (advanceTo st.start.toNat s)
      let s := takeMap hull s
      let s := s.setHull hull { s.hull hull with step := (s.hull hull).step.map (fun st => { st with begun := true }), select := none }
      let s := if hl.devIndex = 0 then
          st.segs.foldl (fun s g => s.setRequest g.req { s.request g.req with ran := true }) s
        else s
      let s := setPods hl.pods POD_RUNNING s
      let before := s
      let s := hl.pods.foldl (fun s p => switchSlots p s) s
      let s := (hullTiles s hull).foldl (fun s k => startTile k s) s
      -- R142: with a failed check no switch takes place in that tile, and the slot states stay
      if (s.hull hull).fault.isSome then
        .next (hl.pods.foldl (fun s p => (List.range 4).foldl (fun s i =>
          s.wr (SHL_SLOT p i) (before.rd (SHL_SLOT p i))) s) s)
      else .next (markBreaches s)

/-! ### Watchdog (R70–R73) -/

/-- Whether a stream engine of the hull is halted awaiting a placement move. -/
def placementWait (s : State) (h : Nat) : Bool :=
  (s.hull h).pods.any (fun p => (s.pod p).engines.any (fun e => e.2.queue.any (fun d => d.halted.isSome)))

/-- The watchdog's limit: 2^LIMIT_LOG2, with LIMIT_LOG2 at least 16 (R72). -/
def wdogLimit (s : State) (p : Nat) : Nat := 2 ^ max 16 (s.rd (POD_WDOG p))

/-- STALL: the hull's watchdog count has reached its limit while a step is in progress on this device, which ends with the
boundary of its last tile (R164), and no engine awaits placement (R70, R72). -/
def execStall (hull : Nat) (s : State) : Result :=
  let hl := s.hull hull
  let runs := match hl.step with
    | some st => st.begun && !st.reported.contains hl.devIndex
    | none => false
  match sortBy (fun a b => a ≤ b) hl.pods with
  | [] => .next s
  | p :: ps =>
    if !hl.live || !runs || hl.fault.isSome || placementWait s hull then .next s
    else
      let ks := hullTiles s hull
      let pops := (ks.filter (fun k => (s.tile k).waitPop ≠ [])).length
      let pushes := (ks.filter (fun k => (s.tile k).waitPush ≠ [])).length
      let rec_ := faultRecord 0xFF 0x7F 0 0 s.ownId 0x10 (min pops 4095 + min pushes 4095 * 2 ^ 12)
      let s := (p :: ps).foldl (fun s q => notePodFault q 160 rec_ true (s.wr32 (POD_WDOG_COUNT q) (wdogLimit s q))) s
      .next (hullFault hull p 160 rec_ s)

end Sys2Proof.Machine
end

