-- ==== Sys2Proof/Machine/Serving.lean ====
section
/-! DEFINITION. The serving engine: step formation and the manifest, ports, expert layers, the commit of a step, and KV
admission (R277–R302, R353, R383). -/

namespace Sys2Proof.Machine

/-! ### The manifest region (R278, R295, R353) -/

/-- Bytes of a region stored by the serving engine for a hull. -/
def regionWrite (hull region off : Nat) (data : List Byte) (s : State) : State :=
  let r := regionAt s region
  noteWrote hull (b2n r.1) (r.2 + off) data.length (storeBytes r.1 (r.2 + off) data s)

/-- Layer entry `l` of the expert map: MODE, LIMIT, THRESHOLD, EXP_CAP, ROW_ENTRIES (R295). -/
structure LayerEntry where
  mode : Nat
  limit : Nat
  threshold : Word
  cap : Nat
  rowEntries : Nat

def layerEntry (s : State) (h l : Nat) : LayerEntry :=
  let b := 384 + 16 * l
  { mode := mapBytes s h b 1, limit := mapBytes s h (b + 1) 1, threshold := BitVec.ofNat 32 (mapBytes s h (b + 4) 4),
    cap := mapBytes s h (b + 8) 2, rowEntries := mapBytes s h (b + 10) 2 }

/-- RET_BYTES: 64 × the largest ROW_ENTRIES of the layer table (R295). -/
def retBytes (s : State) (h : Nat) : Nat :=
  64 * (List.range 256).foldl (fun m l => max m (mapBytes s h (384 + 16 * l + 10) 2)) 0

/-- Offsets in the manifest region of output staging and of input staging (R278, R353). -/
def outStaging (s : State) (h : Nat) : Nat := 0x100000 + (s.hull h).rows * 8 * retBytes s h
def inStaging (s : State) (h : Nat) : Nat := outStaging s h + 65536 * (s.hull h).rows

/-- Bytes that a manifest region needs (R278, R353). -/
def manifestNeed (rows ret : Nat) : Nat := 0x100000 + rows * 8 * ret + 2 * 65536 * rows

/-! ### Requests' parameters (R350) -/

def Request.isGen (q : Request) : Bool := entryOpcode q.entry = 0x31
def Request.inAddr (q : Request) : Nat := eb q.entry 12 8
def Request.inLen (q : Request) : Nat := eb q.entry 20 4
def Request.outAddr (q : Request) : Nat := eb q.entry 24 8
def Request.outLen (q : Request) : Nat := eb q.entry 32 4
def Request.passRows (q : Request) : Nat := eb q.entry 36 2
def Request.maxNew (q : Request) : Nat := eb q.entry 32 4
def Request.sprouts (q : Request) : Nat := eb q.entry 36 1
def Request.stops (q : Request) : List Nat := (List.range (min 4 (eb q.entry 37 1))).map (fun i => eb q.entry (40 + 4 * i) 4)

/-! ### Step formation (R277, R288) -/

/-- Prompt positions not yet run. -/
def promptLeft (q : Request) : Nat := if q.isGen then q.inLen - q.prefilled else 0

/-- The order of tenants at formation: deepest deficit first, then round-robin from a slot (R277, R291). -/
def tenantBefore (s : State) (next a b : Nat) : Bool :=
  let da := deficit s (s.slot a)
  let db := deficit s (s.slot b)
  if da ≠ db && (0 < da || 0 < db) then db < da
  else if 0 < da then a ≤ b
  else (a + 1024 - next) % 1024 ≤ (b + 1024 - next) % 1024

/-- Candidates of a step in their order. -/
def stepCands (s : State) (h : Nat) : List Nat :=
  let next := (s.hull h).nextSlot
  sortBy (fun a b =>
    let qa := s.request a
    let qb := s.request b
    if qa.tenant = qb.tenant then qa.order ≤ qb.order else tenantBefore s next qa.tenant qb.tenant)
    ((hullRequests s h).filter (fun i => let q := s.request i; (q.state = 1 || q.state = 2) && !q.paused))

/-- PAUSED is cleared of requests whose tenant has a whole token again (R288). -/
def unpause (h : Nat) (s : State) : State :=
  (hullRequests s h).foldl (fun s i =>
    let q := s.request i
    if q.paused && 1 ≤ available (s.slot q.tenant) then s.setRequest i { q with paused := false } else s) s

/-- A decode request pauses (R277, R303). -/
def pauseRequest (i : Nat) (s : State) : State :=
  let q := s.request i
  requestTrace q ((s.setRequest i { q with paused := true, everPaused := true }).addSat DEV_PAUSES 1)

/-- Segments gathered so far: the rows left, the segments, and the first tenant served. -/
structure Forming where
  free  : Nat
  segs  : List Seg
  first : Option Nat
  s     : State

/-- A segment added; a DECODE segment reserves its tokens (R288). -/
def addSeg (g : Seg) (f : Forming) : Forming :=
  let v := f.s.slot g.tenant
  { free := f.free - g.len, segs := f.segs ++ [g], first := f.first.or (some g.tenant)
    s := if g.kind = 1 then f.s.setSlot g.tenant { v with reserved := v.reserved + 1000 * g.len } else f.s }

/-- A candidate left out for lack of rows (R291). -/
def leaveOut (t : Nat) (f : Forming) : Forming :=
  { f with s := f.s.setSlot t { f.s.slot t with leftOut := true } }

/-- One candidate of form_step (R277). A PASS segment that does not fit whole waits for a later step. -/
def formOne (rows : Nat) (f : Forming) (i : Nat) : Forming :=
  let q := f.s.request i
  let row := rows - f.free
  if f.free = 0 then leaveOut q.tenant f
  else if !q.isGen then
    if q.passRows ≤ f.free then
      addSeg { req := i, tenant := q.tenant, seqPos := 0, row, len := q.passRows, kind := 2, guess := [] } f
    else leaveOut q.tenant f
  else if 0 < promptLeft q then
    let n := min (promptLeft q) f.free
    addSeg { req := i, tenant := q.tenant, seqPos := q.prefilled, row, len := n, kind := 0, guess := [] } f
  else
    let a := available (f.s.slot q.tenant)
    if a < 1 then { f with s := pauseRequest i f.s }
    else
      let k := min (min q.guesses.length (a - 1)) (f.free - 1)
      addSeg { req := i, tenant := q.tenant, seqPos := q.inLen + q.progress - 1, row, len := 1 + k, kind := 1,
               guess := q.guesses.take k } f

/-- The dither of a step start (R383). -/
def dither (s : State) (h stepNo : Nat) : Nat :=
  ((stepNo * 2654435761 + h * 40503 + s.ownId * 9973) % 2 ^ 64) % (s.rd FAB_DITHER * 1000 + 1)

/-- The 32 bytes of a manifest segment (R278). -/
def segBytes (g : Seg) : List Byte :=
  leBytes g.req 2 ++ leBytes g.tenant 2 ++ leBytes g.seqPos 4 ++ leBytes g.row 2 ++ leBytes g.len 2
    ++ leBytes g.kind 1 ++ leBytes g.guess.length 1 ++ zeros 2
    ++ (List.range 4).flatMap (fun i => leBytes (g.guess.getD i 0) 4)

/-- The manifest of a step written into its bank; its start is sent to the hull's other devices first (R278, R279). -/
def armStart (h : Nat) (s : State) : State :=
  let hl := s.hull h
  match hl.step, hl.manifest with
  | some st, some m =>
    let start := BitVec.ofNat 64 (max st.start.toNat s.counter.toNat)
    let s := s.setHull h { hl with step := some { st with start } }
    let s := (hl.devices.drop 1).foldl (fun s d =>
      if reachable s d then sendPacket d (some h) (.startNotice d h start) s
      else stepError h ST_FABRIC_UNREACHABLE (BitVec.ofNat 64 d) s) s
    let hdr := leBytes st.number 8 ++ leBytes start.toNat 8 ++ leBytes st.segs.length 2 ++ leBytes st.rowsUsed 2
      ++ leBytes st.halfSplit 2 ++ zeros 42
    regionWrite h m (st.number % 2 * 0x40000) (hdr ++ st.segs.flatMap segBytes) s
  | _, _ => s

/-- One input row of 64 KiB: a token ID and zeros, or bytes of a pass (R353). -/
def stageRow (h row : Nat) (data : List Byte) (s : State) : State :=
  match (s.hull h).manifest with
  | some m => regionWrite h m (inStaging s h + 65536 * row) (data ++ zeros (65536 - data.length)) s
  | none => s

/-- The input of one segment: host reads for prompt positions and pass input, or the rows themselves (R353). -/
def stageSeg (h : Nat) (s : State) (g : Seg) : State :=
  let q := s.request g.req
  let hl := s.hull h
  let more := fun (s : State) => match (s.hull h).step with
    | some st => s.setHull h { s.hull h with step := some { st with staging := st.staging + 1 } }
    | none => s
  if g.kind = 0 then
    more (dmaIn q.fn (q.inAddr + 4 * g.seqPos) (4 * g.len) (.staging h g.req g.row g.len) s)
  else if g.kind = 1 then
    ((q.lastTok :: g.guess).zip (List.range (1 + g.guess.length))).foldl
      (fun s x => stageRow h (g.row + x.2) (leBytes x.1 4) s) s
  else if q.passes = 0 && q.inLen ≠ 0 then
    more (dmaIn q.fn q.inAddr q.inLen (.staging h g.req g.row g.len) s)
  else if hl.live then (List.range g.len).foldl (fun s i => stageRow h (g.row + i) [] s) s else s

/-- Whether a hull can form a step: it lives, leads, stands at a boundary and is not to halt. -/
def canForm (s : State) (h : Nat) : Bool :=
  let hl := s.hull h
  !isStandby s && hl.live && hl.devIndex = 0 && hl.step.isNone && hl.fault.isNone && !hl.stopping && !hl.destroying && !hl.awaiting
    && hl.pods ≠ [] && hl.pods.all (fun p => s.rd (POD_STATE p) = POD_LOADED)

/-- form_step (R277): the next step of a hull, with its start (R279), its reservations and its staging. -/
def formStep (h : Nat) (s : State) : State :=
  if !canForm s h then s
  else
    let s := unpause h s
    let hl := s.hull h
    let f := (stepCands s h).foldl (formOne hl.rows) { free := hl.rows, segs := [], first := none, s }
    let s := f.s
    if f.segs = [] then s
    else
      let used := hl.rows - f.free
      let b := s.counter.toNat + 2000 + dither s h hl.stepNo
      let st : Step := { number := hl.stepNo, start := BitVec.ofNat 64 b, segs := f.segs, rowsUsed := used,
                         halfSplit := ceilDiv used 2 }
      let s := s.setHull h { s.hull h with step := some st, stepNo := hl.stepNo + 1,
                                           nextSlot := (f.first.getD 0 + 1) % 1024 }
      let s := f.segs.foldl (stageSeg h) s
      match (s.hull h).step with
      | some st2 => if st2.staging = 0 then armStart h s else s
      | none => s

/-- Every hull that stands idle forms a step if a request has become eligible. -/
def formAll (s : State) : State := (tkeys s.srv.hulls).foldl (fun s h => formStep h s) s

/-! ### Ports (R283, R284, R296) -/

/-- The step of a hull changed. -/
def setStep (h : Nat) (f : Step → Step) (s : State) : State :=
  let hl := s.hull h
  match hl.step with
  | some st => s.setHull h { hl with step := some (f st) }
  | none => s

/-- EMIT_ENTRY: the serving engine takes an entry of the EMIT endpoint; those beyond the count of segments are discarded
and counted (R284). -/
def execEmitEntry (pod : Nat) (s : State) : Result :=
  match s.podOwner pod with
  | none => .next s
  | some h =>
    if (s.hull h).step.isNone then .next s
    else match hubTake pod 48 s with
      | (none, _) => .next s
      | (some e, s) =>
        .next (setStep h (fun st =>
          if st.emits.length < st.segs.length then { st with emits := st.emits ++ [e.2] }
          else { st with extra := st.extra + 1 }) s)

/-- Whether the next GATE entry is one of half A: the entries come in row order, four a row, layer by layer, and half A's
have gone with its dispatch (R283, R300). -/
def gateForA (st : Step) : Bool :=
  (st.gateA.length + st.gateB.length + (if st.halfDone then 4 * st.halfSplit else 0)) % (4 * st.rowsUsed) < 4 * st.halfSplit

/-- SERVING_PORT_ENTRY: OUTPUT bytes join output staging, GATE scores and DISPATCH rows their batch half (R283, R296,
R300). -/
def execServingPortEntry (pod port : Nat) (s : State) : Result :=
  match s.podOwner pod with
  | none => .next s
  | some h =>
    if port < 49 || 52 < port || (s.hull h).step.isNone then .next s
    else match hubTake pod port s with
      | (none, _) => .next s
      | (some e, s) =>
        if port = 49 then
          let bytes := leBytes e.2.toNat 64
          let at_ := match (s.hull h).step with | some st => st.output.length | none => 0
          let s := setStep h (fun st => { st with output := st.output ++ bytes }) s
          match (s.hull h).manifest with
          | some m => .next (regionWrite h m (outStaging s h + at_) bytes s)
          | none => .next s
        else if port = 50 then
          .next (setStep h (fun st =>
            if gateForA st then { st with gateA := st.gateA ++ [e.2] }
            else { st with gateB := st.gateB ++ [e.2] }) s)
        else if port = 51 then .next (setStep h (fun st => { st with rowsA := st.rowsA ++ [e.2] }) s)
        else .next (setStep h (fun st => { st with rowsB := st.rowsB ++ [e.2] }) s)

/-! ### Expert layers (R295–R300) -/

/-- Expert entry of the map (R295). -/
structure ExpertEntry where
  primary  : Nat
  valid    : Bool
  standby  : Nat
  standbyValid : Bool
  localNo  : Nat

def expertEntry (s : State) (h e : Nat) : ExpertEntry :=
  let v := mapBytes s h (128 + 4 * e) 4
  { primary := bits v 0 3, valid := bit v 3, standby := bits v 4 3, standbyValid := bit v 7, localNo := bits v 8 6 }

/-- Device entry of the map: fabric ID where valid, HALF_BYTES, EXCHANGE (R295). -/
def deviceEntry (s : State) (h d : Nat) : Option Nat × Nat × Nat :=
  let b := 16 * d
  let v := mapBytes s h b 1
  (if bit v 7 then some (bits v 0 6) else none, mapBytes s h (b + 4) 4, mapBytes s h (b + 8) 8)

/-- The 64 scores of a row from its four GATE entries (R283). -/
def rowScores (es : List (BitVec 512)) : List Word := es.flatMap (fun e => bytesWords (leBytes e.toNat 64) 16)

/-- Ranking order (R296): higher score first, NaN below every number, ties and NaN by expert index. -/
def ranksBefore (a b : Nat × Word) : Bool :=
  match fpIsNaN a.2, fpIsNaN b.2 with
  | true, true => a.1 ≤ b.1
  | true, false => false
  | false, true => true
  | false, false => if fpLt b.2 a.2 then true else if fpLt a.2 b.2 then false else a.1 ≤ b.1

/-- The selections of a row, in rank order: expert and weight (R296). -/
def selectExperts (valid : Nat → Bool) (l : LayerEntry) (scores : List Word) : List (Nat × Word) :=
  let all := sortBy ranksBefore (((List.range 64).zip scores).filter (fun x => valid x.1))
  if l.mode = 1 then all.take (min l.limit 2)
  else if l.mode = 2 then (all.filter (fun x => !fpIsNaN x.2 && fpLe l.threshold x.2)).take (min l.limit 8)
  else []

/-- A selection on its way: row, rank, expert, weight, and its fate: 0 = sent, 1 = dropped, 2 = degraded. -/
structure Sel where
  row    : Nat
  rank   : Nat
  expert : Nat
  weight : Word
  fate   : Nat := 0
  device : Nat := 0
  localNo : Nat := 0

/-- Whether a device index of the map can be reached now (R299). -/
def deviceReachable (s : State) (h d : Nat) : Bool :=
  match (deviceEntry s h d).1 with
  | some id => s.isHere id || reachable s id
  | none => false

/-- The device that serves a selection: PRIMARY, else STANDBY, else none (R299). -/
def placeSel (s : State) (h : Nat) (x : Sel) : Sel :=
  let e := expertEntry s h x.expert
  if deviceReachable s h e.primary then { x with device := e.primary, localNo := e.localNo }
  else if e.standbyValid && deviceReachable s h e.standby then { x with device := e.standby, localNo := e.localNo }
  else { x with fate := 2 }

/-- EXP_CAP: of one expert's selections those of lower rank, then lower row, are kept (R298). -/
def capSels (cap : Nat) (xs : List Sel) : List Sel :=
  xs.map (fun x =>
    let before := xs.filter (fun y => y.expert = x.expert && (y.rank < x.rank || (y.rank = x.rank && y.row < x.row)))
    if cap ≤ before.length then { x with fate := 1 } else x)

/-- A row's route record (R296): WEIGHT of every rank that was selected, EXPERT of those that were sent. -/
def routeRecord (xs : List Sel) : List Byte :=
  let ok := fun (r : Nat) => xs.find? (fun x => x.rank = r && x.fate = 0)
  leBytes (xs.filter (fun x => x.fate = 0)).length 1
    ++ leBytes (b2n (xs.any (fun x => x.fate = 2)) + 2 * b2n (xs.any (fun x => x.fate = 1))) 1 ++ zeros 6
    ++ (List.range 8).flatMap (fun r => leBytes (match ok r with | some x => x.expert | none => 0xFF) 1)
    ++ (List.range 8).flatMap (fun r => leBytes (match xs.find? (fun x => x.rank = r) with | some x => x.weight.toNat | none => 0) 4)
    ++ zeros 16

/-- Bytes written to a device: at once where it is this one, else in REQ packets of at most 4 KiB (R38, R376). -/
def sendBytes (hull dev g : Nat) (data : List Byte) (s : State) : State :=
  let ga := BitVec.ofNat 64 g
  if s.isHere dev then
    let a := access true (.hullPort hull) (.addr ga) (.write data) s
    if rspFails a.code then stepError hull (rspStatus a.code) (ga + BitVec.ofNat 64 a.at_) a.s
    else if gSpace ga ≤ 1 then noteWrote hull (gSpace ga) (gOffset ga) data.length a.s else a.s
  else
    (List.range (ceilDiv data.length 4096)).foldl (fun s i =>
      sendRequest dev (some hull) (.dispatch hull)
        (fun h => .request h .hull (BitVec.ofNat 64 (g + 4096 * i)) (.write ((data.drop (4096 * i)).take 4096))) s) s

/-- ARRIVED raised by a count with an atomic ADD, after the last record (R297). -/
def raiseArrived (hull dev g n : Nat) (s : State) : State :=
  let ga := BitVec.ofNat 64 g
  let op : TierOp := .atomic .add .i64 (BitVec.ofNat 64 n)
  if s.isHere dev then
    let a := access true (.hullPort hull) (.addr ga) op s
    if rspFails a.code then stepError hull (rspStatus a.code) ga a.s
    else if gSpace ga ≤ 1 then noteWrote hull (gSpace ga) (gOffset ga) 8 a.s else a.s
  else sendRequest dev (some hull) (.dispatch hull) (fun h => .request h .hull ga op) s

/-- One record: its header and the row (R297). -/
def dispatchRecord (s : State) (h : Nat) (x : Sel) (row : List Byte) : List Byte :=
  let m := match (s.hull h).manifest with | some m => regionAt s m | none => (false, 0)
  let ret := (globalAddr s (b2n m.1) (m.2 + 0x100000 + (x.row * 8 + x.rank) * retBytes s h)).toNat
  leBytes ret 8 ++ leBytes x.localNo 1 ++ leBytes x.rank 1 ++ leBytes x.row 2 ++ leBytes x.weight.toNat 4 ++ zeros 48 ++ row

/-- This device's own index in the map, in which its sub-area of every exchange area lies (R297). -/
def ownIndex (s : State) (h : Nat) : Nat :=
  ((List.range 8).find? (fun d => (deviceEntry s h d).1.any s.isHere)).getD 0

/-- The records of a half for one device, then its ARRIVED (R297). -/
def sendHalf (h half dev : Nat) (xs : List Sel) (rowOf : Nat → List Byte) (s : State) : State :=
  match deviceEntry s h dev with
  | (some id, hb, ex) =>
    let mine := sortBy (fun (a b : Sel) => a.localNo < b.localNo || (a.localNo = b.localNo && a.row ≤ b.row))
      (xs.filter (fun x => x.fate = 0 && x.device = dev))
    if mine = [] then s
    else
      let base := ex + half * hb + ownIndex s h * (hb / 8)
      let data := mine.flatMap (fun x => dispatchRecord s h x (rowOf x.row))
      raiseArrived h id base mine.length (sendBytes h id (base + 64) data s)
  | _ => s

/-- Rows of a batch half, and its first row. -/
def halfRows (st : Step) (halfB : Bool) : Nat := if halfB then st.rowsUsed - st.halfSplit else st.halfSplit
def halfFirst (st : Step) (halfB : Bool) : Nat := if halfB then st.halfSplit else 0
def halfGate (st : Step) (halfB : Bool) : List (BitVec 512) := if halfB then st.gateB else st.gateA
def halfData (st : Step) (halfB : Bool) : List (BitVec 512) := if halfB then st.rowsB else st.rowsA

/-- The selections of a half, each placed and the experts' capacity applied (R296, R298, R299). -/
def halfSels (s : State) (h : Nat) (st : Step) (halfB : Bool) : List Sel :=
  let l := layerEntry s h st.layer
  let valid := fun e => (expertEntry s h e).valid
  let sels := (List.range (halfRows st halfB)).flatMap (fun r =>
    let picks := selectExperts valid l (rowScores (((halfGate st halfB).drop (4 * r)).take 4))
    (picks.zip (List.range picks.length)).map (fun p =>
      placeSel s h { row := halfFirst st halfB + r, rank := p.2, expert := p.1.1, weight := p.1.2 }))
  (sels.filter (fun x => x.fate ≠ 0)) ++ capSels l.cap (sels.filter (fun x => x.fate = 0))

/-- The step after a half's dispatch: its marks, and its entries taken. -/
def halfTaken (l : LayerEntry) (halfB : Bool) (sels : List Sel) (st : Step) : Step :=
  let n := halfRows st halfB
  let st := { st with dropped := st.dropped ++ (sels.filter (fun (x : Sel) => x.fate = 1)).map Sel.row
                      degraded := st.degraded ++ (sels.filter (fun (x : Sel) => x.fate = 2)).map Sel.row }
  let st := if halfB then { st with gateB := st.gateB.drop (4 * n), rowsB := st.rowsB.drop (l.rowEntries * n) }
    else { st with gateA := st.gateA.drop (4 * n), rowsA := st.rowsA.drop (l.rowEntries * n) }
  if halfB || st.rowsUsed = st.halfSplit then { st with layer := st.layer + 1, halfDone := false }
  else { st with halfDone := true }

/-- A half dispatched: drops and degraded selections counted, route records written, records sent (R296–R300). -/
def dispatchHalf (h : Nat) (halfB : Bool) (st : Step) (s : State) : State :=
  let l := layerEntry s h st.layer
  let n := halfRows st halfB
  let first := halfFirst st halfB
  let sels := halfSels s h st halfB
  let drops := sels.filter (fun x => x.fate = 1)
  let degr := sels.filter (fun x => x.fate = 2)
  let s := if drops = [] then s else (s.addSat DEV_EXPERT_DROPS drops.length).raise DEV_SRV_STATUS 3
  let s := if degr = [] then s else (s.addSat DEV_DEGRADED_PATH degr.length).raise DEV_SRV_STATUS 2
  let rowOf := fun (r : Nat) => (((halfData st halfB).drop (l.rowEntries * (r - first))).take l.rowEntries).flatMap
    (fun e => leBytes e.toNat 64)
  let s := match (s.hull h).manifest with
    | some m => (List.range n).foldl (fun s r =>
        regionWrite h m (0x80000 + st.layer % 2 * 0x40000 + 64 * (first + r))
          (routeRecord (sels.filter (fun x => x.row = first + r))) s) s
    | none => s
  setStep h (halfTaken l halfB sels) ((List.range 8).foldl (fun s d => sendHalf h (b2n halfB) d sels rowOf s) s)

/-- Whether a half of the present layer can be dispatched: its gate entries and rows are complete, and half B follows half
A (R300). -/
def halfReady (s : State) (h : Nat) (halfB : Bool) (st : Step) : Bool :=
  let l := layerEntry s h st.layer
  l.mode ≠ 0 && st.layer < 256 && st.begun && halfB = st.halfDone && (s.hull h).fault.isNone
    && 4 * halfRows st halfB ≤ (halfGate st halfB).length && l.rowEntries * halfRows st halfB ≤ (halfData st halfB).length

/-- EXPERT_DISPATCH: a batch half with its gate entries and rows complete is routed to its experts' devices (R296–R300). -/
def execExpertDispatch (hull : Nat) (halfB : Bool) (s : State) : Result :=
  match (s.hull hull).step with
  | none => .next s
  | some st => if halfReady s hull halfB st then .next (dispatchHalf hull halfB st s) else .next s

/-! ### Commit (R280, R287, R288, R293, R294) -/

/-- Fields of an EMIT entry (R283). -/
def emSegment (e : BitVec 512) : Nat := eb e 0 2
def emKind (e : BitVec 512) : Nat := eb e 2 1
def emEnd (e : BitVec 512) : Bool := bit (eb e 3 1) 0
def emBytes (e : BitVec 512) : Nat := eb e 4 4
def emOut (e : BitVec 512) (j : Nat) : Nat := eb e (8 + 4 * j) 4
def emGuesses (e : BitVec 512) (limit : Nat) : List Nat :=
  (List.range (min (min (eb e 44 1) 4) limit)).map (fun i => eb e (28 + 4 * i) 4)

/-- Whether a step's EMIT entries match its manifest (R284). -/
def emitsMatch (st : Step) : Bool :=
  st.extra = 0 && st.emits.length = st.segs.length &&
    ((st.segs.zip st.emits).zip (List.range st.segs.length)).all (fun x =>
      emSegment x.1.2 = x.2 && emKind x.1.2 = (if x.1.1.kind = 2 then 1 else 0))

/-- Guesses accepted: the largest a with gj = o(j−1) for every j to a (R293). -/
def accepted (g : List Nat) (e : BitVec 512) : Nat :=
  (((g.zip (List.range g.length)).takeWhile (fun x => x.1 = emOut e x.2))).length

/-- Tokens up to and with the first that stops the request, of at most `room` (R287). -/
def untilStop (stops : List Nat) : Nat → List Nat → List Nat × Bool
  | _, [] => ([], false)
  | 0, _ :: _ => ([], true)
  | n + 1, t :: ts =>
    if stops.contains t || n = 0 then ([t], true)
    else
      let r := untilStop stops n ts
      (t :: r.1, r.2)

/-- Flags of a request from a step that it took part in (R302). -/
def flagRequest (q : Request) (st : Step) (g : Seg) : Request :=
  let inRows := fun (rs : List Nat) => rs.any (fun r => g.row ≤ r && r < g.row + g.len)
  { q with state := REQ_RUNNING, stepVal := st.start, steps := q.steps + 1,
           unwritten := q.unwritten || st.unwritten, breach := q.breach || st.breach,
           boundOver := q.boundOver || st.boundOver, dropped := q.dropped || inRows st.dropped,
           degraded := q.degraded || inRows st.degraded }

/-- What committing one segment leaves: the state, and whether the step stops the request. -/
structure Done where
  s     : State
  stops : List (Nat × Bool)
  /-- OUTPUT bytes not yet taken by a PASS segment. -/
  bytes : List Byte
  /-- Output writes of step 5 of R280: function, address, bytes. -/
  outs  : List (Nat × Nat × List Byte)

/-- A tenant's tokens counted: for its floor always, against its budget where its segment reserved them (R288, R291). -/
def chargeTokens (t n : Nat) (charged : Bool) (s : State) : State :=
  let v := s.slot t
  let lvl := if charged && v.rate ≠ UNLIMITED then v.level - 1000 * n else v.level
  (s.setSlot t { v with level := lvl, window := v.window + n }).add64 DEV_TOKENS n

/-- Tokens committed to a GENERATE by a DECODE segment or by the end of its prompt (R287, R293, R294). -/
def commitTokens (st : Step) (g : Seg) (e : BitVec 512) (d : Done) : Done :=
  let q := d.s.request g.req
  let hl := d.s.hull q.hull
  let a := accepted g.guess e
  let toks := g.guess.take a ++ [emOut e a]
  let r := untilStop q.stops (q.maxNew - q.progress) toks
  let n := r.1.length
  let new := emGuesses e (min q.sprouts hl.sprouts)
  let lost := q.guesses.length - min a n
  let q2 := { flagRequest q st g with
    progress := q.progress + n, lastTok := r.1.getLastD q.lastTok, guesses := new, rejected := q.rejected + lost,
    prefilled := if g.kind = 0 then q.prefilled + g.len else q.prefilled }
  let s := chargeTokens g.tenant n (g.kind = 1) d.s
  let s := (s.add64 DEV_SPROUT_GUESSES new.length).add64 DEV_SPROUT_REJECTED lost
  { d with s := s.setRequest g.req q2, stops := d.stops ++ [(g.req, r.2 || emEnd e)],
           outs := if q.quiet then d.outs else d.outs ++ [(q.fn, q.outAddr + 4 * q.progress, r.1.flatMap (fun t => leBytes t 4))] }

/-- Bytes committed to a RUN_GRAPH by a PASS segment (R285, R302, R339). -/
def commitPass (st : Step) (g : Seg) (e : BitVec 512) (d : Done) : Done :=
  let q := d.s.request g.req
  let bs := d.bytes.take (emBytes e)
  let fit := bs.take (q.outLen - q.progress)
  let q2 := { flagRequest q st g with
    progress := q.progress + fit.length, passes := q.passes + 1, truncated := q.truncated || fit.length < bs.length }
  { s := d.s.setRequest g.req q2, stops := d.stops ++ [(g.req, emEnd e)], bytes := d.bytes.drop (emBytes e),
    outs := if q.quiet then d.outs else d.outs ++ [(q.fn, q.outAddr + q.progress, fit)] }

/-- One segment of a committed step (R280 steps 2 and 4). -/
def commitSeg (st : Step) (d : Done) (x : Seg × BitVec 512) : Done :=
  let g := x.1
  let q := d.s.request g.req
  let d := { d with s := releaseSeg g d.s }
  if g.kind = 2 then commitPass st g x.2 d
  else if g.kind = 0 && q.prefilled + g.len < q.inLen then
    { d with s := d.s.setRequest g.req { flagRequest q st g with prefilled := q.prefilled + g.len },
             stops := d.stops ++ [(g.req, false)] }
  else commitTokens st g x.2 d

/-- Requests that reach a final state at a commit: stopped, or cancelled at this boundary (R280 step 6, R301). -/
def settleRequest (s : State) (x : Nat × Bool) : State :=
  let q := s.request x.1
  let cancels := fun (r : Running) => r.kind == .cancelling x.1
  if x.2 then
    let s := endRequest x.1 REQ_COMPLETED (successStatus q q.cancel) 0 s
    if q.cancel then finishRuns cancels ST_NOTHING_TO_CANCEL 0 s else s
  else if q.cancel then finishRuns cancels ST_OK 0 (cancelRequest x.1 s)
  else s

/-- What the commit of a hull's step does (R280 steps 4 to 6). -/
def commitEffects (h : Nat) (s : State) : State :=
  match (s.hull h).step with
  | none => s
  | some st =>
    let d := (st.segs.zip st.emits).foldl (commitSeg st) { s, stops := [], bytes := st.output, outs := [] }
    let s := d.outs.foldl (fun s o => dmaOut o.1 o.2.1 o.2.2 s) d.s
    let s := d.stops.foldl settleRequest s
    let hl := s.hull h
    (s.setHull h { hl with step := none, committed := hl.committed + 1, lastStart := st.start }).addSat DEV_STEPS 1

/-- A step that does not commit for a tier or fabric error: every request of its manifest ends with the error (R225,
R281). -/
def failStep (h status : Nat) (addr : DWord) (s : State) : State :=
  match (s.hull h).step with
  | none => s
  | some st =>
    let s := releaseStep st s
    let s := s.setHull h { s.hull h with step := none }
    let s := s.addSat DEV_STEPS_FAILED 1
    let is := (st.segs.map (·.req)).eraseDups
    is.foldl (fun s i =>
      if isLive (s.request i) then
        finishRuns (fun r => r.kind == .cancelling i) ST_NOTHING_TO_CANCEL 0 (failRequest i status (some addr.toNat) s)
      else s) s

/-- Whether every device of a hull has reported its boundary (R280). -/
def allReported (hl : Hull) (st : Step) : Bool := (List.range hl.devCount).all (fun d => st.reported.contains d)

/-- EMIT_COUNT (R73, R284): X 0xFF, Y 0x7F, SHELL 0. The bit that R75's 24-bit DETAIL cannot hold is left out. -/
def emitFault (h : Nat) (st : Step) (s : State) : State :=
  match sortBy (fun a b => a ≤ b) (s.hull h).pods with
  | [] => s
  | p :: _ =>
    let rec_ := faultRecord 0xFF 0x7F 0 0 s.ownId 0x11
      (min 4095 (st.emits.length + st.extra) + st.segs.length % 4096 * 2 ^ 12)
    podFault h p 160 rec_ s

/-- Whether a step's epoch must still be acknowledged (R29). -/
def awaitsAck (s : State) (st : Step) : Bool :=
  match st.epoch with
  | some n => s.rd TWIN_STATE = 3 && s.rd64 TWIN_ACKED < n
  | none => false

/-- What of the mirror traffic stands unsent at a marker that a step waits for (R29, R387). -/
def noteUnsent (n : Nat) (s : State) : State :=
  if s.rd TWIN_STATE ≠ 3 then s
  else { s with twin := { s.twin with unsent := tput s.twin.unsent n (s.rd64 TWIN_LAG) 0 } }

/-- The epoch of a step about to commit; none where this module does not mirror. -/
def stepEpoch (h : Nat) (st : Step) (s : State) : State :=
  if !mirroring s || st.epoch.isSome then s
  else
    let body := granuleRecs s st.wrote ++ mirrorDiff s (commitEffects h s)
    let s := chargeTwin st.wrote s
    if EPOCH_LIMIT < bodyBytes body then setStep h (fun st => { st with epoch := some 0 }) (oversized 0 h st.start s)
    else
      let r := sendEpoch 0 h st.start body false s
      setStep h (fun st => { st with epoch := some r.1 }) (noteUnsent r.1 r.2)

/-- The end of a step at its lead device: failed, faulted, awaiting its epoch, or committed (R280, R281, R284). -/
def endStep (h : Nat) (s : State) : State :=
  let hl := s.hull h
  match hl.step with
  | none => s
  | some st =>
    if !st.begun || hl.devIndex ≠ 0 || hl.fault.isSome || !allReported hl st
        || hl.pods.any (fun p => hubQueue s p 48 ≠ [] || hubQueue s p 49 ≠ []) then s
    else match st.error with
      | some e =>
      let s := if mirroring s then (sendEpoch 0 h st.start [] true s).2 else s
      commandEpoch s (failStep h e.1 e.2 s)
      | none =>
        if !emitsMatch st then emitFault h st s
        else
          let s := stepEpoch h st s
          match (s.hull h).step with
          | some st2 => if awaitsAck s st2 then s else commitEffects h s
          | none => s

/-! ### Admission (R289, R290) -/

/-- KV footprint (R290). -/
def kvFootprint (hl : Hull) (q : Request) : Nat :=
  if q.isGen then roundUp ((q.inLen + q.maxNew + q.sprouts) * hl.kvb) PAGE else 0

/-- Sizes of a hull's two KV pools. -/
def kvPools (s : State) (hl : Hull) : Nat × Nat :=
  ((hl.kvN.map (fun h => (s.tensor h).elem)).getD 0, (hl.kvD.map (fun h => (s.tensor h).elem)).getD 0)

/-- A request's KV reservation, where the free parts suffice: bytes in the N-tier pool and in the D-tier pool. -/
def kvFit (s : State) (hl : Hull) (f : Nat) : Option (Nat × Nat) :=
  let p := kvPools s hl
  let fn := p.1 - hl.kvNUsed
  let fd := p.2 - hl.kvDUsed
  if f ≤ fn then some (f, 0) else if f ≤ fn + fd then some (fn, f - fn) else none

/-- The oldest QUEUED request of a hull is admitted if its reservation fits; the hull's requests are admitted strictly in
arrival order. -/
def admitOne (h : Nat) (s : State) : State :=
  match (hullRequests s h).find? (fun i => (s.request i).state = REQ_QUEUED) with
  | none => s
  | some i =>
    let q := s.request i
    let hl := s.hull h
    match kvFit s hl (kvFootprint hl q) with
    | none => s
    | some (n, d) =>
      let s := s.setHull h { hl with kvNUsed := hl.kvNUsed + n, kvDUsed := hl.kvDUsed + d }
      requestTrace q (s.setRequest i { q with state := REQ_ADMITTED, kvN := n, kvD := d })

/-- Every QUEUED request that can be admitted now, oldest first. -/
def admitAll (h : Nat) (s : State) : State := iterate (admitOne h) (hullRequests s h).length s

/-- KV_ADMISSION: the oldest QUEUED request of the hull is admitted once the free KV pool space suffices (R290). -/
def execKvAdmission (hull : Nat) (s : State) : Result :=
  if (s.hull hull).live && (s.hull hull).fault.isNone then .next (formStep hull (admitOne hull s)) else .next s

/-! ### Hulls that span devices (R276, R279, R280) -/

/-- BOUNDARY_REPORT: the lead device receives a device's report of the step's boundary, with the error or the marks that
its part of the step met (R211, R270, R280, R281, R298, R299). -/
def execBoundaryReport (hull : Nat) (report : PartReport) (s : State) : Result :=
  let dev := report.dev
  let hl := s.hull hull
  let known := match hl.step with | some st => st.reported.contains dev | none => true
  if hl.devIndex ≠ 0 || hl.devCount ≤ dev || known then .next s
  else
    let s := setStep hull (fun st => { st with reported := st.reported ++ [dev] }) s
    .next (match report.fate with
      | .clean m => setStep hull (fun st => { st with
          unwritten := st.unwritten || m.unwritten, breach := st.breach || m.breach, boundOver := st.boundOver || m.boundOver
          dropped := st.dropped ++ m.dropped, degraded := st.degraded ++ m.degraded }) s
      | .failed status addr => stepError hull status addr s)

/-- START_NOTICE: another device of the hull receives the agreed start of its next step and reads the step's manifest at the
lead device's address (R276, R278, R279). DESIGN CHOICE (log 171): the notice also says whether the lead committed the step
before; the manual names no other sign of it. -/
def execStartNotice (hull : Nat) (plan : StepPlan) (s : State) : Result :=
  let hl := s.hull hull
  if !hl.live || hl.devIndex = 0 || hl.fault.isSome then .next s
  else
    let prev := match hl.step with | some st => st.reported.contains hl.devIndex | none => true
    if !prev then .next s
    else
      let hl := match hl.step with
        | some st => if plan.committed then { hl with committed := hl.committed + 1, lastStart := st.start } else hl
        | none => hl
      let st : Step := { number := plan.number, start := plan.start, segs := plan.segs, rowsUsed := plan.rowsUsed,
                         halfSplit := ceilDiv plan.rowsUsed 2 }
      .next (s.setHull hull { hl with step := some st, stepNo := plan.number + 1 })

end Sys2Proof.Machine
end

