-- ==== Sys2Proof/Machine/Power.lean ====
section
/-! DEFINITION. Power domains, the ramp governor's requests and pod clock points, as every family that switches power uses
them (R249, R421–R425, R429). -/

namespace Sys2Proof.Machine

/-- Whether a domain is on (R439). -/
def domainIsOn (s : State) (d : Nat) : Bool := s.rdB (PWR_DOMAIN d)

/-- The mesh domain of a pod's die (R51, R421). -/
def meshDomain (p : Nat) : Nat := 80 + p / 20

/-- The declared step of a domain, in tenths of a watt (R421). -/
def domainStep (d : Nat) : Nat :=
  if d < 80 then 40 else if d < 84 then 300 else if d < 96 then 500 else if d < 98 then 900 else if d = 98 then 1800 else 1600

/-- The declared step of an action (R421, R429): 1.7 W for a pod point. -/
def rampStep : RampAct → Nat
  | .domainOn d => domainStep d
  | .domainOff d => domainStep d
  | _ => 17

/-- The ceiling in force, in W/ms; it is also the depth of the budget in tenths of a watt (R429, R431). -/
def rampCeiling (s : State) : Nat := if s.rdB PWR_LOW_ACTIVE then s.rd PWR_LOW_CEILING else s.rd PWR_CEILING

/-- The depth of the ramp budget in µW: 0.1 ms of the ceiling in force (R429). -/
def rampDepth (s : State) : Nat := rampCeiling s * 100000

/-- The budget as it stands now: it rises at the ceiling, up to the depth (R429). -/
def accrue (s : State) : State :=
  let b := s.pwr.budget + (rampCeiling s * (s.counter.toNat - s.pwr.budgetAt) : Nat)
  { s with pwr := { s.pwr with budget := min b (rampDepth s), budgetAt := s.counter.toNat } }

/-- A change of the ceiling: the budget risen so far is cut to the new depth at once (R431). -/
def changeCeiling (f : State → State) (s : State) : State := accrue (f (accrue s))

/-- Domain and point of an action, as its trace point gives them (R454). -/
def rampArgs (s : State) : RampAct → Nat × Nat
  | .domainOn d => (d, 0)
  | .domainOff d => (d, 0)
  | .pointUp p => (p, (s.pod p).rampPoint)
  | .pointDown p => (p, (s.pod p).rampPoint)
  | .restore p => (p, s.rd (POD_LIMIT_POINT p))

/-- A request joins the governor's queue (R429), with its trace point (R454). -/
def requestRamp (a : RampAct) (s : State) : State :=
  let x := rampArgs s a
  traceIn 896 960 [x.1, x.2, (s.pwr.budget / 1000000).toNat] { s with pwr := { s.pwr with ramp := s.pwr.ramp ++ [a] } }

/-- A domain is to be on. -/
def wantDomain (d : Nat) (s : State) : State :=
  if domainIsOn s d || s.pwr.rising.contains d || s.pwr.ramp.contains (.domainOn d) then s else requestRamp (.domainOn d) s

/-- Dies from the lowest to the highest that a set of pods touches (R62, R249). -/
def diesBetween (ps : List Nat) : List Nat :=
  let ds := ps.map (· / 20)
  let lo := ds.foldl min 3
  let hi := ds.foldl max 0
  (List.range 4).filter (fun d => lo ≤ d && d ≤ hi)

/-- The domains that a set of pods needs: the meshes of its dies and of those between them, then the pods (R249). -/
def hullDomains (ps : List Nat) : List Nat := if ps = [] then [] else (diesBetween ps).map (· + 80) ++ ps

def powerPods (ps : List Nat) (s : State) : State := (hullDomains ps).foldl (fun s d => wantDomain d s) s

def podsPowered (s : State) (ps : List Nat) : Bool := (hullDomains ps).all (domainIsOn s)

/-- Whether a pod holds no hull and can be used (R249). -/
def podFree (s : State) (p : Nat) : Bool := !s.rdB (POD_ASSIGNED p)

def freePods (s : State) : Nat := ((List.range 80).filter (podFree s)).length

/-! ### Pod clock points (R424, R425) -/

/-- The effective point that a pod is to have. -/
def targetPoint (s : State) (p : Nat) : Nat :=
  min (min (s.rd (POD_REQ_POINT p)) (s.rd GRD_MAX_POINT)) (min (s.rd (POD_LIMIT_POINT p)) (s.pod p).rampPoint)

/-- A change of one point begins when the effective point is not the one to have. -/
def retarget (p : Nat) (s : State) : State :=
  if domainIsOn s p && targetPoint s p ≠ s.rd (POD_EFF_POINT p) && !(s.pod p).changing then
    (s.setPod p { s.pod p with changing := true }).wr (POD_RELOCK p) 1
  else s

/-- Husk asks for point 9 in every pod of a hull, one point at a time, round-robin (R424, R429). -/
def raisePods (ps : List Nat) (s : State) : State :=
  let s := ps.foldl (fun s p => s.wr (POD_REQ_POINT p) 9) s
  (List.range 9).foldl (fun s i => ps.foldl (fun s p =>
    if (s.pod p).rampPoint ≤ i then requestRamp (.pointUp p) s else s) s) s

/-- Husk lowers the pods of a hull that has ended, through the governor (R424, R429). -/
def lowerPods (ps : List Nat) (s : State) : State :=
  let s := { s with pwr := { s.pwr with ramp := s.pwr.ramp.filter (fun a => match a with
    | .pointUp p => !ps.contains p
    | _ => true) } }
  (List.range 9).foldl (fun s i => ps.foldl (fun s p =>
    if i < (s.pod p).rampPoint then requestRamp (.pointDown p) s else s) s) s

/-! ### Wipes of tiles (R47, R79, R402) -/

/-- The 160 tiles of a pod as a wipe leaves them. The routers beside them stand in the mesh domain (R54). -/
def wipeTiles (p : Nat) (s : State) : State := { s with tiles := tclear s.tiles (p * 160) (p * 160 + 160) }

/-- What a pod's domain does not hold of its state: the guardian's part, which is always on (R23, R426), and the part of
the control block, which stands in the mesh domain (R82). -/
def guardPart (pd : Pod) : Pod :=
  { coolFor := pd.coolFor, sinceStep := pd.sinceStep, hot := pd.hot, drawn := pd.drawn,
    faultKept := pd.faultKept, faultAt := pd.faultAt, faultTile := pd.faultTile }

/-- A pod's window above its control block back at its reset values, but for the guardian's limit, which stands in the
always-on domain. The control block stays: it stands in the mesh domain (R82). -/
def resetPodWindow (p : Nat) (s : State) : State :=
  let l := s.rd (POD_LIMIT_POINT p)
  let pd := s.pod p
  let s := { s with bar := tclear s.bar (podBlock p + 0x1000) (podBlock p + 0x10000) }
  let s := ((s.setPod p (guardPart pd)).wr (POD_STATE p) POD_OFF).wr (POD_HUB_IDLE p) 1
  s.wr (POD_LIMIT_POINT p) l

/-- What stands in a die's mesh domain: the routers (R54) and the control blocks of its pods (R82). -/
def resetMesh (d : Nat) (s : State) : State :=
  let s := { s with routers := tclear s.routers (d * 3200) (d * 3200 + 3200) }
  (List.range 20).foldl (fun s i =>
    let p := d * 20 + i
    ({ s with bar := tclear s.bar (podBlock p) (podBlock p + 0x1000) }).setPod p
      { s.pod p with faultKept := false, faultAt := 0, faultTile := 0 }) s

/-- The contents of a stack or a half are lost with its domain (R201): every byte of its part of a written page is open. -/
def loseUnit (dTier : Bool) (u : Nat) (s : State) : State :=
  let pages := (tkeys (if dTier then s.tier.dWritten else s.tier.nWritten))
  let offs := (pages.flatMap (fun k => (List.range PAGE).map (fun i => k * PAGE + i))).filter (fun o => unitOf dTier o = u)
  offs.foldl (fun s o =>
    let b := [(s.fresh.1.truncate 8 : Byte)]
    let t := s.fresh.2.tier
    { s.fresh.2 with tier := if dTier then { t with dmem := mwrite t.dmem o b } else { t with nmem := mwrite t.nmem o b } }) s

/-- A domain is off: its bit clears, and a pod, a die's mesh, a stack, a half or the fabric loses what it held (R421). -/
def domainOffNow (d : Nat) (s : State) : State :=
  let s := s.wr (PWR_DOMAIN d) 0
  let s := { s with pwr := { s.pwr with rising := s.pwr.rising.filter (· ≠ d) } }
  if d < 80 then resetPodWindow d (wipeTiles d s)
  else if d < 84 then resetMesh (d - 80) s
  else if d < 96 then loseUnit false (d - 84) (s.wr ⟨unitBlock false (d - 84), 0, 2⟩ 0)
  else if d < 98 then loseUnit true (d - 96) (s.wr ⟨unitBlock true (d - 96), 0, 2⟩ 0)
  else if d = 98 then s.wr32 FT_STATUS (s.rd32 FT_STATUS / 2 * 2)
  else (List.range 16).foldl (fun s p => enterPort p 0 (s.wr (PORT_LANES p) 0)) s

end Sys2Proof.Machine
end

