-- ==== Sys2Proof/Machine/Package.lean ====
section
/-! DEFINITION. Graph packages: their header, tier request list and shell images (R147, R209), the checks before start with
the record of their first failure (R149, R150, R152), translation (R140), and the choice of pods (R251). -/

namespace Sys2Proof.Machine

/-! ### Reading a tensor's element plane -/

/-- Byte `o` of a tensor's element plane in its present copy; an unwritten page reads zero (R211). -/
def planeByte (s : State) (h o : Nat) : Byte :=
  let t := s.tensor h
  if t.elem ≤ o then 0#8
  else if t.inN then (if s.written false ((t.nBase + o) / PAGE) then tget s.tier.nmem (t.nBase + o) 0#8 else 0#8)
  else if t.inD then (if s.written true ((t.dBase + o) / PAGE) then tget s.tier.dmem (t.dBase + o) 0#8 else 0#8)
  else tget s.flash.fmem (t.fBase + o) 0#8

/-- `n` bytes at an offset of a package, little-endian (R12). -/
abbrev PkgRead := Nat → Nat → Nat

def pkgRead (s : State) (h : Nat) : PkgRead := fun o n => leNat ((List.range n).map (fun i => planeByte s h (o + i)))

/-- `n` bytes of a package. -/
def pkBytes (rd : PkgRead) (o n : Nat) : List Byte := (List.range n).map (fun i => BitVec.ofNat 8 (rd (o + i) 1))

/-! ### The header (R147) -/

def pkFlags (rd : PkgRead) : Nat := rd 0x06 2
def pkCompat (rd : PkgRead) : Bool := bit (pkFlags rd) 0
def pkMulti (rd : PkgRead) : Bool := bit (pkFlags rd) 1
def pkRealtime (rd : PkgRead) : Bool := bit (pkFlags rd) 2
def pkGraph (rd : PkgRead) : Nat := rd 0x08 8
def pkPods (rd : PkgRead) : Nat := rd 0x10 1
def pkConfigs (rd : PkgRead) : Nat := rd 0x11 1
def pkShapeW (rd : PkgRead) : Nat := rd 0x12 1
def pkShapeH (rd : PkgRead) : Nat := rd 0x13 1
def pkDevIndex (rd : PkgRead) : Nat := rd 0x14 1
def pkDevCount (rd : PkgRead) : Nat := rd 0x15 1
def pkWdog (rd : PkgRead) : Nat := rd 0x16 1
def pkShells (rd : PkgRead) : Nat := rd 0x18 8
def pkTiers (rd : PkgRead) : Nat := rd 0x20 8
def pkTierCount (rd : PkgRead) : Nat := rd 0x28 4

/-- Offset of the image for configuration `k`, logical pod `l` and local tile `t`. -/
def imgBase (rd : PkgRead) (k l t : Nat) : Nat := pkShells rd + ((k * pkPods rd + l) * 160 + t) * 2048

/-! ### The tier request list (R209) -/

def tierReq (rd : PkgRead) (i : Nat) : TierReq :=
  let b := pkTiers rd + 32 * i
  { kind := rd b 1, flags := rd (b + 1) 1, fmt := rd (b + 2) 1, lpod := rd (b + 3) 1, imp := rd (b + 4) 4,
    elem := rd (b + 8) 8, scale := rd (b + 16) 8, src := rd (b + 24) 8 }

def KIND_TENSOR : Nat := 0
def KIND_IMPORT : Nat := 1
def KIND_REGION_N : Nat := 2
def KIND_REGION_D : Nat := 3
def KIND_DESC : Nat := 4

/-- The list, empty where it reaches past the package's end. -/
def tierReqs (rd : PkgRead) (size : Nat) : List TierReq :=
  if size < pkTiers rd + 32 * pkTierCount rd then [] else (List.range (pkTierCount rd)).map (tierReq rd)

/-- Bytes of an entry's initial contents, in the arrangement of R208. -/
def srcLen (r : TierReq) : Nat := if r.kind = KIND_TENSOR then roundUp r.elem 64 + r.scale else r.elem

/-- The descriptor table entry of a logical pod. -/
def descTable (rs : List TierReq) (l : Nat) : Option TierReq := rs.find? (fun r => r.kind = KIND_DESC && r.lpod = l)

/-- Descriptors in a logical pod's table (R181, R194). -/
def descCount (rs : List TierReq) (l : Nat) : Nat :=
  match descTable rs l with | some r => min 1024 (r.elem / 64) | none => 0

/-- What Husk reads of a package before it carries out a command: its header and its list. -/
def frontRanges (rd : PkgRead) (h : Nat) : List (Nat × Nat × Nat) := [(h, 0, 64), (h, pkTiers rd, 32 * pkTierCount rd)]

/-- The initial contents that a package holds for entries of its list. -/
def sourceRanges (h : Nat) (rs : List TierReq) : List (Nat × Nat × Nat) :=
  (rs.filter (fun r => r.src ≠ 0 && r.kind ≠ KIND_IMPORT)).map (fun r => (h, r.src, srcLen r))
/-- Descriptor `i` of a logical pod, in package form; a table without initial contents is all zero. -/
def pkDesc (rd : PkgRead) (rs : List TierReq) (l i : Nat) : Desc :=
  let raw := match descTable rs l with
    | some r => if r.src = 0 then 0 else BitVec.ofNat 512 (rd (r.src + 64 * i) 64)
    | none => 0
  { job := 0, index := i, raw, tile := 0, ticket := 0 }

/-- Descriptor `i` of a pod's own table, at STR_TABLE in the N-tier (R181, R182). -/
def tableDesc (s : State) (p i : Nat) : Desc :=
  let o := gOffset (BitVec.ofNat 64 (s.rd64 (STR_TABLE p))) + 64 * i
  { job := 0, index := i, raw := BitVec.ofNat 512 (leNat (mread s.tier.nmem o 64)), tile := 0, ticket := 0 }

/-! ### Translation (R140, R157, R159) -/

/-- The stored form of an OUTPUT channel's mesh entry: the tile in its physical pod, or X 0xFF and Y 0x7F where the map
has no entry. -/
def storedEntry (map : Nat → Option Nat) (e : Nat) : Nat :=
  if chMode e ≠ MODE_OUTPUT || chHub e then e
  else
    let u := bits e 39 4
    let v := bits e 43 4
    let xy := match map (bits e 32 7) with
      | some p => (16 * (p % 10) + u, 10 * (p / 10) + v)
      | none => (0xFF, 0x7F)
    setBits (setBits e 32 8 xy.1) 40 7 xy.2

/-- The package form of a stored entry, under the map that it was stored with. -/
def packedEntry (unmap : Nat → Option Nat) (e : Nat) : Nat :=
  if chMode e ≠ MODE_OUTPUT || chHub e then e
  else
    let p := chY e / 10 * 10 + chX e / 16
    match (if chX e < 160 && chY e < 80 then unmap p else none) with
    | some l => setBits (setBits e 32 8 (l + chX e % 16 % 2 * 128)) 40 7 (chX e % 16 / 2 + chY e % 10 * 8)
    | none => setBits (setBits e 32 8 0xFF) 40 7 0x7F

/-- A shell image with its channel table rewritten entry by entry. -/
def mapEntries (f : Nat → Nat) (img : List Byte) : List Byte :=
  img.take 0x40 ++ (List.range 16).flatMap (fun q => leBytes (f (leNat ((img.drop (0x40 + 8 * q)).take 8))) 8)
    ++ img.drop 0xC0

/-- The map of a hull's pods (R252). -/
def podMap (ps : List Nat) (l : Nat) : Option Nat := ps[l]?

/-- The image of a package as the loader stores it. -/
def storedImage (rd : PkgRead) (ps : List Nat) (k l t : Nat) : List Byte :=
  mapEntries (storedEntry (podMap ps)) (pkBytes rd (imgBase rd k l t) 2048)

/-- A tile that holds an image in slot `slot` and nothing else. -/
def imageTile (slot : Nat) (img : List Byte) : Tile := { shell := mwrite [] (slot * 0x800) img, active := slot }

/-! ### The record of a failed check (R150) -/

structure Fail where
  check  : Nat
  /-- 0 = shell image, 1 = package header, 2 = tier request entry, 3 = stream descriptor. -/
  site   : Nat
  offset : Nat
  slot   : Nat := 0
  lpod   : Nat := 0
  ltile  : Nat := 0
  index  : Nat := 0

/-- DETAIL of ST_SHELL_INVALID. -/
def failDetail (ps : List Nat) (f : Fail) : Nat :=
  let p := ps.getD f.lpod 0
  let x := if f.site = 0 then (p % 10) * 16 + f.ltile % 16 else 0xFF
  let y := if f.site = 0 then (p / 10) * 10 + f.ltile / 16 else 0x7F
  x + y * 2 ^ 8 + f.slot * 2 ^ 15 + f.offset % 2048 * 2 ^ 17 + f.check * 2 ^ 28 + f.lpod * 2 ^ 32 + f.site * 2 ^ 39
    + min f.index (2 ^ 23 - 1) * 2 ^ 41

/-- A field's offset and whether it meets its test. -/
def need (o : Nat) (ok : Bool) : Nat × Bool := (o, ok)

/-- The offset of the first test that fails, in list order. -/
def firstBad (ts : List (Nat × Bool)) : Option Nat := (ts.find? (fun t => !t.2)).map (·.1)

/-! ### Header and tier requests (R149 checks 1 to 3) -/

def headerBad (rd : PkgRead) (size check : Nat) : Option Nat :=
  if check = 1 then firstBad [need 0 (rd 0 4 = 0x58475044), need 4 (rd 4 2 = 0x0200), need 0x3C (rd 0x3C 4 = crc32 (pkBytes rd 0 0x3C))]
  else if check = 2 then firstBad ([need 6 (bits (pkFlags rd) 3 13 = 0), need 0x17 (rd 0x17 1 = 0)]
    ++ (List.range 16).map (fun i => need (0x2C + i) (rd (0x2C + i) 1 = 0)))
  else if check = 3 then firstBad [
    need 0x10 (1 ≤ pkPods rd && pkPods rd ≤ 80), need 0x11 (1 ≤ pkConfigs rd && pkConfigs rd ≤ 4),
    need 0x12 (1 ≤ pkShapeW rd && pkShapeW rd ≤ 10),
    need 0x13 (1 ≤ pkShapeH rd && pkShapeH rd ≤ 8 && pkPods rd ≤ pkShapeW rd * pkShapeH rd),
    need 0x14 (pkDevIndex rd ≤ 63 && pkDevIndex rd < pkDevCount rd && (pkMulti rd || pkDevIndex rd = 0)),
    need 0x15 (1 ≤ pkDevCount rd && pkDevCount rd ≤ 64 && (pkMulti rd || pkDevCount rd = 1)), need 0x16 (pkWdog rd ≤ 31),
    need 0x18 (pkShells rd % 2048 = 0 && pkShells rd + pkConfigs rd * pkPods rd * 160 * 2048 ≤ size),
    need 0x20 (pkTiers rd + 32 * pkTierCount rd ≤ size)]
  else none

def tierBad (size check : Nat) (r : TierReq) : Option Nat :=
  if check = 2 then firstBad [
    need 1 (bits r.flags 4 4 = 0 && (r.kind ≠ KIND_TENSOR || bits r.flags 2 2 ≠ 3)),
    need 2 (bits r.fmt 4 4 = 0 && (r.kind ≠ KIND_TENSOR || fmtDefined r.fmt))]
  else if check = 3 then firstBad [
    need 0 (r.kind ≤ 4), need 16 (r.kind ≠ KIND_TENSOR || shapeOk r.fmt r.elem r.scale),
    need 24 (r.src = 0 || r.src + srcLen r ≤ size)]
  else none

/-- The first failure of one check in the header or the tier request list. -/
def frontBad (rd : PkgRead) (size check : Nat) : Option Fail :=
  match headerBad rd size check with
  | some o => some { check, site := 1, offset := o }
  | none =>
    let rs := tierReqs rd size
    ((rs.zip (List.range rs.length)).findSome? (fun x => (tierBad size check x.1).map (fun o =>
      { check, site := 2, offset := o, lpod := if x.1.kind = KIND_DESC then x.1.lpod % 128 else 0, index := x.2 })))

/-! ### What the image and descriptor checks look at -/

/-- A command's checks: the package, the map, the (configuration, slot) pairs that it loads, the hull's tier request list
with its handles, and whether the loaded slots are all there is (HULL_CREATE and a repackaging) or join others (SHELL_LOAD).
The descriptors are the package's in the first case, and those of the pods' own tables in the second (R149, R163, R186);
`own` is what names this device in them (R181). -/
structure Ctx where
  rd      : PkgRead
  size    : Nat
  pods    : List Nat
  loads   : List (Nat × Nat)
  reqs    : List TierReq
  handles : List Nat
  alone   : Bool
  count   : Nat → Nat
  desc    : Nat → Nat → Desc
  own     : Nat

/-- The shell of a slot in logical pod `l`, tile `t`, in stored form: loaded by the command, or already there. -/
def Ctx.shell (c : Ctx) (s : State) (slot l t : Nat) : Tile :=
  match c.loads.find? (fun p => p.2 = slot) with
  | some p => imageTile slot (storedImage c.rd c.pods p.1 l t)
  | none => s.tile (c.pods.getD l 0 * 160 + t)

/-- Whether a slot will be READY or ACTIVE in every pod of the hull. -/
def Ctx.slotOk (c : Ctx) (s : State) (slot : Nat) : Bool :=
  c.loads.any (fun p => p.2 = slot) || (!c.alone && c.pods.all (fun p => 2 ≤ s.rd (SHL_SLOT p slot)))

/-- A tile that holds the package form of an image in slot 0. -/
def Ctx.image (c : Ctx) (k l t : Nat) : Tile := imageTile 0 (pkBytes c.rd (imgBase c.rd k l t) 2048)

/-! ### Checks 1 to 3 of an image -/

/-- Reserved fields of the loop descriptor table (R165, R166). -/
def loopReserved (t : Tile) : List (Nat × Bool) :=
  let h := fun o n => t.sh t.active o n
  let hd := [need 0xC0 (bits (h 0xC0 1) 7 1 = 0), need 0xC1 (bits (h 0xC1 1) 3 5 = 0), need 0xC4 (bits (h 0xC4 1) 4 4 = 0),
    need 0xC6 (h 0xC6 1 = 0), need 0xC7 (h 0xC7 1 = 0)]
    ++ ([0xC8, 0xCC, 0xD0, 0xD4, 0xD8, 0xDC, 0xE0, 0xE4] : List Nat).map (fun o => need o (bits (h o 4) 18 14 = 0))
    ++ (List.range 24).map (fun i => need (0xE8 + i) (h (0xE8 + i) 1 = 0))
  hd ++ (List.range 6).flatMap (fun k =>
    let b := 0x100 + 32 * k
    if h 5 1 ≤ k then (List.range 32).map (fun i => need (b + i) (h (b + i) 1 = 0))
    else [need (b + 2) (bits (h (b + 2) 1) 2 6 = 0), need (b + 3) (h (b + 3) 1 = 0)]
      ++ (List.range 16).map (fun i => need (b + 16 + i) (h (b + 16 + i) 1 = 0)))

/-- First invalid word of an operation list: index, words left, ends of the REPEAT bodies that enclose it (R163). -/
def wordScan (word : Nat → Nat) (count tableLen : Nat) : Nat → Nat → List Nat → Option Nat
  | 0, _, _ => none
  | n + 1, i, ends =>
    let ends := ends.filter (fun e => i < e)
    let w := word i
    if !wordValid i ends.length count tableLen w then some i
    else wordScan word count tableLen n (i + 1)
      (if wOp w = OP_REPEAT then (i + 1 + bits (wImm w) 16 8) :: ends else ends)

/-- The hub endpoints that no channel may name: 56 to 63 (R180), and 53 to 55 (R283). -/
def hubReserved (i : Nat) : Bool := 53 ≤ i

/-- Checks 1 to 3 of one image in package form: `ids` tests the fields that name its place, `len` is the number of
descriptors in its pod's table. -/
def imageForm (img : List Byte) (ids : (Nat → Nat → Nat) → List (Nat × Bool)) (len check : Nat) : Option Nat :=
  let x := imageTile 0 img
  let h := fun o n => x.sh 0 o n
  if check = 1 then firstBad ([need 0 (h 0 2 = 0x5348), need 2 (h 2 1 = 2)] ++ ids h
    ++ [need 0x7F8 (h 0x7F8 4 = crc32 (img.take 0x7F8))])
  else if check = 2 then
    match firstBad ([need 3 (bits (h 3 1) 3 5 = 0), need 4 (fmtDefined (bits (h 4 1) 0 4) && bits (h 4 1) 4 4 = 0), need 19 (h 19 1 = 0)]
        ++ (List.range 40).map (fun i => need (24 + i) (h (24 + i) 1 = 0))) with
    | some o => some o
    | none =>
      match (List.range 16).findSome? (fun q => (chanInvalid (x.chanEntry 0 q)).map (fun b => 0x40 + 8 * q + b)) with
      | some o => some o
      | none => firstBad (loopReserved x ++ (match shellFmtBad x 0 with | some o => [need o false] | none => [])
          ++ (List.range 4).map (fun i => need (0x7FC + i) (h (0x7FC + i) 1 = 0)))
  else
    match firstBad ([need 5 (h 5 1 ≤ 6), need 6 (h 6 2 ≤ 159)] ++ (List.range 16).map (fun q =>
        let e := x.chanEntry 0 q
        need (0x40 + 8 * q + 4) (!(chMode e = MODE_OUTPUT && chHub e && hubReserved (chHubIdx e))))) with
    | some o => some o
    | none => (wordScan x.opWord x.opCount len x.opCount 0 []).map (fun i => 0x300 + 8 * i)

/-- Checks 1 to 3 of an image of a package. -/
def imageBad123 (c : Ctx) (check k l t : Nat) : Option Nat :=
  imageForm (pkBytes c.rd (imgBase c.rd k l t) 2048)
    (fun h => [need 8 (h 8 8 = pkGraph c.rd), need 16 (h 16 1 = k), need 17 (h 17 1 = l), need 18 (h 18 1 = t)]) (c.count l) check

/-! ### Check 4: channels (R65) -/

def pkEntry (c : Ctx) (k l t q : Nat) : Nat := c.rd (imgBase c.rd k l t + 0x40 + 8 * q) 8

/-- OUTPUT channels of a configuration whose mesh endpoint is channel `q` of tile `t` of logical pod `l`. -/
def producers (c : Ctx) (k l t q : Nat) : Nat :=
  ((List.range (pkPods c.rd)).flatMap (fun l2 => (List.range 160).flatMap (fun t2 => (List.range 16).filter (fun q2 =>
    let e := pkEntry c k l2 t2 q2
    chMode e = MODE_OUTPUT && !chHub e && bits e 32 7 = l && bits e 39 4 + 16 * bits e 43 4 = t && chQ e = q)))).length

/-- Whether a TSIDE 1 descriptor of the logical pod feeds a channel (R179). -/
def fedByStream (c : Ctx) (l t q : Nat) : Bool :=
  (List.range (c.count l)).any (fun i =>
    let d := c.desc l i
    d.tside = 1 && d.chanAt = (t, q))

/-- The rules of R65 that one tile's own table decides, for its channel `q` (R152). -/
def ownBad (x : Tile) (q : Nat) : Option Nat :=
  let e := x.chanEntry 0 q
  let o := 0x40 + 8 * q
  if chMode e = 0 then none
  else firstBad ([need o (chBase e ≤ 383), need (o + 1) (1 ≤ chDepth e && chBase e + chDepth e ≤ 384)]
    ++ (List.range q).map (fun r =>
      let f := x.chanEntry 0 r
      need o (chMode f = 0 || chBase f + chDepth f ≤ chBase e || chBase e + chDepth e ≤ chBase f)))

/-- The rules of R65 and R180 between the tiles of a hull. -/
def pairBad (c : Ctx) (k l t q : Nat) : Option Nat :=
  let e := pkEntry c k l t q
  let o := 0x40 + 8 * q
  if chMode e = MODE_INPUT then
    firstBad [need o (producers c k l t q + b2n (fedByStream c l t q) = 1)]
  else if chMode e = MODE_OUTPUT then
    if chHub e then firstBad [need (o + 2) (chInit e = 16)]
    else
      let l2 := bits e 32 7
      let t2 := bits e 39 4 + 16 * bits e 43 4
      let f := pkEntry c k l2 t2 (chQ e)
      firstBad [need (o + 2) (1 ≤ chInit e && chInit e ≤ 384), need (o + 4) (l2 < pkPods c.rd && bits e 43 4 < 10),
        need (o + 4) (chMode f = MODE_INPUT), need (o + 2) (chInit e = chDepth f)]
  else none

/-- Check 4 of one image. `looked` says whether the loader makes the checks within one image (R159). DESIGN CHOICE (log
162): where several fields of one image fail this check, the tests of BASE, DEPTH and overlap come first, channel by
channel, then those of pairing and credits; R150 orders the images and not the fields of one. -/
def imageBad4 (c : Ctx) (looked : Bool) (k l t : Nat) : Option Nat :=
  let x := c.image k l t
  match (if looked then (List.range 16).findSome? (ownBad x) else none) with
  | some o => some o
  | none => if pkMulti c.rd then none else (List.range 16).findSome? (pairBad c k l t)

/-! ### Check 5: PERSIST (R68, R149) -/

/-- The first PERSIST channel of the shell in slot `a` that the shell in slot `n` does not match. -/
def persistClash (x : Tile) (a : Nat) (y : Tile) (n : Nat) : Option Nat :=
  ((List.range 16).find? (fun q =>
    let e := x.chanEntry a q
    let f := y.chanEntry n q
    chPersist e && !(chMode e = chMode f && chBase e = chBase f && chDepth e = chDepth f && chHub e = chHub f
      && chEndpoint e = chEndpoint f))).map (fun q => 0x40 + 8 * q)

/-- The test of the shell in slot `a` with the shell of its NEXT_SHELL. -/
def nextBad (c : Ctx) (s : State) (a l t : Nat) : Option Nat :=
  let x := c.shell s a l t
  if !x.nextEn a then none
  else
    let n := x.nextShell a
    if !c.slotOk s n then some 3 else persistClash x a (c.shell s n l t) n

/-- Check 5 of a tile for the loaded slot `a`: its own switch, then the switches of other slots that lead to it. Answers
the failing slot and offset. -/
def imageBad5 (c : Ctx) (s : State) (a l t : Nat) : Option (Nat × Nat) :=
  match nextBad c s a l t with
  | some o => some (a, o)
  | none =>
    if c.alone then none
    else (List.range 4).findSome? (fun b =>
      let x := c.shell s b l t
      if b ≠ a && c.slotOk s b && x.nextEn b && x.nextShell b = a then
        (persistClash x b (c.shell s a l t) a).map (fun o => (b, o))
      else none)

/-! ### Check 6: buffers (R48, R149) -/

def imageBad6 (x : Tile) : Option Nat :=
  firstBad ([need 20 (x.sramTop ≤ 0x30000)] ++ (List.range x.opCount).map (fun i =>
    let w := x.opWord i
    let o := bits (wImm w) 0 18
    need (0x300 + 8 * i) (!((wOp w = OP_VLOAD || wOp w = OP_VSTORE) && wA w = 0) || (o % 128 = 0 && o + 128 ≤ x.sramTop))))

/-! ### Check 7: loop descriptors (R167, R169, R172, R175) -/

/-- Whether an access address is in range and aligned (R173). -/
def nestOk (x : Tile) (a : Int) (len align : Nat) : Bool := (nestTrap x false a len align 0).isNone

/-- The local tile at the next ring position of a pod row (R174). -/
def ringBeside (t : Nat) : Nat :=
  t / 16 * 16 + ([0, 2, 4, 6, 8, 10, 12, 14, 15, 13, 11, 9, 7, 5, 3, 1] : List Nat).getD ((ringPos (t % 16) + 1) % 16) 0

/-- Whether ROT_OUT's endpoint is ROT_IN of the next ring position, whose image is `y`, in the same pod row of the same
logical pod (R175). -/
def rotPair (x y : Tile) (l t : Nat) : Bool :=
  let e := x.chanEntry 0 (nhChan x 5 4)
  chMode (x.chanEntry 0 (nhChan x 5 0)) = MODE_INPUT && chMode e = MODE_OUTPUT && !chHub e && bits e 32 7 = l
    && bits e 39 4 = ringBeside t % 16 && bits e 43 4 = t / 16 && chQ e = nhChan y 5 0

/-- The tests of the nest of image `x` of local tile `t` of logical pod `l`; `y` is the image at the next ring position. -/
def nestTests (x y : Tile) (l t : Nat) : List (Nat × Bool) :=
  let f := x.planeFmt
  let g := fmtGroup f
  let ls := nestLevels x
  let col := t % 16
  let rows := boundProd isOut ls
  let units := boundProd (fun v => !isOut v) ls
  let allU := fun (p : Nat → Bool) => (List.range units).all p
  let allUN := fun (p : Nat → Nat → Bool) => (List.range units).all (fun u => (List.range rows).all (p u))
  let mode := fun (byte lo m : Nat) => chMode (x.chanEntry 0 (nhChan x byte lo)) = m
  let rl := ls.getD (ROT_LEVEL x) { bound := 0, role := 0, aS := 0, wS := 0, oS := 0 }
  let b0 := rotBuf x 0
  let b1 := rotBuf x 1
  let rb := nhBase x 36
  [need 5 (1 ≤ x.act 5 1 && x.act 5 1 ≤ 6),
   need 0xC1 (!ROT_EN x || (ROT_LEVEL x < ls.length && (isRed rl || rl.role = 2) && rl.bound = 16 && rl.wS = 0)),
   need 0xC2 (!A_QUEUE x || (mode 2 0 MODE_INPUT && (!fmtIsLN f || mode 2 4 MODE_INPUT))),
   need 0xC3 (!W_QUEUE x || (mode 3 0 MODE_INPUT && (!fmtIsLN f || mode 3 4 MODE_INPUT))),
   need 0xC4 (!O_QUEUE x || mode 4 0 MODE_OUTPUT),
   need 0xC5 (!ROT_EN x || rotPair x y l t),
   need 0xC8 (A_QUEUE x || allUN (fun u n => nestOk x (aAddr x col ls u n) g 1)),
   need 0xCC (A_QUEUE x || !fmtIsLN f || allUN (fun u n => nestOk x (aScaleAddr x col ls u n) 1 1)),
   need 0xD0 (W_QUEUE x || allU (fun u => (nestTrapRun x (wAddr x col ls u) (fmtLatch f) 0).isNone)),
   need 0xD4 (W_QUEUE x || !fmtIsLN f || allU (fun u =>
      let b := wScaleAddr x col ls u
      0 ≤ b && b + fmtLanes f ≤ (x.sramTop : Int) && b.toNat / 64 = (b.toNat + fmtLanes f - 1) / 64)),
   need 0xD8 (O_QUEUE x || allUN (fun u n => nestOk x (oAddr x col ls u n) (4 * fmtLanes f) (4 * fmtLanes f))),
   need 0xDC (!ROT_EN x || (b0 % 64 = 0 && b0 + rb ≤ x.sramTop)),
   need 0xE0 (!ROT_EN x || (b1 % 64 = 0 && b1 + rb ≤ x.sramTop && (b0 + rb ≤ b1 || b1 + rb ≤ b0))),
   need 0xE4 (!ROT_EN x || (rb % 64 = 0 && 64 ≤ rb)),
   need 0x100 (rows ≤ fmtRows f)]
  ++ (ls.zip (List.range ls.length)).flatMap (fun e =>
    let v := e.1
    let o := 0x100 + 32 * e.2
    let below := ls.take e.2
    [need o (1 ≤ v.bound), need (o + 2) (v.role ≤ 2 && below.all (fun w => w.role ≤ v.role) && (e.2 ≠ 0 || v.role = 0)),
     need (o + 4) (!fmtIsLN f || v.aS % (g : Int) = 0),
     need (o + 8) ((v.role ≠ 0 || v.wS = 0) && (!fmtIsLN f || v.wS % (g : Int) = 0)), need (o + 12) (v.role ≠ 1 || v.oS = 0)])

/-- Whether a shell holds PLANE_RUN. -/
def holdsPlaneRun (x : Tile) : Bool := (List.range x.opCount).any (fun i => wOp (x.opWord i) = OP_PLANE_RUN)

/-- The first failing test, in rising order of offset. -/
def imageBad7 (c : Ctx) (k l t : Nat) : Option Nat :=
  let x := c.image k l t
  if holdsPlaneRun x then firstBad (nestTests x (c.image k l (ringBeside t)) l t) else none

/-! ### Stream descriptors: checks 2, 7 and 8 (R177, R186) -/

/-- Bits of TILE_START that must be zero. -/
def tileStartOk (d : Desc) : Bool :=
  if d.tside = 0 then bits d.tileStart 26 6 = 0
  else if d.tside = 1 then bits d.tileStart 0 18 = 0 && bits d.tileStart 30 2 = 0
  else bits d.tileStart 5 27 = 0

/-- The loaded configurations in which some tile of the logical pod names the descriptor (R186). -/
def naming (c : Ctx) (l i : Nat) : List Nat :=
  (c.loads.filter (fun p => (List.range 160).any (fun t2 =>
    let x := c.image p.1 l t2
    (List.range x.opCount).any (fun j => wOp (x.opWord j) = OP_STREAM && bits (wImm (x.opWord j)) 0 10 = i)))).map (·.1)

/-- The lowest SRAM_TOP that a tile has in the configurations that name the descriptor; 192 KiB when none does. -/
def descTop (c : Ctx) (l i t : Nat) : Nat := (naming c l i).foldl (fun m k => min m (c.image k l t).sramTop) 0x30000

/-- Whether the channel that a TSIDE 1 descriptor names is an INPUT channel in every configuration that names the
descriptor (R179, R186). -/
def descChanOk (c : Ctx) (l : Nat) (d : Desc) : Bool :=
  d.chanAt.1 < 160 && (naming c l d.index).all (fun k =>
    chMode ((c.image k l d.chanAt.1).chanEntry 0 d.chanAt.2) = MODE_INPUT)

/-- Whether chunk `n` lies in its tile below the SRAM_TOP that counts, or names a channel or port (R186). -/
def descTileOk (c : Ctx) (l : Nat) (d : Desc) (n : Nat) : Bool :=
  if d.tside = 0 then
    0 ≤ d.tileAddr n && (d.sramAt n).1 < 160 && (d.sramAt n).2 + d.chunkBytes ≤ descTop c l d.index (d.sramAt n).1
  else if d.tside = 1 then descChanOk c l d
  else true

/-- The tensor or region that a TKIND 0 descriptor names: by its tier request index, or by its handle in a pod's own
table (R181). -/
def descTensor (c : Ctx) (s : State) (d : Desc) : Option Tensor :=
  if c.alone then match c.reqs[d.handle]? with
    | some r => if r.kind ≤ KIND_REGION_D then (c.handles[d.handle]?).map s.tensor else none
    | none => none
  else ((c.reqs.zip c.handles).find? (fun x => x.1.kind ≤ KIND_REGION_D && x.2 = d.handle)).map (fun x => s.tensor x.2)

def descTierOk (c : Ctx) (s : State) (d : Desc) (n : Nat) : Bool :=
  if d.tkind = 1 then true
  else match descTensor c s d, d.target n with
    | some t, some (.handle _ sc o) => o + d.chunkBytes ≤ (if sc then t.scale else t.elem)
    | none, _ => true
    | _, _ => false

/-- Whether a chunk at a global address of this device lies in a fixed region of the hull's allocation, save blocks
included. -/
def inFixed (s : State) (handles saves : List Nat) (g : DWord) (len : Nat) : Bool :=
  let o := gOffset g
  (handles.any (fun h =>
    let t := s.tensor h
    t.fixed && (if t.origin = 0 then gSpace g = 0 && t.nBase ≤ o && o + len ≤ t.nBase + t.elem
      else gSpace g = 1 && t.dBase ≤ o && o + len ≤ t.dBase + t.elem)))
  || (gSpace g = 0 && saves.any (fun b => b ≤ o && o + len ≤ b + 36 * 2 ^ 20))

def descBad (c : Ctx) (s : State) (saves : List Nat) (check l i : Nat) : Option Nat :=
  let d := c.desc l i
  let all := fun (p : Nat → Bool) => (List.range d.chunks).all p
  if check = 2 then firstBad ([need 0 (bits (eb d.raw 0 2) 10 6 = 0), need 4 (tileStartOk d)]
    ++ ((List.range 6).filter (fun k => d.dims ≤ k)).map (fun k => need (16 + 8 * k) (eb d.raw (16 + 8 * k) 8 = 0)))
  else if check = 7 then firstBad ([
    need 0 (1 ≤ d.dims && d.dims ≤ 6 && (d.tside = 0 || (d.tside = 1 && !d.write) || (d.tside = 2 && d.write))),
    need 2 (1 ≤ d.chunkG && d.chunkG ≤ 64), need 4 (all (descTileOk c l d)),
    need 8 ((if d.tkind = 0 then bits d.tierStart 20 44 else d.tierStart) % 64 = 0 && all (descTierOk c s d))]
    ++ d.dimList.map (fun k => need (16 + 8 * k) (d.count k ≠ 0 && (d.tside = 0 || d.tileStride k = 0))))
  else if check = 8 then firstBad [(8,
    if d.tkind = 0 then (descTensor c s d).isSome
    else gDevice (BitVec.ofNat 64 d.tierStart) ≠ c.own || all (fun n => match d.target n with
      | some (.addr g) => gDevice g = c.own && inFixed s c.handles saves g d.chunkBytes
      | _ => false))]
  else none

/-! ### The checks in their order (R149, R150, R152) -/

/-- One check of one image: the failing slot and offset. A pod whose SHL_CTRL.CHECK is clear makes none of the checks
within one image (R159). -/
def imageBad (c : Ctx) (s : State) (check k slot l t : Nat) : Option (Nat × Nat) :=
  let at_ := fun (o : Option Nat) => o.map (fun o => (slot, o))
  let looked := s.rdB (SHL_CHECK (c.pods.getD l 0))
  if check = 4 then at_ (imageBad4 c looked k l t)
  else if check = 5 then imageBad5 c s slot l t
  else if !looked then none
  else if check ≤ 3 then at_ (imageBad123 c check k l t)
  else if check = 6 then at_ (imageBad6 (c.image k l t))
  else if check = 7 then at_ (imageBad7 c k l t)
  else none

/-- The first failure of one check: header, tier requests, shell images, stream descriptors. -/
def checkBad (c : Ctx) (s : State) (saves : List Nat) (check : Nat) : Option Fail :=
  match frontBad c.rd c.size check with
  | some f => some f
  | none =>
    match c.loads.findSome? (fun p => (List.range (pkPods c.rd)).findSome? (fun l => (List.range 160).findSome? (fun t =>
        (imageBad c s check p.1 p.2 l t).map (fun r =>
          ({ check, site := 0, offset := r.2, slot := r.1, lpod := l, ltile := t } : Fail))))) with
    | some f => some f
    | none => (List.range (pkPods c.rd)).findSome? (fun l => (List.range (c.count l)).findSome? (fun i =>
        if pkMulti c.rd && check ≠ 2 then none
        else (descBad c s saves check l i).map (fun o => { check, site := 3, offset := o, lpod := l, index := i })))

/-- Checks 1 to 3 on the header and the tier request list, before anything is reserved (R253 step 1). -/
def frontFail (rd : PkgRead) (size : Nat) : Option Fail := ([1, 2, 3] : List Nat).findSome? (frontBad rd size)

/-- Every check that the package's regime makes: all eight, or for a hull that spans devices 1 to 3 and the channel rules
of one tile (R149, R152). -/
def allFail (c : Ctx) (s : State) (saves : List Nat) : Option Fail :=
  (if pkMulti c.rd then [1, 2, 3, 4] else [1, 2, 3, 4, 5, 6, 7, 8] : List Nat).findSome? (checkBad c s saves)

/-! ### Choosing pods (R251) -/

/-- The pods of a rectangle in row-major order; none where it leaves the grid. -/
def rectPods (w h tl : Nat) : Option (List Nat) :=
  if tl % 10 + w ≤ 10 && tl / 10 + h ≤ 8 && 0 < w && 0 < h then
    some ((List.range h).flatMap (fun r => (List.range w).map (fun c => tl + 10 * r + c)))
  else none

def diesOf (ps : List Nat) : List Nat := (ps.map (· / 20)).eraseDups

/-- A candidate: the figures that choose among candidates, in order, and its rectangle. -/
structure PodCand where
  key  : List Nat
  pods : List Nat

def lexLe : List Nat → List Nat → Bool
  | [], _ => true
  | _ :: _, [] => false
  | a :: as, b :: bs => a < b || (a = b && lexLe as bs)

/-- The candidates with the least key. -/
def leastCands (cs : List PodCand) : List PodCand := cs.filter (fun c => cs.all (fun d => lexLe c.key d.key))

def stageA (n w h : Nat) (free : Nat → Bool) : List PodCand :=
  if 20 < n then []
  else
    let shapes := (if h ≤ 2 then [(w, h)] else []) ++ [(ceilDiv n 2, 2)] ++ (if n ≤ 10 then [(n, 1)] else [])
    (shapes.zip (List.range shapes.length)).flatMap (fun sh => (List.range 80).filterMap (fun tl =>
      match rectPods sh.1.1 sh.1.2 tl with
      | some ps =>
        if (diesOf ps).length = 1 && ps.all free then
          let left := ((List.range 20).filter (fun i => free (20 * (tl / 20) + i))).length - n
          some { key := [left, sh.2, tl], pods := ps.take n }
        else none
      | none => none))

def stageB (n w h : Nat) (free : Nat → Bool) : List PodCand :=
  let shapes := [(w, h)] ++ (if h ≤ 10 && w ≤ 8 then [(h, w)] else [])
  (shapes.zip (List.range shapes.length)).flatMap (fun sh => (List.range 80).filterMap (fun tl =>
    match rectPods sh.1.1 sh.1.2 tl with
    | some ps => if ps.all free then some { key := [(diesOf ps).length, sh.2, tl], pods := ps.take n } else none
    | none => none))

def stageC (n : Nat) (free : Nat → Bool) : List PodCand :=
  (List.range 10).flatMap (fun w => (List.range 8).flatMap (fun h => (List.range 80).filterMap (fun tl =>
    match rectPods (w + 1) (h + 1) tl with
    | some ps =>
      if n ≤ (ps.filter free).length then
        some { key := [ps.length, (diesOf ps).length, tl], pods := (ps.filter free).take n }
      else none
    | none => none)))

/-- The stage and the pods of a hull, in the order of its logical pods (R251, R252); none with too few pods free. Where
the rules leave several rectangles equal, the device chooses. -/
def choosePods (n w h choice : Nat) (free : Nat → Bool) : Option (Nat × List Nat) :=
  let pick := fun (cs : List PodCand) => let b := leastCands cs; (b[choice % max 1 b.length]?).map (·.pods)
  match pick (stageA n w h free) with
  | some ps => some (0, ps)
  | none => match pick (stageB n w h free) with
    | some ps => some (1, ps)
    | none => (pick (stageC n free)).map (fun ps => (2, ps))

end Sys2Proof.Machine
end

