-- ==== Sys2Proof/Machine/Scan.lean ====
section
/-! DEFINITION. Tile images and pod records: what a drain writes to a pod's save block and what a restore reads back (R79,
R80, R153, R154, R157, R192, R193). -/

namespace Sys2Proof.Machine

/-- Bytes of a tile image, of a pod's images, of a save block, and the offset of its pod record (R79, R153). -/
def IMAGE_BYTES : Nat := 0x39000
def IMAGES_BYTES : Nat := 160 * IMAGE_BYTES
def SAVE_BYTES : Nat := 36 * 2 ^ 20
def RECORD_OFF : Nat := 0x23A0000

/-- A list of bytes padded with zeros to a length. -/
def padTo (n : Nat) (bs : List Byte) : List Byte := bs ++ zeros (n - bs.length)

/-! ### A tile's image (R79, R192) -/

/-- The 16 B state of a channel. -/
def chanBytes (e : Nat) (c : Chan) : List Byte :=
  let out := chMode e = MODE_OUTPUT
  leBytes c.head 2 ++ leBytes c.count 2 ++ leBytes (if out then c.credits else 0) 2
    ++ leBytes (if out then 0 else c.owed) 2 ++ zeros 8

/-- What the image gives as the sequencer's phase: a word that waits at issue shows as END does, waiting (R192). -/
def phaseByte (t : Tile) : Nat := if t.seq.phase = 1 && t.stalled then 3 else t.seq.phase

/-- The loop sequencer's state; zero at a boundary. -/
def seqBytes (t : Tile) : List Byte :=
  let q := t.seq
  if q.phase = 0 then zeros 1024
  else
    let rep := fun (i : Nat) => match q.reps[i]? with
      | some r => r.left % 2 ^ 32 + r.first * 2 ^ 32 + r.len * 2 ^ 48 + 2 ^ 63
      | none => 0
    let idx := nestIndexes (nestLevels t) q.nest.unit q.nest.row
    let tick := fun (k : Nat) => let v := tget t.tickets k {}; if v.busy then v.desc + 2 ^ 10 else 0
    padTo 1024 (padTo 8 (leBytes q.index 2 ++ leBytes (phaseByte t) 1)
      ++ padTo 0x38 ((List.range 4).flatMap (fun i => leBytes (rep i) 8))
      ++ (List.range 6).flatMap (fun k => leBytes (idx.getD k 0) 4)
      ++ leBytes (64 * q.nest.rotSent) 4 ++ leBytes (64 * q.nest.rotRecv) 4
      ++ (List.range 8).flatMap (fun k => leBytes (tick k) 4) ++ leBytes (b2n q.accOpen) 1)

/-- Tile control state: active shell, pending switch, last fault record. -/
def controlBytes (t : Tile) : List Byte :=
  padTo 512 (leBytes t.active 1 ++ leBytes (match t.pend with | some n => 0x80 + n | none => 0) 1 ++ zeros 6
    ++ leBytes t.fault.toNat 8)

/-- The 4 KiB of an image behind the stores: registers, channels, sequencer, control. -/
def imageTail (t : Tile) : List Byte :=
  regionRegs t ++ (List.range 16).flatMap (fun q => chanBytes (t.chanEntry t.active q) (t.chan q)) ++ seqBytes t
    ++ controlBytes t

/-- A tile's image stored at `base`. -/
def putImage (t : Tile) (base : Nat) (m : Tab Byte) : Tab Byte :=
  let m := mcopy t.sram 0 0x30000 m base
  let m := mcopy t.queues 0 0x6000 m (base + 0x30000)
  let m := mcopy t.shell 0 0x2000 m (base + 0x36000)
  mwrite m (base + 0x38000) (imageTail t)

/-- The shell store of an image with the endpoints of its four shells translated. -/
def translateStore (f : Nat → Nat) (shell : Tab Byte) : Tab Byte :=
  (List.range 4).foldl (fun m sl => (List.range 16).foldl (fun m q =>
    let o := sl * 0x800 + 0x40 + 8 * q
    mwrite m o (leBytes (f (leNat (mread m o 8))) 8)) m) shell

/-- The tile that an image at `base` holds (R80): every field as saved, every check code recomputed, and each endpoint
translated by `f`. -/
def getImage (f : Nat → Nat) (m : Tab Byte) (base : Nat) : Tile :=
  let tail := base + 0x38000
  let at_ := fun o n => leNat (mread m (tail + o) n)
  let t : Tile := { sram := mcopy m base 0x30000 [] 0, queues := mcopy m (base + 0x30000) 0x6000 [] 0,
                    shell := translateStore f (mcopy m (base + 0x36000) 0x2000 [] 0) }
  let t := setRegionRegs t (mread m tail 0x900)
  let ctl := 0x900 + 0x100 + 0x400
  { t with
    chans := (List.range 16).foldl (fun cs q =>
      let o := 0x900 + 16 * q
      tput cs q ({ head := at_ o 2, count := at_ (o + 2) 2, credits := at_ (o + 4) 2, owed := at_ (o + 6) 2 } : Chan) {}) []
    active := bits (at_ ctl 1) 0 2
    pend := if bit (at_ (ctl + 1) 1) 7 then some (bits (at_ (ctl + 1) 1) 0 2) else none
    fault := BitVec.ofNat 64 (at_ (ctl + 8) 8) }

/-! ### The pod record (R154, R193) -/

/-- A map entry as SHL_MAP holds it (R159). -/
def mapByte (ps : List Nat) (l : Nat) : Nat := match ps[l]? with | some p => p + 128 | none => 0

/-- The 512 B state of an engine: its register block as read. -/
def engineBytes (s : State) (p e : Nat) : List Byte :=
  (List.range 128).flatMap (fun i => leBytes (s.rd32 (engBlock p e + 4 * i)) 4)

/-- The pod record of logical pod `l` of hull `h`. -/
def podRecord (s : State) (h l p : Nat) : List Byte :=
  let hl := s.hull h
  let head := leBytes 0x50445352 4 ++ leBytes (b2n hl.fault.isSome + 2 * b2n hl.compat) 4 ++ leBytes hl.graph.toNat 8
    ++ leBytes hl.lastStart.toNat 8 ++ leBytes h 1 ++ leBytes l 1 ++ leBytes p 1 ++ leBytes hl.wdog 1
    ++ leBytes (s.rd32 (podBlock p + 0x1010)) 1 ++ zeros 3 ++ (List.range 80).flatMap (fun i => leBytes (mapByte hl.pods i) 1)
  let body := padTo 4092 (padTo 512 head ++ (List.range 4).flatMap (fun e => engineBytes s p e))
  body ++ leBytes (crc32 body) 4

/-- Whether a pod record can be restored into a hull: REC_MAGIC, REC_CRC, GRAPH_ID, FAULT = 0 (R157). -/
def recordGood (s : State) (h base : Nat) : Bool :=
  let r := fun o n => leNat (mread s.tier.nmem (base + RECORD_OFF + o) n)
  r 0 4 = 0x50445352 && r 4092 4 = crc32 (mread s.tier.nmem (base + RECORD_OFF) 4092)
    && r 8 8 = (s.hull h).graph.toNat && !bit (r 4 4) 0

/-- The logical pod that a saved map gives a physical pod. -/
def savedPod (s : State) (base p : Nat) : Option Nat :=
  (List.range 80).find? (fun l => leNat (mread s.tier.nmem (base + RECORD_OFF + 32 + l) 1) = p + 128)

/-! ### Scan-out and scan-in (R80, R155, R157) -/

/-- Whether a granule holds bytes of a save block's images or record (R153). -/
def inSave (base g : Nat) : Bool := base / 64 ≤ g && g < (base + RECORD_OFF + 4096) / 64

/-- Granules of a save block with more symbols in error than correction can mend. -/
def saveErrors (s : State) (base : Nat) : List Nat :=
  (tkeys s.tier.nBad).filter (fun g => inSave base g && 2 ≤ s.badSyms false g)

/-- Whether a save block holds a poisoned granule, which a scan-in reads as an error (R204). -/
def savePoisoned (s : State) (base : Nat) : Bool := (tkeys s.tier.nPoison).any (fun g => inSave base g && s.poisoned false g)

/-- The granules of a save block that a scan-in corrects as it reads them (R203). -/
def correctSave (base : Nat) (s : State) : State :=
  ((tkeys s.tier.nBad).filter (fun g => inSave base g && s.badSyms false g = 1)).foldl (fun s g => noteCorrected false g s) s

/-- Whether scan-out meets a word of a pod's data SRAMs or queue stores with two or more bits in error (R50). -/
def storesBad (s : State) (p : Nat) : Bool :=
  (List.range 160).any (fun t => (s.tile (p * 160 + t)).bad.any (fun e => e.1 < 0x6C00 && 2 ≤ e.2))

/-- The words of a pod's stores with one bit in error, corrected in place and counted as scan-out reads them (R50). -/
def correctStores (p : Nat) (s : State) : State :=
  (List.range 160).foldl (fun s t =>
    let tl := s.tile (p * 160 + t)
    let ones := tl.bad.filter (fun e => e.1 < 0x6C00 && e.2 = 1)
    countCorrected p ones.length (s.setTile (p * 160 + t)
      { tl with bad := tl.bad.filter (fun e => !(e.1 < 0x6C00 && e.2 = 1)) })) s

/-- A pod's images and its record written to a save block. -/
def scanOut (h l p base : Nat) (s : State) : State :=
  let s := (List.range 18).foldl (fun s i => openPage false (base / PAGE + i) s) s
  let m := (List.range 160).foldl (fun m t => putImage (s.tile (p * 160 + t)) (base + t * IMAGE_BYTES) m) s.tier.nmem
  let s := cleanGranules false base IMAGES_BYTES (s.setMem false m)
  storeBytes false (base + RECORD_OFF) (podRecord s h l p) s

/-- A pod's images read from a save block, each endpoint taken through the saved map and the hull's present one where
SCN_CTRL.TRANSLATE is set (R159); the slot
states, the engines' counters and WDOG_LOG2 come back (R157). -/
def scanIn (h p base : Nat) (s : State) : State :=
  let f := fun e => if s.rdB (SCN_TRANSLATE p) then storedEntry (podMap (s.hull h).pods) (packedEntry (savedPod s base) e) else e
  let m := s.tier.nmem
  let r := fun o n => leNat (mread m (base + RECORD_OFF + o) n)
  let s := (List.range 160).foldl (fun s t => s.setTile (p * 160 + t) (getImage f m (base + t * IMAGE_BYTES))) s
  let s := s.wr32 (podBlock p + 0x1010) (r 28 1)
  let s := s.wr (POD_WDOG p) (max 16 (r 27 1))
  (List.range 4).foldl (fun s e => ([0x10, 0x14, 0x18, 0x1C, 0x20, 0x24, 0x28] : List Nat).foldl (fun s o =>
    s.wr32 (engBlock p e + o) (r (512 + 512 * e + o) 4)) s) s

end Sys2Proof.Machine
end

