-- ==== Sys2Proof/Machine/Vector.lean ====
section
/-! DEFINITION. The scalar, vector, conversion, memory and queue operations of a tile (R109–R112, R122–R128, R162), and
the special-function units of a pod (R113–R116). -/

namespace Sys2Proof.Machine

/-! ### Arithmetic -/

def runSop (t : Tile) (w : Nat) (_ : State) : Issue :=
  .done (advance (t.setS (wDst w) (intFn (wFn w) (t.s (wA w)) (scalarB t w) (t.s (wC w))))) 0

/-- SOP: a scalar INT32 operation into DST (R162). -/
def execSop (tile : Nat) (s : State) : Result := .next (tileOp OP_SOP tile runSop s)

def runVint (t : Tile) (w : Nat) (_ : State) : Issue :=
  .done (advance (t.setV (wDst w) 0 (lanes3 (intFn (wFn w)) (t.v (wA w)) (vectorB t w) (t.v (wC w))))) 0

/-- VINT: an INT32 operation on every lane (R162). -/
def execVint (tile : Nat) (s : State) : Result := .next (tileOp OP_VINT tile runVint s)

def runVfp (t : Tile) (w : Nat) (_ : State) : Issue :=
  .done (advance (t.setV (wDst w) 0 (lanes3 (fpFn (wFn w)) (t.v (wA w)) (vectorB t w) (t.v (wC w))))) 0

/-- VFP: an FP32 operation on every lane (R110). -/
def execVfp (tile : Nat) (s : State) : Result := .next (tileOp OP_VFP tile runVfp s)

/-- The 32 results of a cross-lane operation (R110, R111). -/
def xlaneResult (t : Tile) (w : Nat) : List Word :=
  let a := t.v (wA w)
  if wFn w = 3 then List.replicate 32 (a.getD (bits (wImm w) 16 5) 0#32)
  else if wFn w = 4 then (t.v (wB w)).map (fun i => a.getD (i.toNat % 32) 0#32)
  else List.replicate 32 (crossLane (xlaneFn (wFn w) (bit (wImm w) 8)) a)

def runVxlane (t : Tile) (w : Nat) (_ : State) : Issue :=
  .done (advance (t.setV (wDst w) 0 (xlaneResult t w))) 0

/-- VXLANE: a cross-lane operation (R111). -/
def execVxlane (tile : Nat) (s : State) : Result := .next (tileOp OP_VXLANE tile runVxlane s)

/-! ### Conversion (R122–R128) -/

/-- The lanes of a register as one little-endian number. -/
def lanesNat (xs : List Word) : Nat := leNat (wordBytes xs)

/-- Whether two of the scalar registers that a conversion writes are one register other than s0: the manual does not say
what it then holds. -/
def cvtConflict (scale : Bool) (b m d : Nat) : Option Nat :=
  if m ≠ 0 && (m = d || (scale && m = b)) then some m
  else if scale && b ≠ 0 && b = d then some b
  else none

/-- The conversion of a VCVT from FP32: destination, maxima, scale, counters. DESIGN CHOICE (log 153): to INT32 it rounds to
nearest even in compatibility mode too; R132's list of truncating conversions does not name INT32. -/
def cvtOf (compat : Bool) (t : Tile) (w : Nat) : Cvt :=
  let imm := wImm w
  let xs := t.v (wA w)
  if bit imm 6 then
    { packed := lanesNat (xs.map (fun x => BitVec.ofNat 32 (fpToInt false 32 x))), scale := none,
      maximum := laneMax xs, limited := 0, special := xs.any fpIsNaN }
  else cvtFrom compat (bits imm 0 4) (if bit imm 5 then some (t.s (bits imm 20 6)) else none) xs

/-- The tile after a conversion from FP32 (R123, R127). -/
def cvtTile (t : Tile) (w : Nat) (c : Cvt) : Tile :=
  let imm := wImm w
  let old := t.s (bits imm 14 6)
  let t := t.setV (wDst w) 0 (bytesWords (leBytes c.packed 128) 32)
  let t := match c.scale with
    | some e => t.setS (wB w) (BitVec.ofNat 32 e)
    | none => t
  (t.setS (bits imm 8 6) c.maximum).setS (bits imm 14 6) (tensorMax old c.maximum)

/-- The 32 lanes of a conversion to FP32 (R122, R126). -/
def cvtBack (t : Tile) (w : Nat) : List Word :=
  if bit (wImm w) 6 then (t.v (wA w)).map (fun x => fpOfInt x.toInt)
  else cvtTo (bits (wImm w) 0 4) (bits (t.s (wB w)).toNat 0 8) (lanesNat (t.v (wA w)))

def runVcvt (t : Tile) (w : Nat) (compat : Bool) : Issue :=
  if bit (wImm w) 4 then .done (advance (t.setV (wDst w) 0 (cvtBack t w))) 0
  else
    let c := cvtOf compat t w
    let t2 := advance (cvtTile t w c)
    match cvtConflict c.scale.isSome (wB w) (bits (wImm w) 8 6) (bits (wImm w) 14 6) with
    | some r => .open_ (fun v => t2.setS r v)
    | none => .done t2 0

/-- The counters of a conversion from FP32 (R125, R127, R128, R133). -/
def cvtCount (p : Nat) (c : Cvt) (s : State) : State :=
  let s := if c.limited = 0 then s else s.addSat (CVT_SAT p) c.limited
  if c.special then s.addSat (CVT_SPECIAL p) 1 else s

/-- VCVT: a format conversion, with block scale and running maxima (R122–R128, R132). The counters count where the
word runs. -/
def execVcvt (tile : Nat) (s : State) : Result :=
  let p := podOf tile
  let compat := s.rdB (SFU_COMPAT p)
  let t := s.tile tile
  let w := currentWord t
  let runs := issuing tile s && wOp w = OP_VCVT && !(wordVectors w).any (sfuBusy t)
    && wordValid t.seq.index t.seq.reps.length t.opCount (s.rd (STR_TABLE_LEN p)) w && !bit (wImm w) 4
  let s2 := tileOp OP_VCVT tile (fun t w _ => runVcvt t w compat) s
  .next (if runs then cvtCount p (cvtOf compat t w) s2 else s2)

/-! ### Data SRAM and queues (R48, R66, R112) -/

/-- A word that ran counts what its SRAM accesses waited for (R49). -/
def withWaits (tile : Nat) (w : BankWait) (before after : State) : State :=
  if (after.tile tile).seq = (before.tile tile).seq then after else bankWaits tile w after

/-- The SRAM offset of VLOAD and VSTORE: SRC_A + IMM[17:0], modulo 2^32. -/
def memOffset (t : Tile) (w : Nat) : Nat := (t.s (wA w) + BitVec.ofNat 32 (bits (wImm w) 0 18)).toNat

def runVload (t : Tile) (w : Nat) (_ : State) : Issue :=
  let off := memOffset t w
  match sramTrap t false off 128 with
  | some tr => .trap tr
  | none =>
    let r := sramRead t off 128
    .done (advance (r.2.1.setV (wDst w) 0 (bytesWords r.1 32))) r.2.2

/-- VLOAD: DST takes 128 B of data SRAM (R162). -/
def execVload (op : BankedOp) (s : State) : Result :=
  .next (withWaits op.tile op.waits s (tileOp OP_VLOAD op.tile runVload s))

def runVstore (t : Tile) (w : Nat) (_ : State) : Issue :=
  let off := memOffset t w
  match sramTrap t true off 128 with
  | some tr => .trap tr
  | none =>
    let r := sramWrite t off (wordBytes (t.v (wB w)))
    .done (advance r.1) r.2

/-- VSTORE: 128 B of data SRAM take SRC_B (R162). -/
def execVstore (op : BankedOp) (s : State) : Result :=
  .next (withWaits op.tile op.waits s (tileOp OP_VSTORE op.tile runVstore s))

def runVpush (t : Tile) (w : Nat) (s : State) (p : Nat) : Issue :=
  let q := bits (wImm w) 0 4
  let data := wordBytes (t.v (wA w))
  let ok := routeOk s p
  let first := if t.seq.pushed then .ok t else pushEntry ok t q (data.take 64)
  match first with
  | .trap tr => .trap tr
  | .wait => .wait (t.awaitPush q)
  | .ok t1 =>
    match pushEntry ok t1 q (data.drop 64) with
    | .ok t2 => .done (advance t2) 0
    | .trap tr => .trap tr
    | .wait => .wait (({ t1 with seq := { t1.seq with pushed := true } }).awaitPush q)

/-- VPUSH: SRC_A leaves as two entries, lanes 0–15 first (R112); each waits for room of its own. -/
def execVpush (tile : Nat) (s : State) : Result :=
  .next (tileOp OP_VPUSH tile (fun t w s => runVpush t w s (podOf tile)) s)

def runVpop (t : Tile) (w : Nat) (_ : State) : Issue :=
  let q := bits (wImm w) 0 4
  match popEntry t q with
  | .trap tr => .trap tr
  | .wait => .wait (t.awaitPop q)
  | .ok (bs, t2, n) => .done (advance (t2.setV (wDst w) (if bit (wImm w) 4 then 16 else 0) (bytesWords bs 16))) n

/-- VPOP: one entry into half of DST (R112); a pop is a progress event (R71). -/
def execVpop (tile : Nat) (s : State) : Result :=
  let s2 := tileOp OP_VPOP tile runVpop s
  .next (if (s2.tile tile).seq = (s.tile tile).seq then s2 else progress (podOf tile) (owesAnew (podOf tile) s2))

/-! ### Special-function units -/

def runVsfu (t : Tile) (w : Nat) (_ : State) : Issue :=
  match t.sfu with
  | some _ => .wait t
  | none =>
    .done (advance { t with sfu := some { fn := bits (wImm w) 0 2, lanes := t.v (wA w), dst := wDst w,
                                          granted := false, waited := 0 } }) 0

/-- VSFU: a request is presented to the stripe's SFU; a second one waits at issue (R113). -/
def execVsfu (tile : Nat) (s : State) : Result := .next (tileOp OP_VSFU tile runVsfu s)

/-- The tile of column `u` of stripe `k`. -/
def stripeTile (p k u : Nat) : Nat := p * 160 + k * 16 + u

/-- Whether a tile has a request that waits for a grant. -/
def sfuWaits (s : State) (t : Nat) : Bool := match (s.tile t).sfu with | some r => !r.granted | none => false

/-- The columns of a stripe in round-robin order after column `last` (R114). -/
def rrOrder (last : Nat) : List Nat := (List.range 16).map (fun i => (last + 1 + i) % 16)

/-- One more grant to another tile seen by a waiting request (R115). -/
def sfuMissed (t : Tile) : Tile :=
  match t.sfu with
  | some r => if r.granted then t else { t with sfu := some { r with waited := r.waited + 1 } }
  | none => t

/-- The grant of SFU `k` to column `u`, with the counters of R133. -/
def sfuGranted (pod k u : Nat) (s : State) : State :=
  let pd := s.pod pod
  let f := tget pd.sfus k {}
  let t := stripeTile pod k u
  let tl := s.tile t
  let waited := match tl.sfu with | some r => r.waited | none => 0
  let s := s.setTile t { tl with sfu := tl.sfu.map (fun r => { r with granted := true }) }
  let s := ((List.range 16).filter (fun v => v ≠ u)).foldl (fun s v =>
    s.setTile (stripeTile pod k v) (sfuMissed (s.tile (stripeTile pod k v)))) s
  let s := s.setPod pod { pd with sfus := tput pd.sfus k { lastCol := u, granted := f.granted ++ [u] } { } }
  let s := s.addSat (SFU_GRANTS pod k) 1
  s.wr ⟨SFU_WAIT pod k, 0, 4⟩ (max (s.rd ⟨SFU_WAIT pod k, 0, 4⟩) (min 15 waited))

/-- SFU_GRANT: SFU `k` grants the first waiting tile after the one last granted (R114). -/
def execSfuGrant (pod k : Nat) (s : State) : Result :=
  if s.rd (POD_STATE pod) ≠ POD_RUNNING then .next s
  else match (rrOrder (tget (s.pod pod).sfus k {}).lastCol).find? (fun u => sfuWaits s (stripeTile pod k u)) with
    | none => .next s
    | some u => .next (sfuGranted pod k u s)

/-- SFU_RESULT_WRITE: a granted request's 32 results reach the destination register (R113, R116). -/
def execSfuResultWrite (tile : Nat) (s : State) : Result :=
  let t := s.tile tile
  let p := podOf tile
  let k := localOf tile / 16
  match t.sfu with
  | none => .next s
  | some r =>
    if !r.granted then .next s
    else
      let out := r.lanes.map (sfuLane (s.rdB (SFU_COMPAT p)) r.fn)
      let s := s.setTile tile ({ t with sfu := none }.setV r.dst 0 out)
      let pd := s.pod p
      let f := tget pd.sfus k {}
      .next (s.setPod p { pd with sfus := tput pd.sfus k { f with granted := f.granted.erase (localOf tile % 16) } {} })

end Sys2Proof.Machine
end

