-- ==== Sys2Proof/Machine/Hulls.lean ====
section
/-! DEFINITION. The life of a hull: creation, shell loads, drain, restore, resize, destruction and faults (R76, R144–R149,
R155–R157, R209, R248–R256), with the pod events that move them on. -/

namespace Sys2Proof.Machine

/-! ### Handle references (R334) -/

def hrefHandle (v : Nat) : Nat := bits v 0 20
def hrefGen (v : Nat) : Nat := bits v 20 16

/-- The HREF that the device returns for a handle: its current GEN filled in. -/
def hrefOf (s : State) (h : Nat) : Nat := h + (s.tensor h).gen * 2 ^ 20

/-- Why an HREF at byte offset `off` of a command names no tensor: status and DETAIL. -/
def hrefBad (s : State) (v off : Nat) : Option (Nat × Nat) :=
  let t := s.tensor (hrefHandle v)
  if 2 ^ 36 ≤ v then some (ST_BAD_PARAM, off)
  else if hrefHandle v = 0 || !t.valid then some (ST_NO_SUCH_TENSOR, off)
  else if hrefGen v ≠ 0 && hrefGen v ≠ t.gen then some (ST_STALE_HANDLE, t.gen)
  else none

/-! ### Which commands run on a hull (R250) -/

/-- The running command that acts on a hull's life. -/
def runOf (s : State) (h : Nat) : Option Running :=
  s.host.running.find? (fun r => match r.kind with
    | .creating x _ => x = h
    | .resizing x _ _ _ => x = h
    | .destroying x => x = h
    | .draining x => x = h
    | .restoring x => x = h
    | .mirroring x _ => x = h
    | _ => false)

/-- Whether a command of the group that Husk carries out one at a time is running (R250); CYCLE_TABLE_ARM
runs until its switch. -/
def groupBusy (s : State) : Bool :=
  s.host.running.any (fun r => match r.kind with
    | .creating _ _ => true
    | .resizing _ _ _ _ => true
    | .destroying _ => true
    | .cyclePinning _ _ _ => true
    | .cycleArmed _ => true
    | _ => false)

/-- The lowest free hull ID (R248). -/
def freeHullId (s : State) : Option Nat :=
  (List.range 128).find? (fun h => !(s.hull h).live && (s.hull h).pods = [])

/-! ### Pods given to a hull and taken back (R82, R83, R133, R159, R194) -/

/-- The pod's counters at zero and its fault flags clear. -/
def clearPodCounters (p : Nat) (s : State) : State :=
  let b := podBlock p
  let offs : List Nat := [0x14, 0x20, 0x30, 0x34, 0x38, 0x40, 0x44, 0x4100, 0x4104]
    ++ (List.range 10).flatMap (fun k => [0x4040 + 4 * k, 0x4080 + 4 * k])
    ++ (List.range 4).flatMap (fun e => [0x10, 0x14, 0x18, 0x1C, 0x20, 0x24, 0x28].map (fun o => 0x2000 + 0x200 * e + o))
  offs.foldl (fun s o => s.wr32 (b + o) 0) (s.setPod p { s.pod p with faultKept := false })

/-- The hull's map written to a pod. -/
def writeMap (ps : List Nat) (p : Nat) (s : State) : State :=
  (List.range 20).foldl (fun s n => s.wr32 (podBlock p + 0x1100 + 4 * n)
    ((List.range 4).foldl (fun v i => v + mapByte ps (4 * n + i) * 2 ^ (8 * i)) 0)) s

/-- The descriptor table's handle of a logical pod. -/
def descHandle (rs : List TierReq) (handles : List Nat) (l : Nat) : Option Nat :=
  ((rs.zip handles).find? (fun x => x.1.kind = KIND_DESC && x.1.lpod = l)).map (·.2)

/-- STR_TABLE, STR_TABLE_LEN and the routes of logical pod `l` as the hull's configuration has them (R181, R193). -/
def writeTable (hl : Hull) (l p : Nat) (s : State) : State :=
  let s := match descHandle hl.reqs hl.handles l with
    | some h => (s.wr64 (STR_TABLE p) (globalAddr s 0 (s.tensor h).nBase).toNat).wr (STR_TABLE_LEN p) (descCount hl.reqs l)
    | none => (s.wr64 (STR_TABLE p) 0).wr (STR_TABLE_LEN p) 0
  (List.range 16).foldl (fun s n => s.wr64 (STR_ROUTE p n) (tget hl.routes (16 * l + n) 0)) s

/-- A pod's engines, hub and loader with nothing in them; its job numbers go on. -/
def emptyPod (p : Nat) (s : State) : State :=
  let pd := s.pod p
  let s := s.setPod p { guardPart pd with nextJob := pd.nextJob, rampPoint := pd.rampPoint, changing := pd.changing }
  let s := (List.range 4).foldl (fun s e => (refreshEngine p e s).wr (STR_STOP p e) 0) (refreshHubIdle p s)
  (s.wr (SHL_BUSY p) 0).wr (SCN_BUSY p) 0

/-- A tile at rest: sequencer at a boundary, nothing on its way out or in. Registers, SRAM and shells stay. -/
def quietTile (t : Tile) : Tile :=
  { t with seq := {}, tickets := [], acc := [], left := {}, sfu := none, toMesh := [], toTile := [], waitPop := [],
           waitPush := [], stalled := false, remoteOut := 0, pend := none }

def quietTiles (p : Nat) (s : State) : State :=
  (List.range 160).foldl (fun s l => s.setTile (p * 160 + l) (quietTile (s.tile (p * 160 + l)))) s

/-- Husk assigns pod `p` to hull `h` as logical pod `l` (R83, R159, R253 step 5): every slot EMPTY (R134). -/
def assignPod (h : Nat) (ps : List Nat) (wdog : Nat) (compat : Bool) (p : Nat) (s : State) : State :=
  let s := quietTiles p (emptyPod p (clearPodCounters p s))
  let s := ((s.wr (POD_HULL p) h).wr (POD_ASSIGNED p) 1).wr (POD_WDOG p) (max 16 wdog)
  let s := (s.wrB (SFU_COMPAT p) compat).wr32 (podBlock p + 0x1010) 0
  writeMap ps p (((s.wr (POD_HALT p) 0).wr (POD_INJECT_STOP p) 0).wr (POD_STOPPED p) 0)

/-- A pod leaves its hull and stands IDLE (R256). -/
def releasePod (p : Nat) (s : State) : State :=
  let s := quietTiles p (emptyPod p s)
  let s := ((s.wr (POD_HULL p) 0).wr (POD_ASSIGNED p) 0).wr (POD_HALT p) 0
  let s := ((s.wr (POD_INJECT_STOP p) 0).wr (POD_STOPPED p) 0).wr32 (podBlock p + 0x1010) 0
  if domainIsOn s p then s.wr (POD_STATE p) POD_IDLE else s

/-! ### Reservations of the tier request list (R209) -/

/-- Devices of a hull by index. The package gives no fabric IDs but its own, so the others' are open. -/
def hullDevices (rd : PkgRead) (s : State) : List Nat × State :=
  (List.range (pkDevCount rd)).foldl (fun acc d =>
    if d = pkDevIndex rd then (acc.1 ++ [acc.2.ownId], acc.2)
    else
      let f := acc.2.fresh
      (acc.1 ++ [bits f.1.toNat 0 6], f.2)) ([], s)

/-- A fixed region of a hull; 1 = no handle, 2 = no room. -/
def defineRegion (dTier share : Bool) (h elem : Nat) (s : State) : Sum Nat (Nat × State) :=
  match freeHandle s with
  | none => .inl 1
  | some hd =>
    let t : Tensor := { valid := true, fixed := true, share, elem, hull := h, owned := true,
                        origin := if dTier then 1 else 0, inN := !dTier, inD := dTier, gen := (s.tensor hd).gen }
    match (if dTier then allocD (copySize t) (.region hd) s else allocN (copySize t) (.region hd) s) with
    | none => .inl 2
    | some (b, s) => .inr (hd, s.setTensor hd (if dTier then { t with dBase := b } else { t with nBase := b }))

/-- What reserving comes to: a status with DETAIL, or the handles so far and the state. -/
abbrev Resv := Sum (Nat × Nat) (List Nat × State)

/-- One tier request reserved. `open_` makes the manifest region of a hull that spans devices reachable (R278). -/
def reserveOne (h : Nat) (open_ : Nat → Bool) (imports : List Nat) (acc : Resv) (x : TierReq × Nat) : Resv :=
  match acc with
  | .inl e => .inl e
  | .inr (hs, s) =>
    let r := x.1
    if r.kind = KIND_TENSOR then
      let t : Tensor := { cls := bits r.flags 2 2, format := bits r.fmt 0 4, elem := r.elem, scale := r.scale,
                          hull := h, owned := true }
      match defineTensor t s with
      | .inl 1 => .inl (ST_NO_HANDLE, 0)
      | .inl _ => .inl (ST_NO_ROOM, shortD s (copySize t))
      | .inr (hd, s) => .inr (hs ++ [hd], s)
    else if r.kind = KIND_IMPORT then
      let v := imports.getD r.imp 0
      match hrefBad s v 20 with
      | some e => .inl e
      | none =>
        let hd := hrefHandle v
        .inr (hs ++ [hd], s.setTensor hd { s.tensor hd with binds := (s.tensor hd).binds + 1 })
    else
      let d := r.kind = KIND_REGION_D
      let size := copySize { elem := r.elem }
      match defineRegion d (bit r.flags 1 || open_ x.2) h r.elem s with
      | .inl 1 => .inl (ST_NO_HANDLE, 0)
      | .inl _ => .inl (ST_NO_ROOM, if d then shortD s size else mib (size - largestN s))
      | .inr (hd, s) => .inr (hs ++ [hd], s)

/-- `n` save blocks for a hull (R153). -/
def reserveSaves (h : Nat) (acc : Resv) (n : Nat) : Resv :=
  (List.range n).foldl (fun acc _ => match acc with
    | .inl e => .inl e
    | .inr (bs, s) => match allocN SAVE_BYTES (.save h) s with
      | none => .inl (ST_NO_ROOM, mib (SAVE_BYTES - largestN s))
      | some (b, s) => .inr (bs ++ [b], s)) acc

/-- Where the bytes of a tensor's present copy lie: the memory and the base. -/
def copyAt (s : State) (h : Nat) : Tab Byte × Nat :=
  let t := s.tensor h
  if t.inN then (s.tier.nmem, t.nBase) else if t.inD then (s.tier.dmem, t.dBase) else (s.flash.fmem, t.fBase)

/-- Initial contents copied from a package to a reserved tensor or region. -/
def copyContents (pkg hd : Nat) (r : TierReq) (s : State) : State :=
  if r.src = 0 || r.kind = KIND_IMPORT || srcLen r = 0 then s
  else
    let t := s.tensor hd
    let dT := !t.inN
    let base := if t.inN then t.nBase else t.dBase
    let src := copyAt s pkg
    let s := (pagesOf base (srcLen r)).foldl (fun s pg => openPage dT pg s) s
    s.setMem dT (mcopy src.1 (src.2 + r.src) (srcLen r) (s.mem dT) base)

/-- A descriptor's TIER_START with the handle or the fabric ID in place of the package's index (R181). -/
def substitute (handles devices : List Nat) (raw : BitVec 512) : Nat :=
  let d : Desc := { job := 0, index := 0, raw, tile := 0, ticket := 0 }
  if d.tkind = 0 then setBits d.tierStart 0 20 (handles.getD d.handle 0)
  else setBits d.tierStart 58 6 (devices.getD (bits d.tierStart 58 6) 0)

/-- The descriptors of a table rewritten in place. -/
def substituteTable (handles devices : List Nat) (hd : Nat) (r : TierReq) (s : State) : State :=
  let base := (s.tensor hd).nBase
  (List.range (min 1024 (r.elem / 64))).foldl (fun s i =>
    let o := base + 64 * i
    storeBytes false (o + 8) (leBytes (substitute handles devices (BitVec.ofNat 512 (leNat (mread s.tier.nmem o 64)))) 8) s) s

/-- Contents and handles put in place for the entries that a test selects. -/
def fillRequests (pkg : Nat) (rs : List TierReq) (handles devices : List Nat) (p : TierReq → Bool) (s : State) : State :=
  (rs.zip handles).foldl (fun s x =>
    if !p x.1 then s
    else
      let s := copyContents pkg x.2 x.1 s
      if x.1.kind = KIND_DESC && x.1.src ≠ 0 then substituteTable handles devices x.2 x.1 s else s) s

/-! ### Loading (R144–R146) -/

/-- A load of one configuration into one slot starts in a pod. -/
def startLoad (p l slot cfg pkg : Nat) (s : State) : State :=
  let rd := pkgRead s pkg
  let c := copyAt s pkg
  let sp := if (s.tensor pkg).inN then 0 else if (s.tensor pkg).inD then 1 else 2
  let s := refreshHubIdle p (s.setPod p { s.pod p with load := some { slot, cfg, pkg } })
  let s := ((s.wr (SHL_SLOT p slot) 1).wr (SHL_BUSY p) 1).wr ⟨podBlock p + 0x1000, 1, 2⟩ slot
  s.wr64 (SHL_SRC p) (globalAddr s sp (c.2 + imgBase rd cfg l 0)).toNat

def startLoads (h slot cfg pkg : Nat) (s : State) : State :=
  let ps := (s.hull h).pods
  (ps.zip (List.range ps.length)).foldl (fun s x => startLoad x.1 x.2 slot cfg pkg s) s

/-- What a pod's own SHL_MAP gives a logical pod (R159). -/
def regMap (s : State) (p l : Nat) : Option Nat :=
  if l < 80 && s.rdB (SHL_MAP_VALID p l) then some (s.rd (SHL_MAP p l)) else none

/-- The images of a pod's load, translated by its SHL_MAP, in the slot of all its tiles. -/
def storeLoad (h p : Nat) (ld : Load) (s : State) : State :=
  let rd := pkgRead s ld.pkg
  let l := (s.hull h).pods.idxOf p
  let map := regMap s p
  let s := (List.range 160).foldl (fun s t =>
    let k := p * 160 + t
    let tl := s.tile k
    s.setTile k { tl with shell := mwrite tl.shell (ld.slot * 0x800) (mapEntries (storedEntry map) (pkBytes rd (imgBase rd ld.cfg l t) 2048)) }) s
  let s := refreshHubIdle p (s.setPod p { s.pod p with load := none })
  (s.addSat (SHL_BYTES p) 327680).wr (SHL_BUSY p) 0

/-- The slot that a hull's pods run. -/
def activeSlot (s : State) (h : Nat) : Nat := (s.tile ((s.hull h).pods.headD 0 * 160)).active

/-- The slots reachable by NEXT_EN from a slot, in every tile of the hull (R135). -/
def nextSlots (s : State) (h : Nat) (slots : List Nat) : List Nat :=
  slots ++ ((List.range 4).filter (fun n => !slots.contains n && (s.hull h).pods.any (fun p => (List.range 160).any (fun i =>
    let t := s.tile (p * 160 + i)
    slots.any (fun a => t.nextEn a && t.nextShell a = n)))))

def reachableSlots (s : State) (h a : Nat) : List Nat := iterate (nextSlots s h) 4 [a]

/-- R135: the slots that a load may not name. -/
def slotReserved (s : State) (h slot : Nat) : Bool :=
  let hl := s.hull h
  (reachableSlots s h (activeSlot s h)).contains slot || hl.select = some slot
    || hl.pods.any (fun p => (List.range 160).any (fun i => (s.tile (p * 160 + i)).pend = some slot))

/-- The SHELL_LOADs of a hull that run or wait for its loaders, oldest first. -/
def loadsOf (s : State) (h : Nat) : List Running :=
  s.host.running.filter (fun r => match r.kind with | .loading x _ _ _ => x = h | _ => false)

/-- A hull's loaders are at work. -/
def loadersBusy (s : State) (h : Nat) : Bool := (s.hull h).pods.any (fun p => (s.pod p).load.isSome)

/-- One waiting SHELL_LOAD starts when its hull's loaders are free; its slot is looked at again, as the hull has run on. -/
def tryLoad (h : Nat) (s : State) (r : Running) : State :=
  match r.kind with
  | .loading _ slot cfg pkg =>
    if loadersBusy s h then s
    else if slotReserved s h slot then finishRun r ST_SHELL_BUSY 0 slot s
    else startLoads h slot cfg pkg s
  | _ => s

/-- The oldest waiting SHELL_LOAD of a hull starts. DESIGN CHOICE (log 163): a hull's SHELL_LOADs run one after another, as
each pod has one loader (R144, R159). -/
def nextLoad (h : Nat) (s : State) : State := (loadsOf s h).foldl (tryLoad h) s

/-- A pod's loader stops. -/
def stopLoad (p : Nat) (s : State) : State :=
  if (s.pod p).load.isNone then s
  else ((refreshHubIdle p (s.setPod p { s.pod p with load := none })).wr (SHL_BUSY p) 0).raise (SHL_STATUS p) 2

/-- The slots of a pod that are LOADING become EMPTY (R134). -/
def emptyLoading (p : Nat) (s : State) : State :=
  (List.range 4).foldl (fun s n => if s.rd (SHL_SLOT p n) = 1 then s.wr (SHL_SLOT p n) 0 else s) s

/-- The loaders of a hull stop, and every slot that they have written or were writing is EMPTY in every pod of the hull
(R134, R146). -/
def dropLoads (h : Nat) (s : State) : State :=
  (s.hull h).pods.foldl (fun s p => emptyLoading p (stopLoad p s)) s

/-- R146: the loads of a hull stop, and its SHELL_LOADs end. -/
def abortLoads (h : Nat) (s : State) : State :=
  (loadsOf s h).foldl (fun s r => finishRun r ST_SHELL_ABORTED 0 0 s) (dropLoads h s)

/-- LOAD_DONE or LOAD_FAILED of the pods when a load's checks end, with the first failure of an image in its pod (R159). The
load of every pod has failed where a check fails: its slot is EMPTY again (R134). -/
def noteLoads (ps : List Nat) (f : Option Fail) (s : State) : State :=
  (ps.zip (List.range ps.length)).foldl (fun s x =>
    match f with
    | some f =>
      let s := s.raise (SHL_STATUS x.1) 2
      if f.site = 0 && f.lpod = x.2 then s.wr32 (SHL_ERROR x.1) (f.ltile + f.offset % 2048 * 2 ^ 8 + f.check * 2 ^ 19)
      else s
    | none => s.raise (SHL_STATUS x.1) 1) s

/-- Slot 0 becomes ACTIVE in a pod whose configurations are loaded: each channel starts from its INIT_CREDITS (R64). -/
def startShells (configs p : Nat) (s : State) : State :=
  let s := (List.range 160).foldl (fun s t =>
    let k := p * 160 + t
    let tl := quietTile (s.tile k)
    s.setTile k { tl with active := 0, fault := 0, chans := (List.range 16).foldl (fun m q =>
      tput m q (freshChan (tl.chanEntry 0 q)) {}) [] }) s
  (List.range configs).foldl (fun s k => s.wr (SHL_SLOT p k) (if k = 0 then 3 else 2)) s

/-- The check that every tile of a hull makes of the shell that has just become ACTIVE, whatever the checking regime: a
failure raises SHELL_FIELD (R143). -/
def checkActive (h : Nat) (s : State) : State :=
  (hullTiles s h).foldl (fun s k =>
    let t := s.tile k
    match activationFault t t.active with
    | some o => raiseFault k ⟨0x0B, o, 0⟩ none s
    | none => s) s

/-! ### Creation (R253, R344) -/

/-- DETAIL of a creation or a resize (R344). -/
def hullDetail (h : Nat) (hl : Hull) : Nat :=
  h + hl.pods.length * 2 ^ 8 + hl.stage * 2 ^ 16 + hl.pods.headD 0 * 2 ^ 18

/-- A hull's pins are released; a tensor that another hull pins stays pinned (R219). -/
def unpinHull (h : Nat) (s : State) : State :=
  let hl := s.hull h
  let others := (s.srv.hulls.filter (fun x => x.1 ≠ h)).flatMap (fun x => x.2.pinned)
  unpin (hl.pinned.filter (fun t => !others.contains t)) (s.setHull h { hl with pinned := [] })

/-- Everything that a hull holds is free again (R253, R256). -/
def releaseHull (h : Nat) (s : State) : State :=
  let s := unpinHull h s
  let hl := s.hull h
  let s := hl.handles.foldl (fun s hd =>
    let t := s.tensor hd
    if t.owned && t.hull = h then freeTensor hd s else s.setTensor hd { t with binds := t.binds - 1 }) s
  let s := freeRuns (fun a => a.who == .save h) s
  let s := lowerPods hl.pods (hl.pods.foldl (fun s p =>
    if s.rdB (POD_ASSIGNED p) && s.rd (POD_HULL p) = h then releasePod p s else s) s)
  refreshHeat { s with srv := { s.srv with hulls := tdel s.srv.hulls h } }

/-- A creation that fails releases everything and completes with the failing step's status. -/
def failCreate (r : Running) (h status detail : Nat) (s : State) : State :=
  finishRun r status 0 detail (releaseHull h (hullTrace h 0 s))

/-- Bytes of the pin that a working set needs and the shortfall in MiB (R464). -/
def pinShort (hs : List Nat) (s : State) : Nat :=
  let new := hs.filter (fun h => !(s.tensor h).workset)
  let bytes := new.foldl (fun n h => n + copySize (s.tensor h)) 0
  let lack := (new.filter (fun h => !(s.tensor h).inN)).foldl (fun n h => n + copySize (s.tensor h)) 0
  mib (max (lack - reachableN s new) (bytes - (PIN_LIMIT - pinnedBytes s)))

/-- The status of a command that has succeeded, of those that it may report by what it read (R211, R339). -/
def transferStatus (r : Running) : Nat := if r.unwritten then ST_OK_UNWRITTEN else ST_OK
/-- The last step of a creation: the hull lives, its tiles check slot 0 (R143), and RESULT_BUF receives its HREFs. -/
def finishCreate (r : Running) (h : Nat) (s : State) : State :=
  let buf := eb r.entry 48 8
  let s := s.setHull h { s.hull h with live := true }
  let hl := s.hull h
  let s := checkActive h (raisePods hl.pods (setPods hl.pods POD_LOADED s))
  let s := if buf = 0 || r.quiet then s else dmaOut r.fn buf (hl.handles.flatMap (fun hd => leBytes (hrefOf s hd) 8)) s
  finishRun r (transferStatus r) (if buf = 0 then 0 else hl.handles.length) (hullDetail h hl) s

/-- Step 7: the declared working set is pinned; the command waits for the promotions (R219). -/
def createPin (r : Running) (h : Nat) (s : State) : State :=
  let hs := (s.hull h).pinned
  let x := pinStep hs (keepPinned hs s)
  match x.1 with
  | some f => failCreate r h f.1 f.2 x.2
  | none => if pinned hs x.2 then finishCreate r h x.2 else setRun { r with kind := .creating h 2 } x.2

/-- Handles of the entries with WORKSET set (R209). -/
def worksetOf (rs : List TierReq) (handles : List Nat) : List Nat :=
  ((rs.zip handles).filter (fun x => (x.1.kind = KIND_TENSOR || x.1.kind = KIND_IMPORT) && bit x.1.flags 0)).map (·.2)

/-- The checks' view of the loads that make a hull's shells: every configuration of its package. -/
def hullCtx (s : State) (h : Nat) : Ctx :=
  let hl := s.hull h
  let rd := pkgRead s hl.pkg
  { rd, size := (s.tensor hl.pkg).elem, pods := hl.pods, loads := (List.range hl.configs).map (fun k => (k, k))
    reqs := hl.reqs, handles := hl.handles, alone := true, count := descCount hl.reqs, desc := pkDesc rd hl.reqs
    own := pkDevIndex rd }

/-- The checks' view of a SHELL_LOAD: its own package's shells against the pods' own tables (R149, R163, R186). -/
def slotCtx (s : State) (h pkg slot cfg : Nat) : Ctx :=
  let hl := s.hull h
  { rd := pkgRead s pkg, size := (s.tensor pkg).elem, pods := hl.pods, loads := [(cfg, slot)], reqs := hl.reqs
    handles := hl.handles, alone := false, count := fun l => s.rd (STR_TABLE_LEN (hl.pods.getD l 0))
    desc := fun l i => tableDesc s (hl.pods.getD l 0) i, own := s.ownId }

/-- Step 6's end: the checks, then slot 0 ACTIVE, then the pins. -/
def createChecks (r : Running) (h : Nat) (s : State) : State :=
  let hl := s.hull h
  let c := hullCtx s h
  let f := allFail c s hl.saves
  let s := noteLoads hl.pods f s
  match f with
  | some f => failCreate r h ST_SHELL_INVALID (failDetail hl.pods f) s
  | none =>
    let s := hl.pods.foldl (fun s p => startShells hl.configs p s) s
    if hl.pinned = [] then finishCreate r h s
    else if !canPin hl.pinned s then
      failCreate r h ST_NO_ROOM (pinShort hl.pinned s) (s.setHull h { hl with pinned := [] })
    else createPin r h s

/-- An index parameter of HULL_CREATE as a handle; 0xFFFF = none. -/
def reqHandle (handles : List Nat) (i : Nat) : Option Nat := if i = 0xFFFF then none else handles[i]?

/-- Steps 4 to 6: reservations, pods, loads. -/
def createReserve (r : Running) (h : Nat) (s : State) : State :=
  let s := hullTrace h 0 s
  let hl := s.hull h
  let e := r.entry
  let rd := pkgRead s hl.pkg
  let rs := tierReqs rd (s.tensor hl.pkg).elem
  let imports := (List.range (eb e 28 4)).map (fun i => pkgRead s (hrefHandle (eb e 20 8)) (8 * i) 8)
  let open_ := fun i => pkMulti rd && i = eb e 44 2
  match (rs.zip (List.range rs.length)).foldl (reserveOne h open_ imports) (.inr ([], s)) with
  | .inl x => failCreate r h x.1 x.2 s
  | .inr (hs, s1) =>
    match reserveSaves h (.inr ([], s1)) hl.pods.length with
    | .inl x => failCreate r h x.1 x.2 s
    | .inr (saves, s2) =>
      let hl := { hl with reqs := rs, handles := hs, saves, kvN := reqHandle hs (eb e 40 2), kvD := reqHandle hs (eb e 42 2),
                          manifest := reqHandle hs (eb e 44 2), expmap := reqHandle hs (eb e 46 2) }
      match look (sourceRanges hl.pkg rs) (s2.setHull h hl) with
      | (some f, _, s3) => failCreate r h f.1 f.2 s3
      | (none, u, s3) =>
      let r := { r with unwritten := r.unwritten || u }
      let hl := { hl with pinned := if hl.realtime then worksetOf rs hs else [] }
      let s3 := refreshHeat ((fillRequests hl.pkg rs hs hl.devices (fun _ => true) s3).setHull h hl)
      let need := manifestNeed hl.rows (retBytes s3 h)
      let have_ := match hl.manifest with | some m => (s3.tensor m).elem | none => 0
      if have_ < need then failCreate r h ST_NO_ROOM (mib (need - have_)) (s3.setHull h { hl with pinned := [] })
      else
        let s3 := (hl.pods.zip (List.range hl.pods.length)).foldl (fun s x =>
          writeTable hl x.2 x.1 (assignPod h hl.pods hl.wdog hl.compat x.1 s)) s3
        startLoads h 0 0 hl.pkg (setRun { r with kind := .creating h 1 } s3)

/-- Steps 1 to 3 of HULL_CREATE, after the checks of R344: the front checks, an ID, pods, and their power. -/
def createHull (r : Running) (pkg : Nat) (s : State) : State :=
  let rd := pkgRead s pkg
  let e := r.entry
  let fin := fun st d => complete r.ring e st 0 d s
  match frontFail rd (s.tensor pkg).elem with
  | some f => fin ST_SHELL_INVALID (failDetail [] f)
  | none =>
    match freeHullId s with
    | none => fin ST_NO_HULL_ID 0
    | some h =>
      if freePods s < pkPods rd then fin ST_NO_PODS (freePods s)
      else match choosePods (pkPods rd) (pkShapeW rd) (pkShapeH rd) (Config.choice s.free) (podFree s) with
        | none => fin ST_NO_PODS (freePods s)
        | some (stage, ps) =>
          let dv := hullDevices rd { s with free := s.free + 1 }
          let hl : Hull := {
            entry := e, pods := ps, stage, graph := BitVec.ofNat 64 (pkGraph rd), pkg, configs := pkConfigs rd,
            compat := pkCompat rd, multi := pkMulti rd, realtime := pkRealtime rd, devIndex := pkDevIndex rd,
            devCount := pkDevCount rd, wdog := pkWdog rd, rows := eb e 32 2, sprouts := eb e 34 1, kvb := eb e 36 4,
            devices := dv.1 }
          powerPods ps (startRun { r with kind := .creating h 0 } (dv.2.setHull h hl))

/-! ### Halting at a boundary and draining (R155) -/

/-- Whether a hull stands at a step boundary on this device, its step committed. -/
def atRest (hl : Hull) : Bool :=
  match hl.step with
  | none => true
  | some st => hl.devIndex ≠ 0 && st.reported.contains hl.devIndex

/-- INJECT_STOP in every pod of a hull that has halted (R155 step 3). -/
def beginQuiesce (h : Nat) (s : State) : State :=
  let hl := s.hull h
  if atRest hl && hl.pods.all (fun p => s.rd (POD_STATE p) = POD_HALTED) then
    hl.pods.foldl (fun s p => refreshInjectStopped p (s.wr (POD_INJECT_STOP p) 1)) s
  else s

/-- HALT in every pod of a hull (R155 step 1, R256): a hull that stands at a boundary halts now. -/
def beginHalt (h : Nat) (s : State) : State :=
  let s := abortLoads h s
  let hl := s.hull h
  let s := s.setHull h { hl with stopping := true }
  let s := hl.pods.foldl (fun s p => s.wr (POD_HALT p) 1) s
  if atRest hl then setPods (hl.pods.filter (fun p => s.rd (POD_STATE p) = POD_LOADED)) POD_HALTED s else s

/-- Whether a hull's mesh traffic is quiescent and its hubs idle (R78), and every granted SFU request has written its
result (R116). -/
def quiescent (s : State) (h : Nat) : Bool :=
  let ps := (s.hull h).pods
  let sum := fun (f : Nat → Nat) => ps.foldl (fun n p => n + s.rd32 (f p)) 0 % 2 ^ 32
  (hullTiles s h).all (fun k => (s.tile k).sfu.isNone) && ps.all (fun p => s.rdB (POD_STOPPED p) && s.rdB (POD_HUB_IDLE p)) && sum POD_MESH_INJ = sum POD_MESH_EJ

/-- Whether a running command drains a hull. -/
def drains (s : State) (h : Nat) : Bool :=
  s.host.running.any (fun r => match r.kind with
    | .draining x => x = h
    | .resizing x p _ _ => x = h && p = 0
    | .switching xs _ => xs.contains h
    | _ => false)

/-- A pod starts a scan to (1) or from (2) its SCN_ADDR (R159). -/
def startPodScan (p dir : Nat) (s : State) : State :=
  let s := (s.wr (SCN_BUSY p) 1).wr (POD_STATE p) POD_SCANNING
  refreshHubIdle p (s.setPod p { s.pod p with scan := dir, scanBad := false })

/-- A scan of a pod has ended, with or without an error (R159). -/
def endPodScan (p : Nat) (bad : Bool) (s : State) : State :=
  let s := refreshHubIdle p (s.setPod p { s.pod p with scan := 0, scanBad := bad })
  (s.wr (SCN_BUSY p) 0).raise (SCN_STATUS p) (if bad then 2 else 1)

/-- Each pod of a hull starts a scan from or to its save block: 1 = out, 2 = in. -/
def startScan (h dir : Nat) (s : State) : State :=
  let hl := s.hull h
  (hl.pods.zip (List.range hl.pods.length)).foldl (fun s x =>
    startPodScan x.1 dir (s.wr64 (SCN_ADDR x.1) (globalAddr s 0 (hl.saves.getD x.2 0)).toNat)) s

/-- N-tier OFFSET of the save block at a pod's SCN_ADDR. -/
def scanBase (s : State) (p : Nat) : Nat := gOffset (BitVec.ofNat 64 (s.rd64 (SCN_ADDR p)))

/-- QUIESCENCE_REACHED: the traffic of a halted hull is quiescent and its hubs are idle; a drain goes on to its scan-out
(R78, R155 step 5). -/
def execQuiescenceReached (hull : Nat) (s : State) : Result :=
  let s := beginQuiesce hull s
  let hl := s.hull hull
  let s := hl.pods.foldl (fun s p => refreshInjectStopped p s) s
  if hl.pods ≠ [] && hl.pods.all (fun p => s.rd (POD_STATE p) = POD_HALTED) && quiescent s hull && drains s hull && !hl.drained
      && (hl.fault.isNone || hl.faultDone) then
    .next (startScan hull 1 s)
  else .next s

/-! ### Restore (R157) -/

/-- A pod whose block fails a check returns to IDLE, with SCAN_ERROR (R157, R159). DESIGN CHOICE (log 197): it stays assigned
to its hull. -/
def badRecord (p : Nat) (s : State) : State := (s.raise (SCN_STATUS p) 2).wr (POD_STATE p) POD_IDLE

/-- The logical pods of a hull whose save blocks fail the checks of a record. -/
def badRecords (s : State) (h : Nat) : List Nat :=
  let hl := s.hull h
  (List.range hl.pods.length).filter (fun l => !recordGood s h (hl.saves.getD l 0))

/-- The records are checked, the map is written, and scan-in starts; or the first failing logical pod (R157). -/
def beginRestore (h : Nat) (s : State) : Sum (Nat × State) State :=
  let hl := s.hull h
  match badRecords s h with
  | [] => .inr (startScan h 2 (hl.pods.foldl (fun s p => writeMap hl.pods p s) s))
  | l :: ls => .inl (l, (l :: ls).foldl (fun s l => badRecord (hl.pods.getD l 0) s) s)

/-- A restore fails on logical pod `l`. -/
def restoreFails (r : Running) (l : Nat) (s : State) : State := finishRun r ST_RESTORE_INVALID 0 l s

/-- The pods of a hull run on: HALT and INJECT_STOP clear, and the pods stand LOADED. -/
def resumeHull (h : Nat) (s : State) : State :=
  let hl := s.hull h
  let s := hl.pods.foldl (fun s p =>
    ((s.wr (POD_HALT p) 0).wr (POD_INJECT_STOP p) 0).wr (POD_STOPPED p) 0) (setPods hl.pods POD_LOADED s)
  s.setHull h { hl with stopping := false, drained := false, awaiting := false }

/-! ### Resize (R254) -/

/-- Step 3 of a relocation: the new pods are the hull's, HALTED with every slot EMPTY, and scan-in starts. -/
def relocate (r : Running) (h stage : Nat) (ps : List Nat) (s : State) : State :=
  let hl := s.hull h
  let old := hl.pods.filter (fun p => !ps.contains p)
  let s := lowerPods old (old.foldl (fun s p => releasePod p s) s)
  let s := s.setHull h { hl with pods := ps, stage }
  let s := (ps.zip (List.range ps.length)).foldl (fun s x =>
    let s := writeTable hl x.2 x.1 (assignPod h ps hl.wdog hl.compat x.1 s)
    refreshInjectStopped x.1 (((s.wr (POD_HALT x.1) 1).wr (POD_INJECT_STOP x.1) 1).wr (POD_STATE x.1) POD_HALTED)) s
  let s := raisePods (ps.filter (fun p => !hl.pods.contains p)) s
  let s := setRun { r with kind := .resizing h 1 stage ps } s
  match beginRestore h s with
  | .inl f => restoreFails r f.1 f.2
  | .inr s => s

/-- A repackaging that fails: the hull keeps its pods and allocations and awaits another HULL_RESIZE. What its loads had
begun to write is EMPTY (R134). -/
def failRepackage (r : Running) (h status detail : Nat) (s : State) : State :=
  let s := (s.hull h).pods.foldl (fun s p => emptyLoading p s) s
  finishRun r status 0 detail (s.setHull h { s.hull h with awaiting := true })

/-- The entries of a list that must match entry by entry (R254): all but the descriptor tables. -/
def matchReqs (rs : List TierReq) : List TierReq := rs.filter (fun r => r.kind ≠ KIND_DESC)

/-- The first entry in which two tier request lists differ. -/
def reqMismatch (a b : List TierReq) : Option Nat :=
  let x := matchReqs a
  let y := matchReqs b
  (List.range (max x.length y.length)).find? (fun i => match x[i]?, y[i]? with
    | some u, some v => !(u.kind = v.kind && u.flags = v.flags && u.fmt = v.fmt && u.imp = v.imp && u.elem = v.elem
        && u.scale = v.scale)
    | _, _ => true)

/-- The handles of a new list: those kept, in order, with new descriptor tables in their places. -/
def mergeHandles : List TierReq → List Nat → List Nat → List Nat
  | [], _, _ => []
  | r :: rs, kept, tables =>
    if r.kind = KIND_DESC then tables.headD 0 :: mergeHandles rs kept tables.tail
    else kept.headD 0 :: mergeHandles rs kept.tail tables

/-- The halted hull takes its new package: descriptor tables, save blocks and pods change, and the loads start. -/
def repackage (r : Running) (h stage : Nat) (ps : List Nat) (s : State) : State :=
  let hl := s.hull h
  let pkg := hrefHandle (eb r.entry 12 8)
  let rd := pkgRead s pkg
  let rs := tierReqs rd (s.tensor pkg).elem
  let seen := look (sourceRanges pkg (rs.filter (fun q => q.kind = KIND_DESC))) s
  let s := seen.2.2
  if let some f := seen.1 then failRepackage r h f.1 f.2 s
  else
  let oldRs := hl.reqs
  let isDesc := fun (x : TierReq × Nat) => x.1.kind = KIND_DESC
  let oldTables := ((oldRs.zip hl.handles).filter isDesc).map (·.2)
  let kept := ((oldRs.zip hl.handles).filter (fun x => !isDesc x)).map (·.2)
  match ((rs.zip (List.range rs.length)).filter isDesc).foldl (reserveOne h (fun _ => false) []) (.inr ([], s)) with
  | .inl x => failRepackage r h x.1 x.2 s
  | .inr (tables, s1) =>
    match reserveSaves h (.inr ([], s1)) (ps.length - hl.saves.length) with
    | .inl x => failRepackage r h x.1 x.2 s
    | .inr (more, s2) =>
      let gone := hl.saves.drop ps.length
      let s2 := freeRuns (fun a => a.who == .save h && gone.contains a.base) s2
      let s2 := oldTables.foldl (fun s t => freeTensor t s) s2
      let handles := mergeHandles rs kept tables
      let s2 := fillRequests pkg rs handles hl.devices (fun q => q.kind = KIND_DESC) s2
      let r := { r with unwritten := r.unwritten || seen.2.1 }
      let old := hl.pods.filter (fun p => !ps.contains p)
      let s2 := lowerPods old (old.foldl (fun s p => releasePod p s) s2)
      let hl := { hl with pods := ps, stage, reqs := rs, handles, saves := hl.saves.take ps.length ++ more, pkg,
                          graph := BitVec.ofNat 64 (pkGraph rd), configs := pkConfigs rd, compat := pkCompat rd,
                          wdog := pkWdog rd, drained := false, shells := [] }
      let s2 := refreshHeat (s2.setHull h hl)
      let s2 := (ps.zip (List.range ps.length)).foldl (fun s x =>
        (writeTable hl x.2 x.1 (assignPod h ps hl.wdog hl.compat x.1 s)).wr (POD_STATE x.1) POD_IDLE) s2
      startLoads h 0 0 pkg (setRun { r with kind := .resizing h 3 stage ps } s2)

/-- The end of a repackaging's loads: the checks, then slot 0 ACTIVE. -/
def repackageChecks (r : Running) (h : Nat) (s : State) : State :=
  let hl := s.hull h
  let c := hullCtx s h
  let f := allFail c s hl.saves
  let s := noteLoads hl.pods f s
  match f with
  | some f => failRepackage r h ST_SHELL_INVALID (failDetail hl.pods f)
      (hl.pods.foldl (fun s p => s.wr32 (podBlock p + 0x1010) 0) s)
  | none =>
    let s := raisePods hl.pods (checkActive h (resumeHull h (hl.pods.foldl (fun s p => startShells hl.configs p s) s)))
    formStep h (finishRun r (transferStatus r) 0 (hullDetail h (s.hull h)) s)

/-! ### Destruction (R256) -/

/-- A hull that stands at its last boundary, or has faulted, ends: its requests, then all that it holds. -/
def finishDestroy (r : Running) (h : Nat) (s : State) : State :=
  let is := hullRequests s h
  let s := is.foldl (fun s i => finishRuns (fun x => x.kind == .cancelling i) ST_NOTHING_TO_CANCEL 0
    (failRequest i ST_HULL_DESTROYED none s)) s
  let s := cycRemoveHull h (releaseHull h s)
  finishRun r ST_OK 0 is.length s

/-! ### Faults (R76, R187) -/

/-- The descriptors of a faulted hull's engines are discarded, with what waits in its hubs. The tiles' tickets stay as they
stood at the fault: the images show them (R74, R192). -/
def dropWork (h : Nat) (s : State) : State :=
  (s.hull h).pods.foldl (fun s p =>
    let s := (List.range 4).foldl (fun s e => setQueue p e [] s) s
    let s := refreshHubIdle p (s.setPod p { s.pod p with hub := [] })
    { s with tier := { s.tier with xbar := s.tier.xbar.filter (fun a => match a.req.who with
      | .stream q _ _ _ => q ≠ p
      | _ => true) } }) s

/-- Husk handles a hull's fault (R76 steps 3 to 5). `tell` sends the notice to the hull's other devices. -/
def handleFault (h : Nat) (tell : Bool) (s : State) : State :=
  let hl := s.hull h
  match hl.fault with
  | none => s
  | some rec =>
    if hl.faultDone then s
    else
      let s := recordEvent 0x0101 (some h) none (payload [(32, 8, rec.toNat), (40, 8, hl.lastStart.toNat)]) s
      let s := abortLoads h s
      let s := if tell && hl.multi then
          ((hl.devices.zip (List.range hl.devices.length)).filter (fun x => x.2 ≠ hl.devIndex)).foldl (fun s x =>
            sendPacket x.1 none (.faultNotice x.1 { hull := h, graph := hl.graph, record := rec }) s) s
        else s
      let s := match hl.step with
        | some st =>
          let s := if mirroring s then (sendEpoch 0 h st.start [] true s).2 else s
          if hl.devIndex ≠ 0 then s.setHull h { s.hull h with step := none }
          else ((releaseStep st s).setHull h { (releaseStep st s).hull h with step := none }).addSat DEV_STEPS_FAILED 1
        | none => s
      let status := if bits rec.toNat 32 8 = 0x10 then ST_HULL_STALL else ST_TILE_FAULT
      let s := (hullRequests s h).foldl (fun s i =>
        finishRuns (fun x => x.kind == .cancelling i) ST_NOTHING_TO_CANCEL 0 (failRequest i status (some rec.toNat) s)) s
      let s := dropWork h s
      s.setHull h { s.hull h with faultDone := true }

/-! ### Mirrored hulls of a standby (R385) -/

/-- A mirrored hull leaves a standby: its pods, its save blocks and what creates it. Its tensors go by their own
records. -/
def releaseMirror (h : Nat) (s : State) : State :=
  let hl := s.hull h
  let s := match runOf s h with | some r => dropRun r.seqNo s | none => s
  let s := freeRuns (fun a => a.who == .save h) s
  let s := lowerPods hl.pods (hl.pods.foldl (fun s p =>
    if s.rdB (POD_ASSIGNED p) && s.rd (POD_HULL p) = h then releasePod p s else s) s)
  refreshHeat { s with srv := { s.srv with hulls := tdel s.srv.hulls h } }

/-- The pods of a mirrored hull are its own, and slot 0 and on load from its package. -/
def mirrorLoad (r : Running) (h : Nat) (s : State) : State :=
  let s := (look (frontRanges (pkgRead s (s.hull h).pkg) (s.hull h).pkg) s).2.2
  let hl := { s.hull h with reqs := tierReqs (pkgRead s (s.hull h).pkg) (s.tensor (s.hull h).pkg).elem }
  let s := s.setHull h hl
  let s := (hl.pods.zip (List.range hl.pods.length)).foldl (fun s x =>
    writeTable hl x.2 x.1 (assignPod h hl.pods hl.wdog hl.compat x.1 s)) s
  startLoads h 0 0 hl.pkg (setRun { r with kind := .mirroring h 1 } s)

/-- What a SHELL_LOAD put into a slot on the active stands in the same slot here. -/
def applyShell (h : Nat) (s : State) (x : Nat × Nat × Nat) : State :=
  (s.hull h).pods.foldl (fun s p =>
    (storeLoad h p { slot := x.1, cfg := x.2.1, pkg := x.2.2 } s).wr (SHL_SLOT p x.1) 2) s

/-- A mirrored hull is loaded: its checks, then its pods stand LOADED with slot 0 ACTIVE. -/
def mirrorChecks (r : Running) (h : Nat) (s : State) : State :=
  let hl := s.hull h
  let c := hullCtx s h
  let f := allFail c s hl.saves
  let s := noteLoads hl.pods f s
  match f with
  | some _ => releaseMirror h s
  | none =>
    let s := hl.pods.foldl (fun s p => startShells hl.configs p s) (dropRun r.seqNo s)
    let s := hl.shells.foldl (applyShell h) (setPods hl.pods POD_LOADED s)
    formStep h (raisePods hl.pods (checkActive h s))

/-! ### Moving a hull's command on -/

/-- What a hull's running command does next, if what it waits for has come. -/
def advanceHull (h : Nat) (s : State) : State :=
  let hl := s.hull h
  match runOf s h with
  | none => s
  | some r =>
    match r.kind with
    | .creating _ 0 =>
      if podsPowered s hl.pods && hl.pods.all (fun p => s.rd (POD_STATE p) = POD_IDLE) then createReserve r h s else s
    | .creating _ 1 => if hl.pods.all (fun p => (s.pod p).load.isNone) then createChecks r h s else s
    | .creating _ _ => createPin r h s
    | .resizing _ 0 stage ps =>
      if hl.drained && podsPowered s ps && ps.all (fun p => hl.pods.contains p || s.rd (POD_STATE p) = POD_IDLE) then
        relocate r h stage ps s
      else beginQuiesce h s
    | .resizing _ 2 stage ps =>
      if atRest hl && podsPowered s ps && hl.pods.all (fun p => s.rd (POD_STATE p) = POD_HALTED || s.rd (POD_STATE p) = POD_IDLE)
          && ps.all (fun p => hl.pods.contains p || s.rd (POD_STATE p) = POD_IDLE) then repackage r h stage ps s else s
    | .resizing _ 4 detail _ =>
      if atRest hl && hl.pods.all (fun p => s.rd (POD_STATE p) = POD_HALTED || s.rd (POD_STATE p) = POD_IDLE) then
        failRepackage r h ST_SHELL_INVALID detail s else s
    | .resizing _ 3 _ _ => if hl.pods.all (fun p => (s.pod p).load.isNone) then repackageChecks r h s else s
    | .destroying _ =>
      if (hl.fault.isSome && hl.faultDone) || (hl.fault.isNone && atRest hl && (s.host.running.all (fun x => x.kind ≠ .draining h)))
      then finishDestroy r h s else s
    | .draining _ => beginQuiesce h s
    | .mirroring _ 0 =>
      if podsPowered s hl.pods && hl.pods.all (fun p => s.rd (POD_STATE p) = POD_IDLE) then mirrorLoad r h s else s
    | .mirroring _ _ => if hl.pods.all (fun p => (s.pod p).load.isNone) then mirrorChecks r h s else s
    | _ => s

/-- The hulls that a running command acts on move on. -/
def advanceAll (s : State) : State := (List.range 128).foldl (fun s h => advanceHull h s) s

/-- The same, with the epoch of what that changes (R386). -/
def advanceMirrored (s : State) : State := commandEpoch s (advanceAll s)

/-- The live requests of a hull of a parked device (R411). -/
def parkRequests (h : Nat) (s : State) : State :=
  (hullRequests s h).foldl (fun s i => finishRuns (fun x => x.kind == .cancelling i) ST_NOTHING_TO_CANCEL 0
    (failRequest i ST_DEVICE_PARKED none s)) s

/-- After a hull's boundary: what waits for it goes on, or the next step is formed. -/
def afterBoundary (h : Nat) (s : State) : State :=
  let s := if s.rdB BOOT_PARKED then parkRequests h s else s
  if (s.hull h).stopping then
    let s := beginQuiesce h s
    commandEpoch s (advanceHull h s)
  else formStep h s

/-- A hull's step commits or is dropped, and the hull halts or goes on. -/
def commitStep (h : Nat) (s : State) : State :=
  let s := endStep h s
  if atRest (s.hull h) && (s.hull h).fault.isNone then afterBoundary h s else s

/-- STEP_COMMIT: the lead device commits the hull's step or drops it (R280, R281); then the hull halts or goes on. -/
def execStepCommit (hull : Nat) (s : State) : Result := .next (commitStep hull s)

/-- HULL_FAULT_HANDLING: Husk handles the hull's fault (R76). -/
def execHullFaultHandling (hull : Nat) (s : State) : Result := 
  .next (commandEpoch s (advanceHull hull (handleFault hull true s)))

/-- A fault that another device of the hull reports, or that the loss of one is (R76, R399): the pods halt and the fault
is handled here without a further notice. -/
def foreignFault (h : Nat) (rec : DWord) (s : State) : State :=
  let hl := s.hull h
  if hl.fault.isSome then s
  else
    let p := (sortBy (fun a b => a ≤ b) hl.pods).headD 0
    advanceHull h (handleFault h false (haltPods hl.pods (s.setHull h { hl with
      fault := some rec, faultAt := s.counter, faultPod := p, faultTile := 160 })))

/-- FAULT_NOTICE: a C0 notice names a hull by its graph; this device's pods of it halt (R76). -/
def execFaultNotice (n : FaultNote) (s : State) : Result :=
  .next (((tkeys s.srv.hulls).filter (fun h =>
    (s.hull h).live && (s.hull h).multi && (s.hull h).graph = n.graph)).foldl (fun s h =>
      commandEpoch s (foreignFault h n.record s)) s)

/-! ### Pod events -/

/-- The SHELL_LOAD that loads a slot of a hull. -/
def loadingOf (s : State) (h slot : Nat) : Option Running :=
  s.host.running.find? (fun r => match r.kind with | .loading x n _ _ => x = h && n = slot | _ => false)

/-- A SHELL_LOAD's loads have ended: the checks, and the slot is READY or EMPTY (R145, R149, R150). -/
def loadChecks (r : Running) (h : Nat) (ld : Load) (before s : State) : State :=
  let hl := s.hull h
  let f := allFail (slotCtx s h ld.pkg ld.slot ld.cfg) s hl.saves
  let s := noteLoads hl.pods f s
  let slot := fun (v : Nat) (s : State) => hl.pods.foldl (fun s p => s.wr (SHL_SLOT p ld.slot) v) s
  match f with
  | some f => commandEpoch before (finishRun r ST_SHELL_INVALID 0 (failDetail hl.pods f) (slot 0 s))
  | none =>
    let s := s.setHull h { hl with
      shells := hl.shells.filter (fun x => x.1 ≠ ld.slot) ++ [(ld.slot, ld.cfg, ld.pkg)] }
    commandEpochWith (packageRecs s ld.pkg ++ [.shell h ld.slot ld.cfg ld.pkg]) before
      (finishRun r (transferStatus r) 0 0 (slot 2 s))

/-- Where the 160 images at a pod's SHL_SRC lie: one place of this device's tiers that holds them all. -/
def bareSpot (s : State) (p : Nat) : Option Spot :=
  let g := BitVec.ofNat 64 (s.rd64 (SHL_SRC p))
  if !s.isHere (gDevice g) then none
  else match locate s .husk (.addr g) false with
    | .spot sp => if sp.space < 3 && 327680 ≤ sp.room then some sp else none
    | _ => none

/-- The image of local tile `t` there, in package form. -/
def bareImage (s : State) (sp : Spot) (t : Nat) : List Byte :=
  mread (if sp.space = 0 then s.tier.nmem else if sp.space = 1 then s.tier.dmem else s.flash.fmem) (sp.off + 2048 * t) 2048

/-- The first mesh endpoint of an image whose logical pod has no valid entry in SHL_MAP (R159). -/
def unmappedEnd (s : State) (p : Nat) (x : Tile) : Option Nat :=
  ((List.range 16).find? (fun q =>
    let e := x.chanEntry 0 q
    chMode e = MODE_OUTPUT && !chHub e && (regMap s p (bits e 32 7)).isNone)).map (fun q => 0x40 + 8 * q + 4)

/-- The first failure of the checks within one image that SHL_CTRL.START loads into a pod of hull `h`: check and offset.
DEDUCED (log 165): such a load knows no configuration and no package, so that of the fields that name an image's place
LTILE alone is tested. -/
def bareBad (s : State) (h p : Nat) (sp : Spot) (t : Nat) : Option (Nat × Nat) :=
  let img := bareImage s sp t
  let x := imageTile 0 img
  let multi := (s.hull h).multi
  let form := imageForm img (fun h => [need 18 (h 18 1 = t)]) (s.rd (STR_TABLE_LEN p))
  let test := fun (c : Nat) =>
    if c ≤ 3 then form c
    else if c = 4 then ((List.range 16).findSome? (ownBad x)).or (if multi then none else unmappedEnd s p x)
    else if c = 6 then imageBad6 x
    else if holdsPlaneRun x then
      firstBad (nestTests x (imageTile 0 (bareImage s sp (ringBeside t))) ((s.hull h).pods.idxOf p) t)
    else none
  (if multi then [1, 2, 3, 4] else [1, 2, 3, 4, 6, 7] : List Nat).findSome? (fun c => (test c).map (fun o => (c, o)))

/-- A load that SHL_CTRL.START began fails: its slot is EMPTY again (R134, R159). -/
def bareFails (p : Nat) (ld : Load) (s : State) : State := (stopLoad p s).wr (SHL_SLOT p ld.slot) 0

/-- The images of such a load stand in the slot, translated by SHL_MAP. -/
def bareStore (p : Nat) (sp : Spot) (ld : Load) (s : State) : State :=
  let s2 := (List.range 160).foldl (fun s2 t =>
    let tl := s2.tile (p * 160 + t)
    let img := mapEntries (storedEntry (regMap s p)) (bareImage s sp t)
    s2.setTile (p * 160 + t) { tl with shell := mwrite tl.shell (ld.slot * 0x800) img }) s
  let s2 := refreshHubIdle p (s2.setPod p { s2.pod p with load := none })
  (((s2.addSat (SHL_BYTES p) 327680).wr (SHL_BUSY p) 0).raise (SHL_STATUS p) 1).wr (SHL_SLOT p ld.slot) 2

/-- The end of a load that SHL_CTRL.START began in a pod of hull `h`: the images are read (R203, R204), checked if CHECK is
set, and stored. One that cannot be read fails. -/
def bareDone (h p : Nat) (ld : Load) (s : State) : State :=
  match bareSpot s p with
  | none => bareFails p ld s
  | some sp =>
    let r := sweep sp.space sp.off 327680 s
    let s := r.2
    if rspFails r.1.1 then bareFails p ld s
    else match (if !s.rdB (SHL_CHECK p) then none
        else (List.range 160).findSome? (fun t => (bareBad s h p sp t).map (fun x => (t, x)))) with
      | some (t, c, o) => bareFails p ld (s.wr32 (SHL_ERROR p) (t + o * 2 ^ 8 + c * 2 ^ 19))
      | none => bareStore p sp ld s

/-- A load that met a tier error stops, and the command that asked for it ends with the error's status (R225). -/
def loadFails (h : Nat) (ld : Load) (status detail : Nat) (s : State) : State :=
  let run := loadingOf s h ld.slot
  let s := dropLoads h s
  match run with
  | some r => nextLoad h (finishRun r status 0 detail s)
  | none => match runOf s h with
    | some r => match r.kind with
      | .creating _ _ => failCreate r h status detail s
      | .resizing _ _ _ _ => failRepackage r h status detail s
      | .mirroring _ _ => releaseMirror h s
      | _ => s
    | none => s

/-- The images that a pod's load reads. -/
def loadRanges (s : State) (h p : Nat) (ld : Load) : List (Nat × Nat × Nat) :=
  [(ld.pkg, imgBase (pkgRead s ld.pkg) ld.cfg ((s.hull h).pods.idxOf p) 0, 327680)]

/-- The descriptor tables that a SHELL_LOAD's checks read. -/
def tableRanges (s : State) (h : Nat) : List (Nat × Nat × Nat) :=
  let hl := s.hull h
  (List.range hl.pods.length).filterMap (fun l =>
    (descHandle hl.reqs hl.handles l).map (fun hd => (hd, 0, 64 * s.rd (STR_TABLE_LEN (hl.pods.getD l 0)))))

/-- A command whose load has read a page never written ends with ST_OK_UNWRITTEN (R211, R339). -/
def noteLoadRun (h : Nat) (ld : Load) (u : Bool) (s : State) : State :=
  match (if u then (loadingOf s h ld.slot).or (runOf s h) else none) with
  | some r => setRun { r with unwritten := true } s
  | none => s

/-- SHELL_LOAD_DONE: a pod's load ends. The next configuration follows, or, once every pod of the hull is done, the checks
that make the slot READY (R145, R148, R149). The load of a hull that has faulted is aborted (R146). The loader serves only
while the N-tier controller is powered (R22), and its images wait at the risers while the pod's PLL relocks (R55). -/
def execShellLoadDone (pod : Nat) (s : State) : Result :=
  match (s.pod pod).load, s.podOwner pod with
  | some ld, some h =>
    if !ntOn s || (s.pod pod).changing then .next s
    else if (s.hull h).fault.isSome then .next (abortLoads h s)
    else if ld.bare then .next (nextLoad h (bareDone h pod ld s))
    else match look (loadRanges s h pod ld) s with
    | (some f, _, s1) => .next (commandEpoch s (loadFails h ld f.1 f.2 s1))
    | (none, u, s0) =>
      let s1 := storeLoad h pod ld (noteLoadRun h ld u s0)
      let hl := s1.hull h
      match loadingOf s1 h ld.slot with
      | some r =>
        if loadersBusy s1 h then .next s1
        else match look (tableRanges s1 h) s1 with
          | (some f, _, s2) => .next (commandEpoch s (loadFails h ld f.1 f.2 (hl.pods.foldl (fun s p => s.wr (SHL_SLOT p ld.slot) 0) s2)))
          | (none, u, s2) => .next (nextLoad h (loadChecks { r with unwritten := r.unwritten || u } h ld s s2))
      | none =>
        if ld.cfg + 1 < hl.configs then
          .next (startLoad pod (hl.pods.idxOf pod) (ld.slot + 1) (ld.cfg + 1) ld.pkg s1)
        else .next (commandEpoch s (advanceHull h s1))
  | _, _ => .next s

/-- Husk sets SHL_CTRL.START: a load of SLOT from SHL_SRC, into a slot that is EMPTY or READY (R135, R159). DESIGN CHOICE (log
198): one in a pod that belongs to no hull has no effect. -/
def startBare (p : Nat) (s : State) : State :=
  let n := s.rd (SHL_SEL p)
  let st := s.rd (SHL_SLOT p n)
  if s.podOwner p = none || (s.pod p).load.isSome || st = 1 || st = 3 then s
  else
    let s := refreshHubIdle p (s.setPod p { s.pod p with load := some { slot := n, cfg := 0, pkg := 0, bare := true } })
    (s.wr (SHL_SLOT p n) 1).wr (SHL_BUSY p) 1

/-- Husk sets SHL_CTRL.ABORT: the load stops (R146, R159). DESIGN CHOICE (log 165): one that a HULL_CREATE or HULL_RESIZE
waits for ends that command with ST_SHELL_ABORTED, as it ends a SHELL_LOAD. -/
def abortPod (p : Nat) (s : State) : State :=
  match (s.pod p).load, s.podOwner p with
  | some ld, some h =>
    if ld.bare then (stopLoad p s).wr (SHL_SLOT p ld.slot) 0
    else
      let s := abortLoads h s
      match runOf s h with
      | some r => match r.kind with
        | .creating _ _ => failCreate r h ST_SHELL_ABORTED 0 s
        | .resizing _ _ _ _ => failRepackage r h ST_SHELL_ABORTED 0 s
        | .mirroring _ _ => releaseMirror h s
        | _ => s
      | none => s
  | _, _ => s

/-- The actions of SHL_CTRL that a write of Husk starts. -/
def huskShell (p v : Nat) (s : State) : State :=
  let s := if bit v 4 then abortPod p s else s
  if bit v 0 then startBare p s else s

/-- The actions of SCN_CTRL that a write of Husk starts: a scan of a HALTED pod to or from SCN_ADDR, once the hull's mesh
traffic is quiescent and no SFU result is outstanding (R80, R116). A scan-in checks the record and writes the map first
(R157, R159). -/
def huskScan (p v : Nat) (s : State) : State :=
  match s.podOwner p with
  | none => s
  | some h =>
    if s.rd (POD_STATE p) ≠ POD_HALTED || !quiescent s h then s
    else if bit v 0 then startPodScan p 1 s
    else if bit v 1 then
      (if recordGood s h (scanBase s p) then startPodScan p 2 (writeMap (s.hull h).pods p s) else badRecord p s)
    else s

/-! ### TWIN_SWITCH on the module that leaves the active role (R392) -/

/-- The save blocks of a hull, by logical pod (R154). -/
def saveContents (s : State) (h : Nat) : List (Nat × List Byte) :=
  let bs := (s.hull h).saves
  (List.range bs.length).map (fun l => (l, mread s.tier.nmem (bs.getD l 0) SAVE_BYTES))

/-- Every hull has drained: its save blocks go to the standby, the command completes, and the roles are exchanged. -/
def finishSwitch (r : Running) (all : List Nat) (s : State) : State :=
  let step := all.foldl (fun m h => max m (s.hull h).lastStart.toNat) 0
  let done := endRunAt r step s
  let s := commandEpoch s done
  let s := all.foldl (fun s h => sendTwin (.saveBlocks h (saveContents s h)) s) s
  let s := all.foldl (fun s h => resumeHull h s) (s.wr TWIN_ACTIVE 0)
  setTwa 2 { s with twin := { s.twin with
    expect := s.twin.nextEpoch, staged := [], snapEpoch := none, cq := [], outputs := [], skips := []
    rings := (ringsInUse s).foldl (fun m n => tput m n (some (ringRec s n)) none) [] } }

/-- A hull of a running switch has drained, or its drain has failed and with it the switch. -/
def switchDrained (r : Running) (left all : List Nat) (h : Nat) (bad : Option Nat) (s : State) : State :=
  match bad with
  | some l => all.foldl (fun s x => formStep x (resumeHull x s)) (finishRun r ST_DRAIN_FAILED 0 l s)
  | none =>
    let left := left.filter (· ≠ h)
    if left = [] then finishSwitch r all s else setRun { r with kind := .switching left all } s

/-- The running switch that drains a hull. -/
def switchOf (s : State) (h : Nat) : Option (Running × List Nat × List Nat) :=
  s.host.running.findSome? (fun r => match r.kind with
    | .switching left all => if left.contains h then some (r, left, all) else none
    | _ => none)

/-- The drain of a hull whose pods have all been scanned: the command that asked for it completes or goes on (R155 step 8,
R156, R254). -/
def drainDone (h : Nat) (s : State) : State :=
  let hl := s.hull h
  let bad := (List.range hl.pods.length).find? (fun l => (s.pod (hl.pods.getD l 0)).scanBad)
  match switchOf s h with
  | some x => switchDrained x.1 x.2.1 x.2.2 h bad (s.setHull h { hl with drained := true, drainStep := hl.lastStart })
  | none => match bad with
  | some l =>
    match runOf s h with
    | some r => finishRun r ST_DRAIN_FAILED 0 l s
    | none => s
  | none =>
    let s := s.setHull h { hl with drained := true, drainStep := hl.lastStart }
    match runOf s h with
    | some r =>
      if r.kind == .draining h then pumpFences (endRunAt r hl.lastStart.toNat s)
      else advanceHull h s
    | none => s

/-- SCAN_OUT_DONE: a pod's images and record stand in its save block, and the pod is HALTED again (R155 step 7). An
uncorrectable error in the save block or in a tile's stores leaves the block unsaved (R50, R156). -/
def execScanOutDone (pod : Nat) (s : State) : Result :=
  match s.podOwner pod with
  | none => .next s
  | some h =>
    if (s.pod pod).scan ≠ 1 || !ntOn s || (s.pod pod).changing then .next s
    else
      let hl := s.hull h
      let base := scanBase s pod
      let errs := saveErrors s base
      let bad := errs ≠ [] || storesBad s pod
      let s1 := correctStores pod (errs.foldl (fun s g => uncorrectable false g 0 s) s)
      let s1 := if bad then s1 else scanOut h (hl.pods.idxOf pod) pod base s1
      let s1 := (endPodScan pod bad s1).wr (POD_STATE pod) POD_HALTED
      if drains s1 h && hl.pods.all (fun p => (s1.pod p).scan = 0) then .next (commandEpoch s (drainDone h s1)) else .next s1

/-- Whether a running command restores a hull. -/
def restores (s : State) (h : Nat) : Bool :=
  s.host.running.any (fun r => match r.kind with
    | .restoring x => x = h
    | .resizing x p _ _ => x = h && p = 1
    | _ => false)

/-- Every pod has been scanned in: the hull stands LOADED, and the command that asked for it completes (R157). -/
def restoreDone (h : Nat) (s : State) : State :=
  let s := resumeHull h s
  match runOf s h with
  | some r => formStep h (finishRun r (transferStatus r) 0 (if r.kind == .restoring h then 0 else hullDetail h (s.hull h)) s)
  | none => s

/-- SCAN_IN_DONE: a pod's images have been read back, and its table and routes are written again from the hull's
configuration (R157, R193). An uncorrectable or poisoned granule of the save block fails the restore (R204, R463). -/
def execScanInDone (pod : Nat) (s : State) : Result :=
  match s.podOwner pod with
  | none => .next s
  | some h =>
    if (s.pod pod).scan ≠ 2 || !ntOn s || (s.pod pod).changing then .next s
    else
      let hl := s.hull h
      let l := hl.pods.idxOf pod
      let base := scanBase s pod
      let errs := saveErrors s base
      let bad := errs ≠ [] || savePoisoned s base
      let s1 := endPodScan pod bad s
      if bad then
        let s2 := (errs.foldl (fun s g => uncorrectable false g 0 s) s1).wr (POD_STATE pod) POD_IDLE
        match runOf s2 h with
        | some r => .next (commandEpoch s (restoreFails r l s2))
        | none => .next s2
      else
        let s2 := (writeTable hl l pod (scanIn h pod base (correctSave base s1))).wr (POD_STATE pod) POD_HALTED
        if hl.pods.all (fun p => s2.rd (POD_STATE p) = POD_HALTED) && restores s2 h then
          .next (commandEpoch s (restoreDone h s2))
        else .next s2

end Sys2Proof.Machine
end

