-- ==== Sys2Proof/Machine/Command.lean ====
section
/-! DEFINITION. How Husk takes a command and what it checks before the command's own tests (R332–R337, R388, R409, R414):
the order of intake, the Who column, visibility, life cycle, twin standby, reserved bytes and stated ranges. -/

namespace Sys2Proof.Machine

/-- A command that Husk has taken. -/
structure Cmd where
  ring  : Nat
  fn    : Nat
  e     : BitVec 512
  seqNo : Nat

def Cmd.run (c : Cmd) (k : RunKind) : Running := { ring := c.ring, fn := c.fn, entry := c.e, seqNo := c.seqNo, kind := k }

/-- The command's completion: status, PROGRESS, DETAIL (R338). -/
def Cmd.done (c : Cmd) (status progress detail : Nat) (s : State) : State :=
  complete c.ring c.e status progress detail s

def Cmd.tenant (c : Cmd) : Nat := entryTenant c.e
def Cmd.hull (c : Cmd) : Nat := entryHull c.e

/-- Parameter of `n` bytes at byte `o`. -/
def Cmd.p (c : Cmd) (o n : Nat) : Nat := eb c.e o n

/-! ### The opcode tables (R340, R343, R346, R348, R350, R351, R354, R356) -/

/-- A parameter: byte offset, bytes, least and greatest value. A greatest value below the field's full width also bounds
its reserved bits. -/
structure Param where
  off : Nat
  len : Nat
  lo  : Nat := 0
  hi  : Nat

def par (off len : Nat) : Param := { off, len, hi := 2 ^ (8 * len) - 1 }
def parIn (off len lo hi : Nat) : Param := { off, len, lo, hi }
/-- An HREF: bits [63:36] are zero (R334). -/
def parRef (off : Nat) : Param := { off, len := 8, hi := 2 ^ 36 - 1 }

/-- What the tables say of an opcode: who may send it, whether TENANT or HULL names something, where it names a tensor and
a request, and its parameters. -/
structure OpSpec where
  pf     : Bool := true
  tenant : Bool := false
  hull   : Bool := false
  href   : Option Nat := none
  req    : Bool := false
  params : List Param := []

def opDevice (op : Nat) : Option OpSpec :=
  if op = 0x00 then some { pf := false }
  else if op = 0x01 then some { pf := false, params := [par 12 2, par 16 8] }
  else if op = 0x02 then some {
    pf := false
    hull := true
    params := [par 12 8, par 20 4, parIn 24 1 0 2, parRef 28] }
  else if op = 0x03 then some { pf := false, req := true, params := [parIn 12 2 0 4095, par 14 2, par 16 8] }
  else if op = 0x04 then some { pf := false, params := [par 12 4] }
  else if op = 0x05 then some { pf := false, tenant := true }
  else if op = 0x06 then some { tenant := true, params := [par 12 4, parIn 16 4 0 0xFFFFFF, par 20 4] }
  else if op = 0x07 then some { pf := false, tenant := true, params := [par 12 8] }
  else none

def opHull (op : Nat) : Option OpSpec :=
  if op = 0x10 then some {
    params := [parRef 12, parRef 20, par 28 4, parIn 32 2 1 4096, parIn 34 1 0 4, par 36 4, par 40 2, par 42 2, par 44 2, par 46 2, par 48 8] }
  else if op = 0x11 then some { hull := true, params := [parRef 12] }
  else if op = 0x12 || op = 0x13 || op = 0x14 then some { hull := true }
  else if op = 0x15 then some { hull := true, params := [parRef 12, parIn 20 1 0 3, parIn 21 1 0 3] }
  else if op = 0x16 then some { hull := true, params := [parIn 12 1 0 3] }
  else none

def opTensor (op : Nat) : Option OpSpec :=
  if op = 0x20 then some {
    pf := false
    tenant := true
    params := [parIn 12 1 0 6, parIn 13 1 0 31, parIn 16 8 1 (2 ^ 64 - 1), par 24 8] }
  else if op = 0x21 || op = 0x22 then some {
    pf := false
    href := some 12
    params := [parRef 12, parIn 20 1 0 1, parIn 21 1 0 1, parIn 22 1 0 63, par 24 8, par 32 8, parIn 40 8 1 (2 ^ 64 - 1)] }
  else if op = 0x23 then some { pf := false, href := some 12, params := [parRef 12] }
  else if op = 0x24 then some { pf := false, href := some 12, params := [parRef 12, parIn 20 1 0 2] }
  else if op = 0x25 then some {
    pf := false
    tenant := true
    params := [par 12 8, parIn 20 4 1 65536, par 24 8, parIn 32 1 0 1] }
  else if op = 0x26 then some { params := [par 12 8, parIn 20 4 0 65536, parIn 24 1 0 1, parIn 26 2 0 4095] }
  else if op = 0x27 then some { params := [parRef 12, parRef 20, par 28 8, parIn 36 4 1 65536] }
  else if op = 0x28 then some {  }
  else if op = 0x30 then some {
    pf := false
    tenant := true
    hull := true
    params := [par 12 8, par 20 4, par 24 8, par 32 4, par 36 2] }
  else if op = 0x31 then some {
    pf := false
    tenant := true
    hull := true
    params := [par 12 8, par 20 4, par 24 8, par 32 4, par 36 1, par 37 1, par 40 16] }
  else if op = 0x32 then some { pf := false, req := true, params := [parIn 12 2 0 4095, par 14 2] }
  else if op = 0x33 then some { pf := false, params := [parIn 12 1 0 1] }
  else none

def opFabric (op : Nat) : Option OpSpec :=
  if op = 0x40 then some { params := [parIn 12 2 0 511, parIn 14 2 1 512, parIn 16 1 0 15, par 24 8] }
  else if op = 0x41 then some { params := [par 16 8] }
  else if op = 0x42 then some { params := [parIn 12 2 0 4095, parIn 14 1 0 3] }
  else if op = 0x50 then some { params := [parIn 12 1 0 63] }
  else if op = 0x51 then some { params := [par 12 8, par 20 4] }
  else if op = 0x52 then some { params := [parIn 12 1 0 2] }
  else if op = 0x53 then some {  }
  else if op = 0x54 then some { params := [parIn 12 1 0 1, parIn 16 4 0 50] }
  else none

def opManage (op : Nat) : Option OpSpec :=
  if op = 0x60 then some { params := [par 12 8] }
  else if op = 0x61 || op = 0x64 then some {  }
  else if op = 0x62 then some { params := [parIn 12 2 0 1023, parIn 14 2 1 1024, parIn 16 1 0 1] }
  else if op = 0x63 then some { params := [par 12 8, par 20 4, parIn 24 4 10 1000000, par 28 10] }
  else if op = 0x65 then some { params := [par 12 8, par 20 4, par 24 1] }
  else if op = 0x70 then some { params := [parIn 12 1 0 1, parIn 16 4 1 60000, parIn 20 4 0 2800] }
  else if op = 0x71 then some { params := [parIn 12 4 20 2000, parIn 16 4 20 2000] }
  else if op = 0x72 then some { params := [par 12 1, par 16 4] }
  else if op = 0x73 then some { params := [parIn 12 1 0 7] }
  else if op = 0x74 then some { params := [par 12 8, par 20 4] }
  else if op = 0x75 then some { params := [parIn 12 1 0 1] }
  else none

/-- The tables' row of an opcode; none for an opcode that is not defined. -/
def opSpec (op : Nat) : Option OpSpec :=
  match opDevice op with
  | some x => some x
  | none => match opHull op with
    | some x => some x
    | none => match opTensor op with
      | some x => some x
      | none => match opFabric op with
        | some x => some x
        | none => opManage op

/-! ### Acceptance (R336) -/

/-- The parked opcodes (R409). -/
def parkedOp (op : Nat) : Bool := op = 0x01 || op = 0x02 || op = 0x74 || op = 0x75

/-- Whether a life-cycle state accepts an opcode (R414). -/
def lifeAccepts (lc op : Nat) : Bool :=
  if op = 0x00 || op = 0x01 || op = 0x02 || op = 0x03 || (0x60 ≤ op && op ≤ 0x65) || op = 0x70 || op = 0x71 then true
  else if op = 0x27 then lc = 1 || lc = 3
  else if op = 0x52 || op = 0x53 then lc = 2
  else lc ≠ 4

/-- Whether a standby admits a command (R388). -/
def standbyAdmits (c : Cmd) (op : Nat) : Bool :=
  op = 0x00 || op = 0x01 || op = 0x02 || op = 0x03 || op = 0x07 || op = 0x21 || op = 0x22 || op = 0x28
    || (op = 0x52 && c.p 12 1 = 0) || op = 0x51 || op = 0x54 || (0x60 ≤ op && op ≤ 0x65) || op = 0x70 || op = 0x71
    || op = 0x74

/-- Whether a function may use a tenant slot (R323). -/
def ownsSlot (s : State) (fn t : Nat) : Bool := (s.slot t).bound && (s.slot t).owner = fn

/-- Whether a command uses its TENANT field: with BIND for TENSOR_DEFINE and VARIANT_LOAD (R346, R348). -/
def usesTenant (c : Cmd) (op : Nat) (o : OpSpec) : Bool :=
  o.tenant && !(op = 0x20 && !bit (c.p 13 1) 2) && !(op = 0x25 && !bit (c.p 32 1) 0)

/-- Whether a VF sees the tensor that an HREF names; one that names no tensor is left to R334. -/
def seesTensor (s : State) (fn v : Nat) : Bool :=
  let t := s.tensor (hrefHandle v)
  !t.valid || (!t.fixed && t.bound && ownsSlot s fn t.tenant)

/-- Order 3 of R336 for a VF: the field that it may not use. -/
def deniedField (s : State) (c : Cmd) (op : Nat) (o : OpSpec) : Option Nat :=
  if c.fn = 0 then none
  else if o.pf then some 0
  else if usesTenant c op o && !ownsSlot s c.fn c.tenant then some 8
  else if o.req && s.rd (RING_OWNER (c.p 12 2)) ≠ c.fn then some 12
  else if op = 0x02 && c.p 24 1 = 2 then some 24
  else if op = 0x02 && c.p 24 1 = 1 && !seesTensor s c.fn (c.p 28 8) then some 28
  else if op = 0x04 && (boundSlots s).any (fun t => (s.slot t).identity = c.p 12 4 && (s.slot t).owner ≠ c.fn) then some 12
  else if op = 0x20 && (!bit (c.p 13 1) 2 || bit (c.p 13 1) 3) then some 13
  else if op = 0x25 && !bit (c.p 32 1) 0 then some 32
  else match o.href with
    | some h => if seesTensor s c.fn (c.p h 8) then none else some h
    | none => none

/-- Ranges that depend on more than one field, or on the opcode: (offset, whether it holds). -/
def rangeTests (c : Cmd) (op : Nat) : List (Nat × Bool) :=
  if op = 0x02 then [need 12 (c.p 12 8 % 64 = 0),
    need 20 ((if c.p 24 1 = 1 then 64 else 256) ≤ c.p 20 4)]
  else if op = 0x06 then [need 20 (c.p 20 4 ≤ c.p 12 4)]
  else if op = 0x20 then
    let o := c.p 13 1
    let region := bit o 3
    [need 12 (!region || c.p 12 1 = 0), need 13 (bits o 0 2 ≠ 3 && (region || !bit o 4) && (!region || bits o 0 2 = 0)),
     need 24 (!region || c.p 24 8 = 0)]
  else if op = 0x26 then
    let rm := bit (c.p 24 1) 0
    [need 20 (if rm then c.p 20 4 = 0 else c.p 20 4 ≠ 0), need 26 (if rm then c.p 26 2 ≠ 0 else c.p 26 2 = 0)]
  else if op = 0x40 then [need 14 (c.p 12 2 + c.p 14 2 ≤ 512)]
  else if op = 0x51 then [need 20 (1112 ≤ c.p 20 4)]
  else if op = 0x62 then [need 14 (c.p 12 2 + c.p 14 2 ≤ 1024)]
  else if op = 0x63 then [need 12 (c.p 12 8 % 4096 = 0), need 20 (c.p 20 4 % 4096 = 0)]
  else if op = 0x70 then [need 20 (c.p 20 4 = 0 || 1000 ≤ c.p 20 4)]
  else if op = 0x71 then [need 16 (c.p 16 4 ≤ c.p 12 4)]
  else []

/-- Order 6 of R336: the lowest byte offset of a field with a reserved bit set or a value out of its range. -/
def badField (c : Cmd) (op : Nat) (o : OpSpec) : Option Nat :=
  let assigned := fun (b : Nat) => o.params.any (fun q => q.off ≤ b && b < q.off + q.len)
  let hullUsed : Bool := o.hull && (op ≠ 0x02 || c.p 24 1 = 2)
  let fs : List (Nat × Bool) :=
    [need 1 (bits (c.p 1 1) 2 6 = 0), need 8 (if o.tenant then bits (c.p 8 2) 10 6 = 0 else c.p 8 2 = 0),
     need 10 (if hullUsed then bits (c.p 10 1) 7 1 = 0 else c.p 10 1 = 0), need 11 (c.p 11 1 = 0)]
    ++ (List.range 52).map (fun i => need (12 + i) (assigned (12 + i) || c.p (12 + i) 1 = 0))
    ++ o.params.map (fun q => need q.off (q.lo ≤ c.p q.off q.len && c.p q.off q.len ≤ q.hi))
    ++ rangeTests c op
  (fs.filter (fun f => !f.2)).foldl (fun (m : Option Nat) f => match m with
    | some x => some (min x f.1)
    | none => some f.1) none

/-- The checks of R336, orders 1 to 6: the first that fails, with its DETAIL. -/
def accept (c : Cmd) (s : State) : Option (Nat × Nat) :=
  let op := entryOpcode c.e
  let lc := s.rd LC_STATE
  match opSpec op with
  | none => some (ST_BAD_OPCODE, op)
  | some o =>
    if s.rdB BOOT_PARKED && !parkedOp op then some (ST_DEVICE_PARKED, 0)
    else match deniedField s c op o with
      | some f => some (ST_ACCESS_DENIED, f)
      | none =>
        if !lifeAccepts lc op || (!parkedOp op && !(tget s.host.hello c.fn {}).done) then some (ST_DEVICE_STATE, lc)
        else if isStandby s && !standbyAdmits c op then some (ST_TWIN_STANDBY, 0)
        else (badField c op o).map (fun f => (ST_BAD_PARAM, f))

/-! ### Hulls named by a command (R76, R254, R337, R345) -/

/-- Whether a hull stands saved by HULL_DRAIN; a relocation's own drain does not count. -/
def isDrained (s : State) (h : Nat) : Bool :=
  (s.hull h).drained && (match runOf s h with
    | some r => (match r.kind with | .resizing _ _ _ _ => false | _ => true)
    | none => true)

/-- Why a hull does not take a command: it does not exist, has faulted, or stands where few commands are taken. The flags
say whether the command is taken by a faulted, a drained and an awaiting hull. -/
def hullBad (s : State) (h : Nat) (faulted drained awaiting : Bool) : Option (Nat × Nat) :=
  let hl := s.hull h
  if !hl.live || hl.destroying then some (ST_NO_SUCH_HULL, 0)
  else match hl.fault with
    | some rec => if faulted then none else some (ST_HULL_FAULTED, rec.toNat)
    | none =>
      if (isDrained s h && !drained) || (hl.awaiting && !awaiting) then some (ST_HULL_BUSY, 0) else none

/-! ### Intake (R250, R332, R337, R406) -/

/-- The commands that R250 serializes, and those that R406 does. -/
def inGroup (op : Nat) : Bool := op = 0x10 || op = 0x11 || op = 0x12 || op = 0x41
def isFirmware (op : Nat) : Bool := op = 0x74 || op = 0x75

/-- BASE_INSTALL. DESIGN CHOICE (log 172): Husk carries out one at a time, since each erases the base region and fills it
again (R238); the manual is silent on two. -/
def isInstall (op : Nat) : Bool := op = 0x27

/-- Whether a FIRMWARE_STAGE is running (R406). -/
def firmwareBusy (s : State) : Bool :=
  s.host.running.any (fun r => match r.kind with | .imageRead _ => true | _ => false)

/-- Whether a BASE_INSTALL is running. -/
def installBusy (s : State) : Bool :=
  s.host.running.any (fun r => match r.kind with
    | .baseManifest _ => true
    | .installing _ _ => true
    | _ => false)

/-- Whether the group of an opcode has a command in progress. -/
def groupRuns (s : State) (op : Nat) : Bool :=
  (inGroup op && groupBusy s) || (isFirmware op && firmwareBusy s) || (isInstall op && installBusy s)

/-- Whether two opcodes are of one serialized group. -/
def sameGroup (a b : Nat) : Bool :=
  (inGroup a && inGroup b) || (isFirmware a && isFirmware b) || (isInstall a && isInstall b)

/-- Whether an arm is pending. -/
def armPending (s : State) : Bool :=
  s.host.running.any (fun r => match r.kind with
    | .cyclePinning _ _ _ => true
    | .cycleArmed _ => true
    | _ => false)

/-- Whether a command of a group must wait: for the one that runs, or for those taken before it. A
CYCLE_TABLE_ARM that comes while an arm is pending does not: it completes with ST_CYCLE_BUSY (R260). -/
def groupWaits (s : State) (op : Nat) : Bool :=
  if op = 0x41 && armPending s then false
  else groupRuns s op || s.host.held.any (fun (g : Fetched) => sameGroup op (entryOpcode g.entry))

/-- Whether a command of the ring that came before has not completed (R332). -/
def earlierRuns (s : State) (ring seqNo : Nat) : Bool :=
  s.host.running.any (fun r => r.ring = ring && r.seqNo < seqNo)
    || s.host.held.any (fun g => g.ring = ring && g.seqNo < seqNo)
    || (liveIdx s).any (fun i => (s.request i).ring = ring && (s.request i).seqNo < seqNo)

/-- The command of a ring that Husk takes next: its first, unless that is ORDERED and one before it has not completed. -/
def ringNext (s : State) (ring : Nat) : Option Fetched :=
  match s.host.husk.find? (fun f => f.ring = ring) with
  | none => none
  | some f => if entryOrdered f.entry && earlierRuns s ring f.seqNo then none else some f

/-- The next command of each ring. -/
def nextCommands (s : State) : List Fetched :=
  ((s.host.husk.map (fun (f : Fetched) => f.ring)).eraseDups).filterMap (ringNext s)

/-- Whether Husk takes one command before another: by PRIORITY_SET, then as they arrived (R337). -/
def takenBefore (s : State) (a b : Fetched) : Bool :=
  let pa := (s.ringAux a.ring).priority
  let pb := (s.ringAux b.ring).priority
  pa < pb || (pa = pb && a.seqNo ≤ b.seqNo)

/-- The command that Husk takes next of all rings. -/
def huskNext (s : State) : Option Fetched :=
  let l := nextCommands s
  l.find? (fun f => l.all (takenBefore s f))

/-- A fetched command as Husk sees it. -/
def cmdOf (s : State) (f : Fetched) : Cmd :=
  { ring := f.ring, fn := s.rd (RING_OWNER f.ring), e := f.entry, seqNo := f.seqNo }

/-- A command leaves the queue of those fetched. -/
def takeFetched (f : Fetched) (s : State) : State :=
  trace (64 + entryOpcode f.entry) [f.ring, entrySeq f.entry, entryTag f.entry]
    { s with host := { s.host with husk := s.host.husk.filter (fun g => g.seqNo ≠ f.seqNo) } }

/-- A command whose OPCODE is not defined stands next: it is taken and completes (R336 order 1). -/
def rejectNext (s : State) : State :=
  match huskNext s with
  | none => s
  | some f =>
    let op := entryOpcode f.entry
    if (opSpec op).isSome then s else (cmdOf s f).done ST_BAD_OPCODE 0 op (takeFetched f s)

/-- Every command with an undefined OPCODE that stands next is taken and completes. -/
def rejectUndefined (s : State) : State := iterate rejectNext s.host.husk.length s

/-- The held command of `op` on `ring` whose turn in its group has come. -/
def startHeld (op ring : Nat) (s : State) : Option (Cmd × State) :=
  match s.host.held.find? (fun (f : Fetched) => sameGroup op (entryOpcode f.entry)) with
  | none => none
  | some f =>
    if f.ring ≠ ring || entryOpcode f.entry ≠ op || groupRuns s op then none
    else some (cmdOf s f, { s with host := { s.host with held := s.host.held.filter (fun g => g.seqNo ≠ f.seqNo) } })

/-- The command of `op` on `ring` taken from Husk's queue, where it is the next of all rings. -/
def takeCmd (op ring : Nat) (s : State) : Option (Fetched × State) :=
  match huskNext s with
  | none => none
  | some f => if entryOpcode f.entry ≠ op || f.ring ≠ ring then none else some (f, takeFetched f s)

/-- A taken command: checked by R336, then carried out. -/
def runCmd (body : Cmd → State → State) (c : Cmd) (s : State) : State :=
  match accept c s with
  | some f => c.done f.1 0 f.2 s
  | none => body c s

/-- A host command: taken, checked by R336, and carried out; one of a group that is busy is taken and waits for its turn
(R250), when its row carries it out. With no such command next in line only undefined opcodes are answered. -/
def hostCommand (op ring : Nat) (body : Cmd → State → State) (s : State) : Result :=
  let s := rejectUndefined s
  match startHeld op ring s with
  | some (c, t) => .next (runCmd body c t)
  | none => match takeCmd op ring s with
    | none => .next s
    | some (f, t) =>
      if groupWaits t op then .next { t with host := { t.host with held := t.host.held ++ [f] } }
      else .next (runCmd body (cmdOf s f) t)

end Sys2Proof.Machine
end

