-- ==== Sys2Proof/Machine/CmdTensor.lean ====
section
/-! DEFINITION. The tensor commands and the transfers that they run: TENSOR_DEFINE, TENSOR_WRITE, TENSOR_READ, TENSOR_FREE,
TENSOR_CLASS, VARIANT_LOAD and the bulk-data-port channels that TENSOR_WRITE and TENSOR_READ may take (R206–R218, R225,
R325, R335, R337, R346–R349). -/

namespace Sys2Proof.Machine

/-! ### Planes and halts of host accesses (R218, R329) -/

/-- Start of a plane within a copy, and its bytes (R208). -/
def planeStart (t : Tensor) (scale : Bool) : Nat := if scale then scaleOff t else 0
def planeBytes (t : Tensor) (scale : Bool) : Nat := if scale then t.scale else t.elem

/-- Global address of a byte of a plane in the tensor's present copy (R347). -/
def presentAddr (s : State) (t : Tensor) (scale : Bool) (off : Nat) : Nat :=
  let r := planeStart t scale + off
  (if t.inN then globalAddr s 0 (t.nBase + r) else if t.inD then globalAddr s 1 (t.dBase + r)
   else globalAddr s 2 (t.fBase + r)).toNat

/-- Whether a host access by handle waits: its tensor is being moved, or has no DRAM copy (R216, R218, R329). -/
def hostHalts (s : State) (h : Nat) : Bool :=
  let t := s.tensor h
  t.valid && !t.fixed && (t.move ≠ 0 || (!t.inN && !t.inD && !t.fGone))

/-- The answer to a host access that halts: on, or wait, or no room to stage. -/
inductive HostGo where
  | go
  | wait
  | noRoom

def hostGo (h : Nat) (s : State) : HostGo × State :=
  if !hostHalts s h then (.go, s)
  else match onHalt h 2 s with
    | (.wait, s) => (.wait, s)
    | (.noRoom, s) => (.noRoom, s)
    | (_, s) => (.go, s)

/-! ### Bytes by DMA -/

/-- The next piece of a transfer: up to the next 4 KiB boundary of the host address. -/
def pieceLen (addr left : Nat) : Nat := min (4096 - addr % 4096) left

/-- Whether a running command has a DMA read outstanding. -/
def readPending (s : State) (seqNo : Nat) : Bool := s.host.dma.any (fun d => d.use = .command seqNo)

/-- A host buffer failed (R335): the event and the status, PROGRESS and DETAIL of the command. -/
def finishDmaError (r : Running) (done addr : Nat) (s : State) : State :=
  finishRun r ST_DMA_ERROR done addr (dmaErrorEvent addr r.fn 0 s)

/-- Whether an access of a running command stands in a controller. -/
def accessOut (s : State) (seqNo : Nat) : Bool := s.tier.queue.any (fun a => a.use = .command seqNo)

/-- A command's access by handle goes to its controller, in class 2 (R264). -/
def commandAccess (r : Running) (h : Nat) (scale : Bool) (off : Nat) (op : TierOp) (s : State) : State :=
  present (.command r.seqNo) { who := .fn r.fn, target := .handle h scale off, op, cls := 2 } s

/-- The bytes before a failing granule of a write by handle: they count in PROGRESS and are stored; none of an access that
ended LATE (R225). -/
def storePrefix (fn h : Nat) (scale : Bool) (off code at_ : Nat) (data : List Byte) (s : State) : Nat × State :=
  if code = RSP_LATE || at_ = 0 then (0, s)
  else (at_, (answer true (.fn fn) (.handle h scale off) (.write (data.take at_)) s).s)

/-- TENSOR_WRITE goes on: the next host read is issued unless one or its access is outstanding or the tensor makes it wait. -/
def pumpWrite (r : Running) (s : State) : State :=
  match r.kind with
  | .tensorWrite h scale off left done =>
    if left = 0 then finishRun r (transferStatus r) done 0 s
    else if readPending s r.seqNo || accessOut s r.seqNo then s
    else match hostGo h s with
      | (.wait, s) => s
      | (.noRoom, s) => finishRun r ST_NO_ROOM done (shortD s (copySize (s.tensor h))) s
      | (.go, s) =>
        let a := eb r.entry 32 8 + done
        dmaIn r.fn a (pieceLen a left) (.command r.seqNo) (setRun { r with kind := .tensorWrite h scale off left done } s)
  | _ => s

/-- A piece of a TENSOR_WRITE has arrived and goes to its controller. One that meets a halt is read again after it. -/
def arriveWrite (r : Running) (data : List Byte) (s : State) : State :=
  match r.kind with
  | .tensorWrite h scale off left done =>
    match hostGo h s with
    | (.wait, s) => s
    | (.noRoom, s) => finishRun r ST_NO_ROOM done (shortD s (copySize (s.tensor h))) s
    | (.go, s) =>
      commandAccess r h scale (off + done) (.write (data.take (min left (pieceLen (eb r.entry 32 8 + done) left)))) s
  | _ => s

/-- The access of a TENSOR_WRITE's piece has ended. -/
def writeEnded (r : Running) (data : List Byte) (code at_ : Nat) (addr : DWord) (s : State) : State :=
  match r.kind with
  | .tensorWrite h scale off left done =>
    if rspFails code then
      let k := storePrefix r.fn h scale (off + done) code at_ data s
      finishRun r (rspStatus code) (done + k.1) addr.toNat k.2
    else
      let r := { r with kind := .tensorWrite h scale off (left - data.length) (done + data.length) }
      pumpWrite r (setRun r s)
  | _ => s

/-- TENSOR_READ goes on: the next piece goes to its controller unless one stands there or the tensor makes it wait. -/
def pumpRead (r : Running) (s : State) : State :=
  match r.kind with
  | .tensorRead h scale off left done =>
    if left = 0 then finishRun r (transferStatus r) done 0 s
    else if accessOut s r.seqNo then s
    else match hostGo h s with
      | (.wait, s) => s
      | (.noRoom, s) => finishRun r ST_NO_ROOM done (shortD s (copySize (s.tensor h))) s
      | (.go, s) => commandAccess r h scale (off + done) (.read (pieceLen (eb r.entry 32 8 + done) left)) s
  | _ => s

/-- A piece of a TENSOR_READ has been read: it is posted to the host, or the bytes before a failing granule are (R225). -/
def readEnded (r : Running) (code at_ : Nat) (addr : DWord) (data : List Byte) (s : State) : State :=
  match r.kind with
  | .tensorRead h scale off left done =>
    let a := eb r.entry 32 8 + done
    if rspFails code then finishRun r (rspStatus code) (done + at_) addr.toNat (dmaOut r.fn a (data.take at_) s)
    else
      let n := data.length
      let r := { r with kind := .tensorRead h scale off (left - n) (done + n), unwritten := r.unwritten || code = RSP_UNWRITTEN }
      pumpRead r (setRun r (dmaOut r.fn a data s))
  | _ => s

/-! ### Channels (R324, R347) -/

def BDP_CTRL (c : Nat) : Nat := bdpBlock c + 0x4
def BDP_STATUS (c : Nat) : Nat := bdpBlock c + 0x8
def BDP_FREE (c : Nat) : Nat := bdpBlock c + 0xC
def BDP_TARGET (c : Nat) : Nat := bdpBlock c + 0x10
def BDP_BYTES (c : Nat) : Nat := bdpBlock c + 0x18

/-- The command that holds a channel. -/
def channelRun (s : State) (c : Nat) : Option Running :=
  s.host.running.find? (fun r => match r.kind with | .channel x _ _ _ => x = c | _ => false)

/-! ### TENSOR_WRITE and TENSOR_READ (R347) -/

/-- The tests of R347 in their order. -/
def transferBad (c : Cmd) (write : Bool) (s : State) : Option (Nat × Nat) :=
  match hrefBad s (c.p 12 8) 12 with
  | some f => some f
  | none =>
    let t := s.tensor (hrefHandle (c.p 12 8))
    let sc := bit (c.p 20 1) 0
    if planeBytes t sc < c.p 24 8 + c.p 40 8 then some (ST_ADDR_RANGE, presentAddr s t sc (planeBytes t sc))
    else if write && t.readOnly then some (ST_READ_ONLY, (globalAddr s 2 (t.fBase + planeStart t sc + c.p 24 8)).toNat)
    else if c.p 21 1 = 1 && (!ownsChannel s c.fn (c.p 22 1) || (channelRun s (c.p 22 1)).isSome) then
      some (ST_ACCESS_DENIED, 22)
    else none

/-- The channel set for a transfer: MODE 1, the plane, the handle and OFFSET. -/
def takeChannel (c : Cmd) (write : Bool) (s : State) : State :=
  let ch := c.p 22 1
  let s := s.wr ⟨BDP_CTRL ch, 0, 2⟩ (1 + 2 * (c.p 20 1 % 2))
  let s := s.wr64 (BDP_TARGET ch) (hrefHandle (c.p 12 8) + c.p 24 8 * 2 ^ 20)
  startRun (c.run (.channel ch write (c.p 40 8) 0)) s

/-- TENSOR_WRITE (R347). -/
def execTensorWrite (ring : Nat) (s : State) : Result :=
  hostCommand 0x21 ring (fun c s =>
    match transferBad c true s with
    | some f => c.done f.1 0 f.2 s
    | none =>
      if c.p 21 1 = 1 then takeChannel c true s
      else
        let r := c.run (.tensorWrite (hrefHandle (c.p 12 8)) (bit (c.p 20 1) 0) (c.p 24 8) (c.p 40 8) 0)
        pumpWrite r (startRun r s)) s

/-- TENSOR_READ (R347). -/
def execTensorRead (ring : Nat) (s : State) : Result :=
  hostCommand 0x22 ring (fun c s =>
    match transferBad c false s with
    | some f => c.done f.1 0 f.2 s
    | none =>
      if c.p 21 1 = 1 then takeChannel c false s
      else
        let r := c.run (.tensorRead (hrefHandle (c.p 12 8)) (bit (c.p 20 1) 0) (c.p 24 8) (c.p 40 8) 0)
        pumpRead r (startRun r s)) s

/-! ### TENSOR_DEFINE, TENSOR_FREE, TENSOR_CLASS (R208, R210, R214, R347) -/

/-- A fixed D-tier region that no hull owns. -/
def definePlainRegion (share : Bool) (elem : Nat) (s : State) : Sum Nat (Nat × State) :=
  match defineRegion true share 0 elem s with
  | .inl e => .inl e
  | .inr (h, s) => .inr (h, refreshHeat (s.setTensor h { s.tensor h with owned := false }))

/-- TENSOR_DEFINE (R206, R208, R347). -/
def execTensorDefine (ring : Nat) (s : State) : Result :=
  hostCommand 0x20 ring (fun c s =>
    let o := c.p 13 1
    let bind := bit o 2
    let region := bit o 3
    let elem := c.p 16 8
    let scale := c.p 24 8
    if bind && !(s.slot c.tenant).bound then c.done ST_TENANT_UNBOUND 0 0 s
    else if (freeHandle s).isNone then c.done ST_NO_HANDLE 0 0 s
    else if !region && !shapeOk (c.p 12 1) elem scale then c.done ST_TENSOR_SHAPE 0 0 s
    else
      let t : Tensor := { cls := bits o 0 2, format := c.p 12 1, elem, scale }
      match (if region then definePlainRegion (bit o 4) elem s else defineTensor t s) with
      | .inl 1 => c.done ST_NO_HANDLE 0 0 s
      | .inl _ => c.done ST_NO_ROOM 0 (shortD s (copySize t)) s
      | .inr (h, s2) =>
        let s2 := if bind then s2.setTensor h { s2.tensor h with bound := true, tenant := c.tenant } else s2
        commandEpoch s (c.done ST_OK 0 (hrefOf s2 h) s2)) s

/-- Whether a running TENSOR_WRITE, TENSOR_READ, VARIANT_ARCHIVE or BASE_INSTALL uses a tensor (R337). -/
def tensorInUse (s : State) (h : Nat) : Bool :=
  s.host.running.any (fun r => match r.kind with
    | .tensorWrite x _ _ _ _ => x = h
    | .tensorRead x _ _ _ _ => x = h
    | .channel _ _ _ _ => hrefHandle (eb r.entry 12 8) = h
    | .archiving _ _ id => (tget s.flash.archives id {}).handles.contains h
    | .baseManifest _ => hrefHandle (eb r.entry 12 8) = h || hrefHandle (eb r.entry 20 8) = h
    | .installing _ _ => hrefHandle (eb r.entry 12 8) = h || hrefHandle (eb r.entry 20 8) = h
    | _ => false)

/-- One base tensor of a BASE_STAGE: a move already staging it is joined, else one starts; (tensors, shortfall, state). DESIGN
CHOICE (log 210): DETAIL is the shortfall of the first tensor that found no room (R464). -/
def stageOne (acc : List Nat × Option Nat × State) (h : Nat) : List Nat × Option Nat × State :=
  let s := acc.2.2
  let t := s.tensor h
  if !t.valid || t.inN || t.inD then acc
  else if t.move = MOVE_STAGE then (acc.1 ++ [h], acc.2.1, raiseMove h 2 s)
  else match startMove h MOVE_STAGE 2 false s with
    | some s => (acc.1 ++ [h], acc.2.1, s)
    | none => (acc.1, some (acc.2.1.getD (shortD s (copySize t))), s)

/-- A running BASE_STAGE starts its moves once the placement engine serves (R22), and waits for the tensors that are still
being staged; those that stand in D-tier have been counted when their move ended (R239). -/
def pumpBaseStage (r : Running) (s : State) : State :=
  match r.kind with
  | .baseStaging fresh left done short =>
    let g := if placementOn s then fresh.foldl stageOne (left, short, s) else (left, short, s)
    let fresh := if placementOn s then [] else fresh
    let left := g.1
    let short := g.2.1
    let s := g.2.2
    let still := left.filter (fun h => (s.tensor h).valid && (s.tensor h).move = MOVE_STAGE)
    let came := (left.filter (fun h => !still.contains h && (s.tensor h).valid && (s.tensor h).inD)).foldl
      (fun n h => n + scaleOff (s.tensor h) + (s.tensor h).scale) 0
    if fresh = [] && still = [] then
      finishRun r (if short = none then ST_OK else ST_NO_ROOM) (done + came) (short.getD 0) s
    else setRun { r with kind := .baseStaging fresh still (done + came) short } s
  | _ => s

/-- Every running BASE_STAGE. -/
def pumpBaseStages (s : State) : State := s.host.running.foldl (fun s r => pumpBaseStage r s) s

/-- TENSOR_CLASS (R214, R347). -/
def execTensorClass (ring : Nat) (s : State) : Result :=
  hostCommand 0x24 ring (fun c s =>
    match hrefBad s (c.p 12 8) 12 with
    | some f => c.done f.1 0 f.2 s
    | none =>
      let h := hrefHandle (c.p 12 8)
      let t := s.tensor h
      if c.fn ≠ 0 && t.readOnly then c.done ST_ACCESS_DENIED 0 12 s
      else commandEpoch s (c.done ST_OK 0 0 (s.setTensor h { t with cls := c.p 20 1 }))) s

/-! ### VARIANT_LOAD (R348, R349) -/

/-- A list entry of VARIANT_LOAD or BASE_INSTALL (R348). -/
structure ListEntry where
  format : Nat
  cls    : Nat
  elem   : Nat
  scale  : Nat
  place  : Nat

def listEntry (b : List Byte) (i : Nat) : ListEntry :=
  let f := fun (o n : Nat) => leNat ((b.drop (32 * i + o)).take n)
  { format := f 0 1, cls := f 1 1, elem := f 8 8, scale := f 16 8, place := f 24 8 }

def listEntries (b : List Byte) (n : Nat) : List ListEntry := (List.range n).map (listEntry b)

/-- The checks of R349 on a list: an undefined FORMAT or a CLASS of 3, then sizes that break R208. -/
def listBad (es : List ListEntry) (off : Nat) : Option (Nat × Nat) :=
  if es.any (fun e => 6 < e.format || 2 < e.cls) then some (ST_BAD_PARAM, off)
  else if es.any (fun e => !shapeOk e.format e.elem e.scale) then some (ST_TENSOR_SHAPE, 0)
  else none

/-- VARIANT_LOAD (R349): the list is read first. -/
def execVariantLoad (ring : Nat) (s : State) : Result :=
  hostCommand 0x25 ring (fun c s =>
    if bit (c.p 32 1) 0 && !(s.slot c.tenant).bound then c.done ST_TENANT_UNBOUND 0 0 s
    else dmaIn c.fn (c.p 12 8) (32 * c.p 20 4) (.command c.seqNo) (startRun (c.run (.variantList (c.p 20 4))) s)) s

/-- Every handle and D-tier copy of a list, or the failure. -/
def defineAll (bound : Option Nat) (es : List ListEntry) (s : State) : Sum (Nat × Nat) (List Nat × State) :=
  es.foldl (fun (acc : Sum (Nat × Nat) (List Nat × State)) e => match acc with
    | .inl f => .inl f
    | .inr (hs, s) =>
      let t : Tensor := { cls := e.cls, format := e.format, elem := e.elem, scale := e.scale,
                          bound := bound.isSome, tenant := bound.getD 0 }
      match defineTensor t s with
      | .inl 1 => .inl (ST_NO_HANDLE, 0)
      | .inl _ => .inl (ST_NO_ROOM, shortD s (copySize t))
      | .inr (h, s) => .inr (hs ++ [h], s)) (.inr ([], s))

/-- The planes that a list names, in the order in which they are pulled. -/
def pullList (es : List ListEntry) (hs : List Nat) : List (Nat × Nat × Nat × Nat) :=
  ((es.zip hs).flatMap (fun x => [(x.2, x.1.place, 0, x.1.elem),
    (x.2 + 2 ^ 20, x.1.place + roundUp x.1.elem 64, 0, x.1.scale)])).filter (fun x => x.2.2.2 ≠ 0)

/-- VARIANT_LOAD goes on with its next host read, or is done. -/
def pumpVariant (r : Running) (s : State) : State :=
  match r.kind with
  | .variantPull [] done _ => finishRun r ST_OK done 0 s
  | .variantPull ((_, addr, _, n) :: _) _ _ => dmaIn r.fn addr (pieceLen addr n) (.command r.seqNo) s
  | _ => s

/-- VARIANT_LOAD's list has arrived. -/
def arriveVariantList (r : Running) (data : List Byte) (s : State) : State :=
  match r.kind with
  | .variantList n =>
    let es := listEntries data n
    match listBad es 12 with
    | some f => finishRun r f.1 0 f.2 s
    | none =>
      match defineAll (if bit (eb r.entry 32 1) 0 then some (entryTenant r.entry) else none) es s with
      | .inl f => finishRun r f.1 0 f.2 s
      | .inr (hs, s2) =>
        let r := { r with kind := .variantPull (pullList es hs) 0 hs }
        let s2 := dmaOut r.fn (eb r.entry 24 8) (hs.flatMap (fun h => leBytes (hrefOf s2 h) 8)) (setRun r s2)
        commandEpoch s (pumpVariant r s2)
  | _ => s

/-- A transfer of a VARIANT_LOAD failed: every tensor that it defined is freed. -/
def failVariant (r : Running) (all : List Nat) (status done detail : Nat) (s : State) : State :=
  commandEpoch s (finishRun r status done detail (all.foldl (fun s h => freeTensor h s) s))

/-- A piece of a plane has arrived and goes to its controller. -/
def arriveVariant (r : Running) (data : List Byte) (s : State) : State :=
  match r.kind with
  | .variantPull ((k, addr, off, n) :: _) _ _ =>
    commandAccess r (k % 2 ^ 20) (k / 2 ^ 20 = 1) off (.write (data.take (pieceLen addr n))) s
  | _ => s

/-- The access of a piece of a VARIANT_LOAD has ended. -/
def variantEnded (r : Running) (data : List Byte) (code at_ : Nat) (addr : DWord) (s : State) : State :=
  match r.kind with
  | .variantPull ((k, host, off, n) :: rest) done all =>
    let m := data.length
    if rspFails code then
      failVariant r all (rspStatus code) (done + (if code = RSP_LATE then 0 else at_)) addr.toNat s
    else
      let left := if n ≤ m then rest else (k, host + m, off + m, n - m) :: rest
      let r := { r with kind := .variantPull left (done + m) all }
      pumpVariant r (setRun r s)
  | _ => s

/-- The access of a running command has ended: its command goes on. -/
def accessDone (r : Running) (op : TierOp) (code at_ : Nat) (addr : DWord) (data : List Byte) (s : State) : State :=
  match op with
  | .write d => (match r.kind with
    | .variantPull _ _ _ => variantEnded r d code at_ addr s
    | _ => writeEnded r d code at_ addr s)
  | _ => readEnded r code at_ addr data s

end Sys2Proof.Machine
end

