-- ==== Sys2Proof/Machine/Flash.lean ====
section
/-! DEFINITION. The F-tier's media: where a chunk lies, wear, retirement and relocation, the write-restricted state, rows
of the open extent and of the base region, and the events of reads, programs, erases, scrubs, compaction, levelling and
channel failure (R229–R247). -/

namespace Sys2Proof.Machine

/-! ### Geometry (R229, R230, R232) -/

def EXTENTS : Nat := 7084
def GOOD_BLOCKS : Nat := 7450

/-- Check channels of row `r` in group `g` (R232). -/
def ftChecks (r g : Nat) : List Nat := (List.range 3).map (fun m => 64 * g + (3 * r + m) % 64)

def State.block (s : State) (c b : Nat) : Block := tget s.flash.blocks (blkKey c b) {}
def State.setBlock (s : State) (c b : Nat) (v : Block) : State :=
  { s with flash := { s.flash with blocks := tput s.flash.blocks (blkKey c b) v {} } }

/-- The extent that a channel's map puts in a block. -/
def extOf (s : State) (c b : Nat) : Option Nat :=
  if b < EXTENTS && blockOf s c b = b then some b
  else (s.flash.extMap.find? (fun x => x.1 / 8192 = c && x.2 = b)).map (fun x => x.1 % 8192)

/-- An extent's use: 0 = free, 1 = base, 2 = archive, 3 = open. -/
def extUse (s : State) (e : Nat) : Nat := tget s.flash.extents e 0

/-- Blocks of a channel that no extent has and that are not retired. Blocks 7084 to 7099 are the system blocks. -/
def unmapped (s : State) (c b : Nat) : Bool :=
  !(EXTENTS ≤ b && b < EXTENTS + 16) && (extOf s c b).isNone && !(s.block c b).retired

/-- Whether a block holds live data: an extent in use. -/
def blockLive (s : State) (c b : Nat) : Bool :=
  match extOf s c b with
  | some e => extUse s e ≠ 0
  | none => false

/-- USE of a block (R247). -/
def blockUse (s : State) (c b : Nat) : Nat :=
  if (s.block c b).retired then 3
  else if EXTENTS ≤ b && b < EXTENTS + 16 then 2
  else if blockLive s c b then 1 else 0

/-- Whether a block can take data: it is free, and not being erased (R230, R235). -/
def takesData (s : State) (c b : Nat) : Bool := blockUse s c b = 0 && !s.flash.erasing.contains (c, b)

/-- A block of a channel that can take data: one that no extent has, else that of a free extent, since every free block is
interchangeable with every other of its channel (R230). -/
def freeFor (s : State) (c : Nat) : Option Nat :=
  match (List.range GOOD_BLOCKS).find? (fun b => unmapped s c b && takesData s c b) with
  | some b => some b
  | none => (List.range GOOD_BLOCKS).find? (takesData s c)

/-- An extent put in block `n` of a channel; a free extent that had that block takes block `o` for it. -/
def mapExtent (c e n o : Nat) (s : State) : State :=
  let m := match extOf s c n with
    | some f => tput s.flash.extMap (blkKey c f) o f
    | none => s.flash.extMap
  { s with flash := { s.flash with extMap := tput m (blkKey c e) n e } }

/-! ### Registers that follow the media (R247) -/

/-- The channel's registers. -/
def refreshChannel (c : Nat) (s : State) : State :=
  let mine := (s.flash.blocks.filter (fun x => x.1 / 8192 = c && !x.2.retired))
  let gone := (s.flash.blocks.filter (fun x => x.1 / 8192 = c && x.2.retired)).length
  let band := fun n => (mine.filter (fun x => x.2.band = n)).length
  let used := mine.filter (fun x => blockUse s c (x.1 % 8192) ≠ 0)
  let total := mine.foldl (fun n x => n + x.2.erases) 0
  let b := ftChan c
  let s := s.wr ⟨b, 0, 9⟩ (GOOD_BLOCKS - gone - 7100)
  let s := s.wr ⟨b, 10, 2⟩ (used.foldl (fun m x => max m x.2.band) 0)
  let s := s.wr32 (b + 4) (mine.foldl (fun m x => max m x.2.erases) 0 + total / (GOOD_BLOCKS - gone) * 2 ^ 16)
  s.wr64 (b + 8) (GOOD_BLOCKS - gone - band 1 - band 2 - band 3 + band 1 * 2 ^ 16 + band 2 * 2 ^ 32 + band 3 * 2 ^ 48)

/-- FT_SPARE_MIN: the lowest spare count and the lowest-numbered channel that has it. -/
def refreshSpareMin (s : State) : State :=
  let m := (List.range 256).foldl (fun (b : Nat × Nat) c => if s.rd (FT_SPARES c) < b.1 then (s.rd (FT_SPARES c), c) else b)
    (s.rd (FT_SPARES 0), 0)
  s.wr32 0x220018 (m.1 + m.2 * 2 ^ 16)

/-- BASE, ARCHIVE and FREE extent counts, and MAX_BAND of the channels whose blocks have a history, as extents enter and
leave use. -/
def refreshExtents (s : State) : State :=
  let n := fun (p : Nat → Bool) => (s.flash.extents.filter (fun x => p x.2)).length
  let s := (s.wr32 0x22000C (n (· = 1))).wr32 0x220010 (n (fun u => 2 ≤ u))
  let s := s.wr32 0x220014 (EXTENTS - n (fun _ => true))
  ((s.flash.blocks.map (fun x => x.1 / 8192)).eraseDups).foldl (fun s c => refreshChannel c s) s

/-- The write-restricted state begins or gains a cause: bit 0 = spares, bit 1 = channel (R245). -/
def restrict (cause : Nat) (s : State) : State :=
  let old := s.rd FT_CAUSE
  let new := old ||| cause
  if new = old then s
  else
    let entry := !s.rdB FT_RESTRICTED
    let s := (s.wr FT_CAUSE new).wr FT_RESTRICTED 1
    if entry then recordEvent 0x0304 none none (payload [(32, 1, new), (33, 2, s.rd32 0x220018)]) s else s

/-! ### The wear and winnow engines' share (R264, R267) -/

/-- Whether the wear and winnow engines are granted: class 3 at the F-tier, which serves and whose meter stands below its
cap (R22, R265, R267). -/
def wearGranted (s : State) : Bool := ftOn s && bgMeter s 2 0 < bgCap s 2 0

/-- Their service time, in 0.1 ns, counts in class 3. -/
def noteWear (service : Nat) (s : State) : State :=
  let k := meterKey 2 0
  { s with sched := { s.sched with bg := tput s.sched.bg k (tget s.sched.bg k 0 + service) 0
                                   c3 := tput s.sched.c3 k (tget s.sched.c3 k 0 + service) 0 } }

/-! ### Wear (R242, R243) -/

/-- The band that an erase count gives. -/
def eraseBand (n : Nat) : Nat := if 3000 ≤ n then 3 else if 2250 ≤ n then 2 else if 1000 ≤ n then 1 else 0

/-- The event bytes that describe a block. -/
def blockBytes (c b old : Nat) (v : Block) : List (Nat × Nat × Nat) :=
  [(40, 1, c), (42, 2, b), (44, 1, old), (45, 1, v.band), (46, 2, v.erases), (48, 1, v.retry), (49, 1, v.bits)]

/-- A relocation starts, unless the block is already on its way. It stands until its channel has a block for the data. -/
def beginRelocation (c b : Nat) (goal : Option Nat) (s : State) : State :=
  if s.flash.relocs.any (fun r => r.1 = c && r.2.1 = b) then s
  else traceIn 768 832 [c, b, 0] { s with flash := { s.flash with relocs := s.flash.relocs ++ [(c, b, goal)] } }

def relocateBlock (c b : Nat) (s : State) : State :=
  if blockLive s c b then beginRelocation c b none s else s

/-- A block enters a higher band; one that enters band 3 by signal with live data is relocated (R242, R243). -/
def raiseBand (c b band : Nat) (signal : Bool) (s : State) : State :=
  let v := s.block c b
  if band ≤ v.band then s
  else
    let w := { v with band }
    let s := refreshChannel c ((s.setBlock c b w).raise FT_STATUS 8)
    let s := recordEvent 0x0302 none none (payload (blockBytes c b v.band w)) s
    if band = 3 && signal then relocateBlock c b s else s

/-- A block is retired (R243): cause 0 = erase due, 1 = signal, 2 = failure. A channel without a spare keeps it in service
(R245). An extent that the block held goes to a free block of the channel; where that is a free extent's, that one takes a
block that is still being erased. -/
def retireBlock (c b cause : Nat) (s : State) : State :=
  let v := s.block c b
  if v.retired then s
  else if s.rd (FT_SPARES c) = 0 then s.setBlock c b { v with due := true }
  else
    let e := extOf s c b
    let s := s.setBlock c b { v with retired := true, due := false }
    let left := (List.range GOOD_BLOCKS).find? (unmapped s c)
    let s := match e, left with
      | some e, some u => mapExtent c e (if extUse s e = 0 then u else (freeFor s c).getD u) u s
      | _, _ => s
    let s := { s with flash := { s.flash with erasing := s.flash.erasing.filter (· ≠ (c, b)) } }
    let s := refreshSpareMin (refreshChannel c s)
    let s := (s.raise FT_STATUS 9).addWrap 0x220034 1
    let s := recordEvent 0x0303 none none (payload (blockBytes c b v.band v
      ++ [(50, 1, cause), (52, 2, s.rd (FT_SPARES c))])) s
    if s.rd (FT_SPARES c) < 149 then restrict 1 s else s

/-- A block that no longer holds data is to be erased before reuse, or retired in band 3 (R235, R243). -/
def freeBlock (c b : Nat) (s : State) : State :=
  let v := s.block c b
  let s := if v.band = 3 then retireBlock c b (if 3000 ≤ v.erases then 0 else 1) s else s
  if (s.block c b).retired || s.flash.erasing.contains (c, b) then s
  else { s with flash := { s.flash with erasing := s.flash.erasing ++ [(c, b)] } }

/-- An extent's use set. -/
def setUse (e u : Nat) (s : State) : State :=
  { s with flash := { s.flash with extents := tput s.flash.extents e u 0 } }

/-- An extent is free: its blocks are erased before reuse, and its data is gone. -/
def freeExtent (e : Nat) (s : State) : State :=
  let lo := e * EXTENT_BYTES
  let s := (List.range 256).foldl (fun s c => freeBlock c (blockOf s c e) s) (setUse e 0 s)
  let f := { s.flash with fmem := tclear s.flash.fmem lo (lo + EXTENT_BYTES),
                          lost := tclear s.flash.lost (lo / 4096) ((lo + EXTENT_BYTES) / 4096) }
  refreshExtents { s with flash := f }

/-- The extents of a use. -/
def extentsOf (s : State) (p : Nat → Bool) : List Nat := (s.flash.extents.filter (fun x => p x.2)).map (·.1)

/-- A crypto-erase of both media keys (R235): no extent holds data. -/
def cryptoErase (s : State) : State :=
  let s := (extentsOf s (fun _ => true)).foldl (fun s e => freeExtent e s) s
  let f := { s.flash with baseKey := s.flash.baseKey + 1, archKey := s.flash.archKey + 1, base := [], archives := [],
                          openExt := none, openRow := 0, rows := [] }
  { s with flash := f }.wr FT_BASE_VALID 0

/-! ### Room for rows (R233, R240) -/

/-- Erases of an extent's 256 blocks, together. -/
def eraseSum (s : State) (e : Nat) : Nat :=
  s.flash.blocks.foldl (fun n x => if extOf s (x.1 / 8192) (x.1 % 8192) = some e then n + x.2.erases else n) 0

/-- Free extents `e .. e + n − 1` with the lowest erase counts. -/
def freeRun (s : State) (n : Nat) : Option Nat :=
  let ok := fun e => e + n ≤ EXTENTS && (List.range n).all (fun i => extUse s (e + i) = 0)
  let cost := fun e => (List.range n).foldl (fun m i => m + eraseSum s (e + i)) 0
  (((List.range EXTENTS).filter ok).foldl (fun (b : Option (Nat × Nat)) e => match b with
    | some x => if cost e < x.2 then some (e, cost e) else b
    | none => some (e, cost e)) none).map (·.1)

/-- Rows for one tensor copy: its first row. Rows are appended to the open extent; a copy that does not fit in what is left
of it starts in free extents, the last of which becomes the open one. -/
def takeRows (n : Nat) (s : State) : Option (Nat × State) :=
  let fits : Bool := match s.flash.openExt with
    | some e => s.flash.openRow + n ≤ (e + 1) * 512
    | none => false
  if fits then some (s.flash.openRow, { s with flash := { s.flash with openRow := s.flash.openRow + n } })
  else
    let k := max 1 (ceilDiv n 512)
    match freeRun s k with
    | none => none
    | some e =>
      let s := match s.flash.openExt with | some o => setUse o 2 s | none => s
      let s := (List.range (k - 1)).foldl (fun s i => setUse (e + i) 2 s) s
      let s := setUse (e + k - 1) 3 s
      some (e * 512, refreshExtents { s with flash := { s.flash with openExt := some (e + k - 1), openRow := e * 512 + n } })

/-- Rows of a copy of `len` bytes. -/
def rowCount (len : Nat) : Nat := ceilDiv len ROW

/-- Rows for several copies, in order. -/
def takeAll : List Nat → State → Option (List Nat × State)
  | [], s => some ([], s)
  | n :: ns, s => match takeRows n s with
    | none => none
    | some (r, s) => (takeAll ns s).map (fun x => (r :: x.1, x.2))

/-- Bytes of `[lo, lo + n)` that lie in `[a, b)`. -/
def overlap (a b lo n : Nat) : Nat := min b (lo + n) - max a lo

/-- The rows of one copy: its bytes laid from `row`, `elem` and `scale` of them user bytes. -/
def rowsOf (seqNo row elem scale : Nat) (data : List Byte) : List FtRow :=
  (List.range (rowCount data.length)).map (fun i =>
    let bs := (data.drop (i * ROW)).take ROW
    { seqNo, row := row + i
      bytes := overlap 0 elem (i * ROW) ROW + overlap (roundUp elem 64) (roundUp elem 64 + scale) (i * ROW) ROW
      data := ((List.range bs.length).zip bs).filter (fun x => x.2 ≠ 0#8) })

/-! ### Live rows and compaction (R241) -/

/-- Rows of an archive member. -/
def memberRows (f : FTensor) : Nat × Nat := (f.fBase / ROW, rowCount (roundUp f.elem 64 + f.scale))

/-- Live rows of an extent. -/
def liveRows (s : State) (e : Nat) : Nat :=
  s.flash.archives.foldl (fun n a => a.2.members.foldl (fun n f =>
    let m := memberRows f
    n + overlap (e * 512) ((e + 1) * 512) m.1 m.2) n) 0

/-- Members with a row in an extent, as (archive, place in it). -/
def membersIn (s : State) (e : Nat) : List (Nat × Nat) :=
  s.flash.archives.flatMap (fun a => ((List.range a.2.members.length).zip a.2.members).filterMap (fun x =>
    let m := memberRows x.2
    if 0 < overlap (e * 512) ((e + 1) * 512) m.1 m.2 then some (a.1, x.1) else none))

/-- Rows of the member at a place in an archive. -/
def rowsOfMember (s : State) (m : Nat × Nat) : Nat :=
  match (tget s.flash.archives m.1 {}).members[m.2]? with
  | some f => (memberRows f).2
  | none => 0

/-- The blocks of the extents that hold rows `[row, row + n)` have been programmed: their reads and their age start again (R244,
R247). -/
def programmed (row n : Nat) (s : State) : State :=
  (List.range (ceilDiv (row % 512 + n) 512)).foldl (fun s i => (List.range 256).foldl (fun s c =>
    let b := blockOf s c (row / 512 + i)
    s.setBlock c b { s.block c b with reads := 0, since := s.counter.toNat }) s) s

/-- A member's rows copied to rows from `row`, and its F_BASE changed in its archive and in its tensor (R241): all of them,
since a copy lies in one run from its F_BASE (R207, R232). A unit that cannot be read stays lost where it is copied to
(R237). -/
def moveMember (id k row : Nat) (s : State) : State :=
  let a := tget s.flash.archives id {}
  match a.members[k]? with
  | none => s
  | some f =>
    let len := rowCount (roundUp f.elem 64 + f.scale) * ROW
    let f2 := { f with fBase := row * ROW }
    let s := { s with flash := { s.flash with
      fmem := mcopy s.flash.fmem f.fBase len s.flash.fmem (row * ROW)
      lost := (List.range (len / 4096)).foldl (fun m i =>
        tput m (row * ROW / 4096 + i) (tget s.flash.lost (f.fBase / 4096 + i) false) false) s.flash.lost
      archives := tput s.flash.archives id { a with members := setAt a.members k f2 } {} } }
    let s := (handles s).foldl (fun s h =>
      let t := s.tensor h
      if t.origin = 2 && t.archive = id && !t.fGone && t.fBase = f.fBase then s.setTensor h { t with fBase := row * ROW } else s) s
    (programmed row (len / ROW) s).add64 0x220050 (len / ROW * 256 * 65536)

/-- Whether a read of F-tier space is outstanding in a controller. -/
def flashReadOut (s : State) : Bool :=
  (s.tier.queue ++ s.tier.xbar).any (fun a => match a.req.target with | .addr g => gSpace g = 2 | _ => false)

/-- The archive extent with the fewest live rows. -/
def emptiest (s : State) : Option Nat :=
  ((extentsOf s (· = 2)).foldl (fun (b : Option (Nat × Nat)) e => match b with
    | some x => if liveRows s e < x.2 then some (e, liveRows s e) else b
    | none => some (e, liveRows s e)) none).map (·.1)

/-- Whether rows that wait to be programmed lie in an extent, or belong to one of the members given. -/
def rowsWait (s : State) (e : Nat) (ms : List (Nat × Nat)) : Bool :=
  s.flash.rows.any (fun r => r.row / 512 = e || ms.any (fun m => match (tget s.flash.archives m.1 {}).members[m.2]? with
    | some f => (memberRows f).1 ≤ r.row && r.row < (memberRows f).1 + (memberRows f).2
    | none => false))

/-- Whether a block that is to hold rows `[row, row + n)` still awaits its erasure (R235). -/
def awaitsErase (s : State) (row n : Nat) : Bool :=
  (List.range (ceilDiv (row % 512 + n) 512)).any (fun i => (List.range 256).any (fun c =>
    s.flash.erasing.contains (c, blockOf s c (row / 512 + i))))

/-- COMPACTION: with fewer than 8 free extents the wear engine empties the archive extent with the fewest live rows. While
the F-tier is write-restricted it programs only where no free extent exists (R241, R245). It waits for the blocks that it is to
program to be erased (R235), and for rows of its members that are still to be programmed. Its service time is a free value:
the row carries none (log 191). -/
def execCompaction (s : State) : Result :=
  let free := s.rd32 0x220014
  match emptiest s with
  | none => .next s
  | some e =>
    let ms := membersIn s e
    if 8 ≤ free || !wearGranted s || flashReadOut s || rowsWait s e ms || (s.rdB FT_RESTRICTED && free ≠ 0 && ms ≠ []) then .next s
    else
      match takeAll (ms.map (rowsOfMember s)) s with
      | none => .next s
      | some (rs, t) =>
        if (ms.zip rs).any (fun x => awaitsErase t x.2 (rowsOfMember s x.1)) then .next s
        else
        let s := traceIn 768 832 [0, 0, e] (noteWear t.fresh.1.toNat t.fresh.2)
        .next (freeExtent e ((ms.zip rs).foldl (fun s x => moveMember x.1.1 x.1.2 x.2 s) s))

/-! ### What stands on the medium (R234) -/

/-- The 16 B of metadata beside a codeword. -/
structure UnitMeta where
  row     : Nat
  channel : Nat
  extent  : Nat
  gen     : Nat
  crc     : Nat
deriving DecidableEq, Repr

/-- The media key of an extent: whether it is the archive media key, and how often that has been replaced (R234, R235). -/
def mediaKey (s : State) (e : Nat) : Bool × Nat :=
  if extUse s e = 1 then (false, s.flash.baseKey) else (true, s.flash.archKey)

/-- The ciphertext of a data unit: its tweak is its OFFSET div 4,096. -/
def unitCipher (s : State) (u : Nat) : List Byte :=
  let k := mediaKey s (ftPlace (u / 16)).extent
  Config.mediaCipher k.1 k.2 u (mread s.flash.fmem (u * 4096) 4096)

/-- The metadata of a data unit. DESIGN CHOICE (log 211): the archive generation is the count of its media key. -/
def unitMeta (s : State) (u : Nat) : UnitMeta :=
  let p := ftPlace (u / 16)
  { row := u / 16 / 244, channel := p.channel, extent := p.extent, gen := (mediaKey s p.extent).2, crc := crc32 (unitCipher s u) }

/-- A codeword whose metadata is not its unit's is a failure of the inner code, which the outer code corrects; one whose
metadata is, has decoded (R234). -/
def checkMeta (s : State) (u : Nat) : Codeword → Codeword
  | .named row channel extent gen crc =>
    if unitMeta s u = { row, channel, extent, gen, crc } then .hard 0 else .outer
  | w => w

/-! ### Reads, scrubs and relocation (R236, R237, R242–R244, R246) -/

/-- A codeword as the state of its group makes it. Every read of a failed channel is a reconstruction, and a further error
in the same codeword of the outer code, another failed channel's among them, ends it (R236, R246). -/
def onChannel (failed mates : Bool) (w : Codeword) : Codeword :=
  match failed, mates, w with
  | _, _, .lost => .lost
  | true, true, _ => .lost
  | true, false, _ => .outer
  | false, true, .outer => .lost
  | false, _, w => w

def cwLost : Codeword → Bool | .lost => true | _ => false
def cwRetry : Codeword → Bool | .retry _ _ => true | _ => false
def cwSoft : Codeword → Bool | .soft _ => true | _ => false
def cwOuter : Codeword → Bool | .outer => true | _ => false
/-- The read-retry step at which a codeword decoded. -/
def cwStep : Codeword → Nat | .retry n _ => n | _ => 0
/-- Corrected bits of a codeword that the inner code decoded. -/
def cwBits : Codeword → Nat
  | .hard n => n
  | .retry _ n => n
  | .soft n => n
  | _ => 0

/-- The counters of a chunk read (R236, R247). -/
def countReads (ws : List Codeword) (s : State) : State :=
  ((s.addSat 0x220020 (ws.filter cwRetry).length).addSat 0x220024 (ws.filter cwSoft).length).addSat 0x220028
    (ws.filter cwOuter).length

/-- The units of a chunk that are lost stay so until they are written again (R237). -/
def markLost (k : Nat) (ws : List Codeword) (s : State) : State :=
  { s with flash := { s.flash with lost :=
    ((List.range ws.length).zip ws).foldl (fun m x => if cwLost x.2 then tput m (16 * k + x.1) true false else m) s.flash.lost } }

/-- The band that a read's corrected bits and read-retry steps give: 16 steps in all are a mean of 1.0 over its codewords (R242).
DESIGN CHOICE (log 212): a codeword that no read-retry step decoded counts none. -/
def readBand (most steps : Nat) (deep : Bool) : Nat :=
  if deep || 100 ≤ most then 3 else if 16 ≤ steps || 72 ≤ most then 2 else 0

/-- FT_CHUNK_READ: user chunk `chunk` is read, each of its 16 codewords decoding as the medium makes it (R236, R242). -/
def execFtChunkRead (chunk : Nat) (codewords : List Codeword) (s : State) : Result :=
  let p := ftPlace chunk
  if codewords.length ≠ 16 || EXTENTS ≤ p.extent || extUse s p.extent = 0 || !bit (s.rd32 FT_STATUS) 0 then .next s
  else
    let c := p.channel
    let b := blockOf s c p.extent
    let failed := s.rdB (FT_FAILED c)
    let ws := ((List.range 16).zip codewords).map (fun x =>
      if tget s.flash.lost (16 * chunk + x.1) false then .lost
      else onChannel failed (failedMates s c ≠ []) (checkMeta s (16 * chunk + x.1) x.2))
    let s := markLost chunk ws (countReads ws s)
    let v := s.block c b
    let s := if failed then s else s.setBlock c b { v with reads := v.reads + 4 }
    let most := ws.foldl (fun m w => max m (cwBits w)) 0
    let steps := ws.foldl (fun n w => n + cwStep w) 0
    match ((List.range 16).zip ws).find? (fun x => cwLost x.2) with
    | some x =>
      let s := noteFtUe (chunk * 65536 + x.1 * 4096) s
      .next (if failed then s else raiseBand c b (readBand most steps false) true s)
    | none =>
      let deep := ws.any (fun w => cwSoft w || cwOuter w)
      let s := if deep || ws.any cwRetry then s.raise FT_STATUS 5 else s
      if failed then .next s
      else
        let s := raiseBand c b (readBand most steps deep) true s
        .next (if deep then relocateBlock c b s else s)

/-- Counter values of 7 days. -/
def WEEK : Nat := 604800 * 10 ^ 9

/-- Whether the winnow engine scrubs a block now (R244): 100,000 pages have been read since its last program or scrub, or it
holds live data, of an extent or of the system (R230), and that was 7 days ago. DEDUCED (log 174): a counter value below that moment's is of another run of the
step counter, and the age is then not known to be less. -/
def scrubDue (s : State) (c b : Nat) : Bool :=
  let v := s.block c b
  100000 ≤ v.reads || ((blockUse s c b = 1 || blockUse s c b = 2) && (s.counter.toNat < v.since || v.since + WEEK ≤ s.counter.toNat))

/-- FT_SCRUB: a block is read whole: its mean read-retry step × 32 and its most corrected bits (R242, R244). -/
def execFtScrub (place : BlockAt) (retryMean32 maxBits service : Nat) (s : State) : Result :=
  let channel := place.channel
  let block := place.block
  let v := s.block channel block
  if 256 ≤ channel || GOOD_BLOCKS ≤ block || v.retired || !wearGranted s || !scrubDue s channel block then .next s
  else
    let s := (noteWear service s).setBlock channel block { v with reads := 0, since := s.counter.toNat, retry := min 255 retryMean32, bits := min 255 maxBits }
    let band := if 100 ≤ maxBits then 3 else if 32 ≤ retryMean32 || 72 ≤ maxBits then 2 else if 8 ≤ retryMean32 then 1 else 0
    let s := raiseBand channel block band true s
    .next (if 64 ≤ retryMean32 || 72 ≤ maxBits then relocateBlock channel block s else s)

/-- A relocation leaves the list. -/
def dropReloc (r : Nat × Nat × Option Nat) (s : State) : State :=
  { s with flash := { s.flash with relocs := s.flash.relocs.filter (· ≠ r) } }

/-- The block that a relocation's data goes to: the one that levelling named while it is free, else any free one. -/
def relocGoal (s : State) (c : Nat) (named : Option Nat) : Option Nat :=
  match named with
  | some n => if takesData s c n then some n else freeFor s c
  | none => freeFor s c

/-- BLOCK_RELOCATION_DONE: the oldest relocation of a channel ends; the map switches, and the old block is erased or, in
band 3, retired (R243). One whose data has gone is dropped, and one without a free block waits for it. -/
def execBlockRelocationDone (work : ChannelWork) (s : State) : Result :=
  if !wearGranted s then .next s
  else match s.flash.relocs.find? (fun r => r.1 = work.channel) with
  | none => .next s
  | some r =>
    let c := r.1
    let old := r.2.1
    match extOf s c old, relocGoal s c r.2.2 with
    | some e, some new =>
      if extUse s e = 0 then .next (dropReloc r s)
      else
        let s := mapExtent c e new old (dropReloc r (noteWear work.service s))
        let s := (s.setBlock c new { s.block c new with reads := 0, since := s.counter.toNat }).add64 0x220050 (2 ^ 25)
        .next (refreshChannel c (freeBlock c old s))
    | some e, none => .next (if extUse s e = 0 then dropReloc r s else s)
    | none, _ => .next (dropReloc r s)

/-- The block of the base region with the lowest count of those more than 750 erases behind their channel's highest. -/
def levelLow (s : State) (c : Nat) : Option Nat :=
  let er := fun b => (s.block c b).erases
  let top := (s.flash.blocks.filter (fun x => x.1 / 8192 = c && !x.2.retired)).foldl (fun m x => max m x.2.erases) 0
  (((extentsOf s (· = 1)).map (blockOf s c)).filter (fun b => er b + 750 < top)).foldl (fun (b : Option Nat) x =>
    match b with
    | some y => if er x < er y then some x else b
    | none => some x) none

/-- The channel's free block with the highest count. -/
def levelHigh (s : State) (c : Nat) : Option Nat :=
  let er := fun b => (s.block c b).erases
  ((List.range GOOD_BLOCKS).filter (fun b => takesData s c b && !s.flash.relocs.any (fun r => r.1 = c && r.2.2 = some b))).foldl
    (fun (b : Option Nat) x => match b with
      | some y => if er y < er x then some x else b
      | none => some x) none

/-- STATIC_LEVELLING: a block of the base region that has fallen behind moves to the free block with the highest count
(R244). -/
def execStaticLevelling (channel : Nat) (s : State) : Result :=
  match levelLow s channel with
  | none => .next s
  | some b => .next (beginRelocation channel b (levelHigh s channel) s)

/-- FT_ERASE_DONE: a block's erase completes, or fails and retires it (R242, R243). `service`, here and in the other events of
the wear and winnow engines, is the service time in 0.1 ns. -/
def execFtEraseDone (place : BlockAt) (ok : Bool) (service : Nat) (s : State) : Result :=
  let channel := place.channel
  let block := place.block
  if !wearGranted s || !s.flash.erasing.contains (channel, block) then .next s
  else
    let s := noteWear service { s with flash := { s.flash with erasing := s.flash.erasing.filter (· ≠ (channel, block)) } }
    let v := s.block channel block
    if !ok then .next (retireBlock channel block 2 s)
    else
      let s := s.setBlock channel block { v with erases := v.erases + 1, reads := 0 }
      .next (refreshChannel channel (raiseBand channel block (eraseBand (v.erases + 1)) false s))

/-- FT_CHANNEL_FAILURE (R246). -/
def execFtChannelFailure (channel : Nat) (s : State) : Result :=
  if 256 ≤ channel || s.rdB (FT_FAILED channel) then .next s
  else
    let s := (s.wr (FT_FAILED channel) 1).raise FT_STATUS 10
    .next (restrict 2 (recordEvent 0x0305 none none (payload [(40, 1, channel)]) s))

/-! ### Block selection (R247) -/

/-- FT_BLK_INFO of the block that FT_BLK_SEL names. -/
def blockInfo (s : State) (c b : Nat) : Nat :=
  let v := s.block c b
  let ext := match extOf s c b with
    | some e => if extUse s e = 0 then 0xFFFF else e
    | none => 0xFFFF
  if GOOD_BLOCKS ≤ b then 0
  else v.erases % 4096 + v.band * 2 ^ 12 + blockUse s c b * 2 ^ 14 + ext * 2 ^ 16 + min 0xFFFF (v.reads / 1000) * 2 ^ 32
    + v.retry * 2 ^ 48 + v.bits * 2 ^ 56

/-- A write of FT_BLK_SEL latches the block's state. -/
def selectBlock (v : Word) (s : State) : State :=
  let n := writeMask 0x220100 (s.rd32 0x220100) v.toNat
  (s.wr32 0x220100 n).wr64 0x220108 (blockInfo s (bits n 0 8) (bits n 8 13))

end Sys2Proof.Machine
end

