-- ==== Sys2Proof/Machine/CmdFlash.lean ====
section
/-! DEFINITION. The commands that write the F-tier and stage from it, and the end of a row's program: VARIANT_ARCHIVE,
BASE_INSTALL, BASE_STAGE, FT_PROGRAM_DONE (R238–R240, R243, R348, R349). -/

namespace Sys2Proof.Machine

/-! ### VARIANT_ARCHIVE (R240, R245, R349) -/

/-- Archive `id` removed: its rows are dead, and tensors registered from it lose their F_BASE (R240). -/
def removeArchive (id : Nat) (s : State) : State :=
  let s := { s with flash := { s.flash with archives := tput s.flash.archives id {} {} } }
  (handles s).foldl (fun s h =>
    let t := s.tensor h
    if t.origin = 2 && t.archive = id then s.setTensor h { t with fGone := true } else s) s

/-- A tensor of an archive that a running command uses. -/
def archiveInUse (s : State) (id : Nat) : Option Nat :=
  (handles s).find? (fun h => (s.tensor h).origin = 2 && (s.tensor h).archive = id && tensorInUse s h)

/-- The remove option. -/
def archiveRemove (c : Cmd) (s : State) : State :=
  let id := c.p 26 2
  if !(tget s.flash.archives id {}).live then c.done ST_NO_SUCH_ARCHIVE 0 0 s
  else match archiveInUse s id with
    | some h => c.done ST_TENSOR_BUSY 0 (s.tensor h).binds s
    | none => commandEpoch s (c.done ST_OK 0 id (removeArchive id s))

/-- VARIANT_ARCHIVE: with REMOVE at once, else its list is read first. -/
def execVariantArchive (ring : Nat) (s : State) : Result :=
  hostCommand 0x26 ring (fun c s =>
    if bit (c.p 24 1) 0 then archiveRemove c s
    else if s.rdB FT_RESTRICTED then c.done ST_FT_WORN 0 (s.rd32 0x220018) s
    else dmaIn c.fn (c.p 12 8) (8 * c.p 20 4) (.command c.seqNo) (startRun (c.run (.archiveList (c.p 20 4))) s)) s

/-- The lowest free archive ID. -/
def freeArchive (s : State) : Option Nat := (List.range 4095).findSome? (fun i =>
  if tget s.flash.archives (i + 1) {} = {} then some (i + 1) else none)

/-- Whether an HREF of the list cannot be archived: status and DETAIL. -/
def archiveBad (s : State) (v : Nat) : Option (Nat × Nat) :=
  match hrefBad s v 12 with
  | some f => some f
  | none => if (s.tensor (hrefHandle v)).origin ≠ 1 then some (ST_BAD_PARAM, 12) else none

/-- A plane read by handle: the code, the failing address, the bytes. -/
def planeRead (fn h : Nat) (scale : Bool) (s : State) : Nat × Nat × List Byte × State :=
  let t := s.tensor h
  let tg : Target := .handle h scale 0
  if planeBytes t scale = 0 then (RSP_OK, 0, [], s)
  else
    let op := TierOp.read (planeBytes t scale)
    let a := access true (.fn fn) tg op s
    (a.code, (failAddr s (.fn fn) tg op a.at_).toNat, a.data, a.s)

/-- What reading tensors for the F-tier comes to: a failing code and address, or the copies so far. -/
structure Gather where
  fail  : Option (Nat × Nat) := none
  unwr  : Bool := false
  rows  : List FtRow := []
  parts : List FTensor := []
  s     : State

/-- One tensor of an archive, in rows from `row`. -/
def gatherTensor (fn seqNo : Nat) (g : Gather) (x : Nat × Nat) : Gather :=
  let h := x.1
  let t := g.s.tensor h
  if g.fail.isSome then g
  else
    let e := planeRead fn h false g.s
    if rspFails e.1 then { g with fail := some (e.1, e.2.1), s := e.2.2.2 }
    else
      let c := planeRead fn h true e.2.2.2
      if rspFails c.1 then { g with fail := some (c.1, c.2.1), s := c.2.2.2 }
      else
        let data := if t.scale = 0 then e.2.2.1 else e.2.2.1 ++ zeros (scaleOff t - t.elem) ++ c.2.2.1
        { g with
          unwr := g.unwr || e.1 = RSP_UNWRITTEN || c.1 = RSP_UNWRITTEN
          rows := g.rows ++ rowsOf seqNo x.2 t.elem t.scale data
          parts := g.parts ++ [{ format := t.format, cls := t.cls, elem := t.elem, scale := t.scale, fBase := x.2 * ROW }]
          s := c.2.2.2 }

/-- The list of a VARIANT_ARCHIVE has arrived: its tensors are read as they stand now, and their rows wait to be
programmed. -/
def arriveArchiveList (r : Running) (data : List Byte) (s : State) : State :=
  match r.kind with
  | .archiveList n =>
    let vs := (List.range n).map (fun i => leNat ((data.drop (8 * i)).take 8))
    match vs.findSome? (archiveBad s) with
    | some f => finishRun r f.1 0 f.2 s
    | none =>
      let hs := vs.map hrefHandle
      match freeArchive s, takeAll (hs.map (fun h => rowCount (scaleOff (s.tensor h) + (s.tensor h).scale))) s with
      | some id, some (rs, s2) =>
        let g := (hs.zip rs).foldl (gatherTensor r.fn r.seqNo) { s := s2 }
        match g.fail with
        | some f => finishRun r (rspStatus f.1) 0 f.2 g.s
        | none =>
          let a : Archive := { members := g.parts, rows := g.rows.length, firstRow := rs.headD 0, handles := hs }
          let s := { g.s with flash := { g.s.flash with
            rows := g.s.flash.rows ++ g.rows
            archives := tput g.s.flash.archives id a {} } }
          setRun { r with kind := .archiving g.rows.length 0 id, unwritten := g.unwr } s
      | _, _ => finishRun r ST_FT_FULL 0 0 s
  | _ => s

/-! ### BASE_INSTALL (R238, R245, R349) -/

/-- Handles of the base tensors. -/
def baseHandles (s : State) : List Nat :=
  (handles s).filter (fun h => (s.tensor h).origin = 2 && (s.tensor h).archive = 0 && !(s.tensor h).fGone)

/-- A source region: a fixed D-tier region. -/
def sourceBad (s : State) (v off : Nat) : Option (Nat × Nat) :=
  match hrefBad s v off with
  | some f => some f
  | none =>
    let t := s.tensor (hrefHandle v)
    if !t.fixed || t.origin ≠ 1 then some (ST_BAD_PARAM, off) else none

/-- BASE_INSTALL: the manifest is read first. -/
def execBaseInstall (ring : Nat) (s : State) : Result :=
  hostCommand 0x27 ring (fun c s =>
    if (baseHandles s).any (fun h => (s.tensor h).binds ≠ 0) then c.done ST_DEVICE_STATE 0 (s.rd LC_STATE) s
    else match sourceBad s (c.p 12 8) 12 with
      | some f => c.done f.1 0 f.2 s
      | none => match (if c.p 20 8 = 0 then none else sourceBad s (c.p 20 8) 20) with
        | some f => c.done f.1 0 f.2 s
        | none =>
          if s.rdB FT_RESTRICTED then c.done ST_FT_WORN 0 (s.rd32 0x220018) s
          else dmaIn c.fn (c.p 28 8) (32 * c.p 36 4) (.command c.seqNo)
            (startRun (c.run (.baseManifest (c.p 36 4))) s)) s

/-- Bytes of the second source; none where it is not named. -/
def source1Bytes (s : State) (r : Running) : Nat :=
  if eb r.entry 20 8 = 0 then 0 else (s.tensor (hrefHandle (eb r.entry 20 8))).elem

/-- Bytes `[off, off + len)` of SOURCE0 followed by SOURCE1. -/
def sourceRead (r : Running) (off len : Nat) (s : State) : Nat × Nat × List Byte × State :=
  let h0 := hrefHandle (eb r.entry 12 8)
  let h1 := hrefHandle (eb r.entry 20 8)
  let n0 := (s.tensor h0).elem
  let one := fun (h o n : Nat) (s : State) =>
    if n = 0 then (RSP_OK, 0, [], s)
    else
      let tg : Target := .handle h false o
      let a := access true (.fn r.fn) tg (.read n) s
      (a.code, (failAddr s (.fn r.fn) tg (.read n) a.at_).toNat, a.data, a.s)
  let a := one h0 off (overlap off (off + len) 0 n0) s
  if rspFails a.1 then a
  else
    let b := one h1 (off - n0) (len - overlap off (off + len) 0 n0) a.2.2.2
    (if !rspFails b.1 && a.1 = RSP_UNWRITTEN then a.1 else b.1, b.2.1, a.2.2.1 ++ b.2.2.1, b.2.2.2)

/-- One tensor of a base manifest, in rows from `row`. -/
def gatherBase (r : Running) (g : Gather) (x : ListEntry × Nat) : Gather :=
  let e := x.1
  if g.fail.isSome then g
  else
    let len := roundUp e.elem 64 + e.scale
    let b := sourceRead r e.place (if e.scale = 0 then e.elem else len) g.s
    if rspFails b.1 then { g with fail := some (b.1, b.2.1), s := b.2.2.2 }
    else
      { g with
        unwr := g.unwr || b.1 = RSP_UNWRITTEN
        rows := g.rows ++ rowsOf r.seqNo x.2 e.elem e.scale b.2.2.1
        parts := g.parts ++ [{ format := e.format, cls := e.cls, elem := e.elem, scale := e.scale, fBase := x.2 * ROW }]
        s := b.2.2.2 }

/-- First rows of copies laid one after the other from row 0. -/
def rowStarts : Nat → List Nat → List Nat
  | _, [] => []
  | r, n :: ns => r :: rowStarts (r + n) ns

/-- Step 2 of R238: the old base is gone. -/
def eraseBase (s : State) : State :=
  let s := s.wr FT_BASE_VALID 0
  let s := (baseHandles s).foldl (fun s h => freeTensor h s) s
  let s := { s with flash := { s.flash with base := [] } }
  (extentsOf s (· = 1)).foldl (fun s e => freeExtent e s) s

/-- Step 4 of R238: the new base is valid and its tensors are registered; answers how many. -/
def registerBase (fs : List FTensor) (s : State) : Nat × State :=
  fs.foldl (fun (acc : Nat × State) f => match registerFTensor f 0 acc.2 with
    | some x => (acc.1 + 1, x.2)
    | none => acc) (0, s)

/-- A command's last row is programmed. -/
def rowsDone (r : Running) (s : State) : State :=
  match r.kind with
  | .archiving _ bytes id =>
    let a := tget s.flash.archives id {}
    let s := { s with flash := { s.flash with archives := tput s.flash.archives id { a with live := true, handles := [] } {} } }
    finishRun r (transferStatus r) bytes id s
  | .installing _ bytes =>
    let fs := s.flash.newBase
    let s := { s with flash := { s.flash with base := fs, newBase := [] } }
    let g := registerBase fs (s.wr FT_BASE_VALID 1)
    commandEpoch s (finishRun r (transferStatus r) bytes g.1 (refreshHeat g.2))
  | _ => s

/-- The manifest of a BASE_INSTALL has arrived: its checks, then steps 2 and 3 of R238. -/
def arriveBaseManifest (r : Running) (data : List Byte) (s : State) : State :=
  match r.kind with
  | .baseManifest n =>
    let es := listEntries data n
    let n0 := (s.tensor (hrefHandle (eb r.entry 12 8))).elem
    let total := n0 + source1Bytes s r
    let len := fun (e : ListEntry) => if e.scale = 0 then e.elem else roundUp e.elem 64 + e.scale
    let rows := es.map (fun e => rowCount (len e))
    let exts := ceilDiv (rows.foldl (· + ·) 0) 512
    match listBad es 28 with
    | some f => finishRun r f.1 0 f.2 s
    | none =>
      if es.any (fun e => e.place % 64 ≠ 0) then finishRun r ST_BAD_PARAM 0 28 s
      else if es.any (fun e => total < e.place + len e) then
        let last := if eb r.entry 20 8 = 0 then hrefHandle (eb r.entry 12 8) else hrefHandle (eb r.entry 20 8)
        finishRun r ST_ADDR_RANGE 0 (presentAddr s (s.tensor last) false (s.tensor last).elem) s
      else if EXTENTS < exts || (List.range exts).any (fun e => 2 ≤ extUse s e) then finishRun r ST_FT_FULL 0 0 s
      else
        let s2 := eraseBase s
        let g := (es.zip (rowStarts 0 rows)).foldl (gatherBase r) { s := s2 }
        match g.fail with
        | some f => commandEpoch s (finishRun r (rspStatus f.1) 0 f.2 g.s)
        | none =>
          let s2 := refreshExtents ((List.range exts).foldl (fun s e => setUse e 1 s) g.s)
          let s2 := { s2 with flash := { s2.flash with rows := s2.flash.rows ++ g.rows, newBase := g.parts } }
          let r := { r with kind := .installing g.rows.length 0, unwritten := g.unwr }
          commandEpoch s (if g.rows = [] then rowsDone r s2 else setRun r s2)
  | _ => s

/-! ### FT_PROGRAM_DONE (R240, R243) -/

/-- One more row of a command has been programmed. -/
def rowDone (bytes : Nat) (r : Running) (s : State) : State :=
  match r.kind with
  | .archiving n done id =>
    let r := { r with kind := .archiving (n - 1) (done + bytes) id }
    if n ≤ 1 then rowsDone r (setRun r s) else setRun r s
  | .installing n done =>
    let r := { r with kind := .installing (n - 1) (done + bytes) }
    if n ≤ 1 then rowsDone r (setRun r s) else setRun r s
  | _ => s

/-- FT_PROGRAM_DONE: the oldest waiting row is programmed with its check chunks, once the blocks of its extent have been
erased; on the channels named the program failed, its block is retired, and the data goes to a free block (R243). -/
def execFtProgramDone (failed : List Nat) (s : State) : Result :=
  match s.flash.rows with
  | [] => .next s
  | w :: rest =>
    let e := w.row / 512
    if !bit (s.rd32 FT_STATUS) 0 || awaitsErase s w.row 1 then .next s
    else
      let bad := (failed.filter (· < 256)).eraseDups
      let s := bad.foldl (fun s c => retireBlock c (blockOf s c e) 2 s) s
      let base := w.row * ROW
      let f := { s.flash with
        rows := rest
        fmem := w.data.foldl (fun m x => tput m (base + x.1) x.2 0#8) (tclear s.flash.fmem base (base + ROW))
        lost := tclear s.flash.lost (base / 4096) ((base + ROW) / 4096) }
      let s := { s with flash := f }
      let s := programmed w.row 1 s
      let s := (s.add64 0x220048 w.bytes).add64 0x220050 (256 * 65536 + 65536 * bad.length)
      match s.host.running.find? (fun r => r.seqNo = w.seqNo) with
      | some r => .next (rowDone w.bytes r s)
      | none => .next s

/-! ### BASE_STAGE (R239, R349) -/

/-- BASE_STAGE. -/
def execBaseStage (ring : Nat) (s : State) : Result :=
  hostCommand 0x28 ring (fun c s =>
    let hs := (baseHandles s).filter (fun h => !(s.tensor h).inN && !(s.tensor h).inD)
    let r := c.run (.baseStaging hs [] 0 none)
    pumpBaseStage r (startRun r s)) s

end Sys2Proof.Machine
end

