-- ==== Sys2Proof/Machine/CmdHull.lean ====
section
/-! DEFINITION. The hull and shell commands (R135, R141, R145, R148, R155–R157, R248–R256, R343–R345). -/

namespace Sys2Proof.Machine

/-! ### HULL_CREATE (R253, R344) -/

/-- Whether a tier request index names an entry of a KIND. -/
def kindAt (rs : List TierReq) (i : Nat) (kinds : List Nat) : Bool :=
  match rs[i]? with | some r => kinds.contains r.kind | none => false

/-- The tests of R344 on the HREFs of the package and of the import list. -/
def createRefs (c : Cmd) (s : State) : Option (Nat × Nat) :=
  match hrefBad s (c.p 12 8) 12 with
  | some f => some f
  | none => if c.p 20 8 = 0 then none else hrefBad s (c.p 20 8) 20

/-- The tests of R344 that need the package's list: the first that fails. -/
def createBad (c : Cmd) (s : State) : Option (Nat × Nat) :=
  let pkg := hrefHandle (c.p 12 8)
  let rs := tierReqs (pkgRead s pkg) (s.tensor pkg).elem
  let kvN := c.p 40 2
  let kvD := c.p 42 2
  let man := c.p 44 2
  let map := c.p 46 2
  if c.p 32 2 < 1 + c.p 34 1 then some (ST_BAD_PARAM, 32)
  else if rs.any (fun r => r.kind = KIND_IMPORT && c.p 28 4 ≤ r.imp) then some (ST_BAD_PARAM, 28)
  else if kvN ≠ 0xFFFF && !kindAt rs kvN [KIND_REGION_N] then some (ST_TIER_MISMATCH, kvN)
  else if kvD ≠ 0xFFFF && !kindAt rs kvD [KIND_REGION_D] then some (ST_TIER_MISMATCH, kvD)
  else if !kindAt rs man [KIND_REGION_N] then some (ST_TIER_MISMATCH, man)
  else if map ≠ 0xFFFF && !(kindAt rs map [KIND_REGION_N, KIND_REGION_D]
      && (match rs[map]? with | some r => 4480 ≤ r.elem | none => false)) then some (ST_TIER_MISMATCH, map)
  else if c.p 36 4 ≠ 0 && kvN = 0xFFFF then some (ST_BAD_PARAM, 40)
  else none

/-- HULL_CREATE (R253, R344). -/
def execHullCreate (ring : Nat) (s : State) : Result :=
  hostCommand 0x10 ring (fun c s0 =>
    match createRefs c s0 with
    | some f => c.done f.1 0 f.2 s0
    | none =>
      let pkg := hrefHandle (c.p 12 8)
      match look (frontRanges (pkgRead s0 pkg) pkg ++ [(hrefHandle (c.p 20 8), 0, 8 * c.p 28 4)]) s0 with
      | (some f, _, s1) => c.done f.1 0 f.2 s1
      | (none, u, s1) => match createBad c s1 with
        | some f => c.done f.1 0 f.2 s1
        | none => commandEpoch s0 (advanceAll (createHull { c.run (.creating 0 0) with unwritten := u } pkg s1))) s

/-! ### HULL_RESIZE (R254, R255) -/

/-- The pods of R251 for a hull's package, its own pods counted free. -/
def resizePods (s : State) (h : Nat) (rd : PkgRead) : Option (Nat × List Nat) :=
  let own := (s.hull h).pods
  choosePods (pkPods rd) (pkShapeW rd) (pkShapeH rd) (Config.choice s.free) (fun p => podFree s p || own.contains p)

/-- Free pods for a resize. -/
def resizeFree (s : State) (h : Nat) : Nat := freePods s + (s.hull h).pods.length

/-- Whether a request of a hull is running, or a step of it is in progress. DESIGN CHOICE (log 196): a step that has been
formed and not yet begun counts, so that SHELL_SELECT answers ST_HULL_BUSY (R141). -/
def hullRuns (s : State) (h : Nat) : Bool :=
  (hullRequests s h).any (fun i => (s.request i).state = REQ_RUNNING) || (s.hull h).step.isSome

/-- A relocation: nothing to do when the pods and the map stay; else the hull drains. DESIGN CHOICE (log 164): a package of
the hull's GRAPH_ID with another POD_COUNT completes with ST_SHELL_MISMATCH and changes nothing; R158 asks for the same
POD_COUNT and names no status. -/
def startRelocation (c : Cmd) (h : Nat) (rd : PkgRead) (unwr : Bool) (s : State) : State :=
  let hl := s.hull h
  if pkPods rd ≠ hl.pods.length then c.done ST_SHELL_MISMATCH 0 0 s
  else match resizePods s h rd with
  | none => c.done ST_NO_PODS 0 (resizeFree s h) s
  | some (stage, ps) =>
    let s := { s with free := s.free + 1 }
    if ps = hl.pods then c.done (if unwr then ST_OK_UNWRITTEN else ST_OK) 0 (hullDetail h hl) s
    else advanceHull h (beginQuiesce h (beginHalt h (powerPods ps (startRun { c.run (.resizing h 0 stage ps) with unwritten := unwr } s))))

/-- A repackaging, after its own tests: the hull halts and its pods are chosen. With too few free pods nothing changes
(R251); a package that fails the checks on its header or its list leaves the hull halted (R253 step 1, R254). -/
def startRepackaging (c : Cmd) (h pkg : Nat) (unwr : Bool) (s : State) : State :=
  let hl := s.hull h
  let rd := pkgRead s pkg
  if pkMulti rd ≠ hl.multi || pkRealtime rd ≠ hl.realtime then c.done ST_SHELL_MISMATCH 0 0 s
  else if hullRuns s h then c.done ST_HULL_BUSY 0 0 s
  else match reqMismatch hl.reqs (tierReqs rd (s.tensor pkg).elem) with
    | some i => c.done ST_TIER_MISMATCH 0 i s
    | none =>
      match frontFail rd (s.tensor pkg).elem with
      | some f => advanceHull h (beginHalt h (startRun (c.run (.resizing h 4 (failDetail [] f) [])) s))
      | none => match resizePods s h rd with
        | none => c.done ST_NO_PODS 0 (resizeFree s h) s
        | some (stage, ps) =>
          let s := { s with free := s.free + 1 }
          advanceHull h (beginHalt h (powerPods ps (startRun { c.run (.resizing h 2 stage ps) with unwritten := unwr } s)))

/-- HULL_RESIZE (R254, R345): a relocation where the package has the GRAPH_ID of the hull's, else a repackaging. -/
def execHullResize (ring : Nat) (s : State) : Result :=
  hostCommand 0x11 ring (fun c s0 =>
    let h := c.hull
    match hullBad s0 h false false true with
    | some f => c.done f.1 0 f.2 s0
    | none =>
      if (runOf s0 h).isSome then c.done ST_HULL_BUSY 0 0 s0
      else match hrefBad s0 (c.p 12 8) 12 with
        | some f => c.done f.1 0 f.2 s0
        | none =>
          let pkg := hrefHandle (c.p 12 8)
          match look (frontRanges (pkgRead s0 pkg) pkg) s0 with
          | (some f, _, s1) => c.done f.1 0 f.2 s1
          | (none, u, s1) =>
            let rd := pkgRead s1 pkg
            let hl := s1.hull h
            if pkGraph rd = hl.graph.toNat && !hl.awaiting then commandEpoch s0 (startRelocation c h rd u s1)
            else commandEpoch s0 (startRepackaging c h pkg u s1)) s

/-! ### HULL_DESTROY, HULL_DRAIN, HULL_RESTORE (R155–R157, R256, R345) -/

/-- Whether a running command drains or restores a hull. -/
def drainRun (h : Nat) (r : Running) : Bool :=
  match r.kind with
  | .draining x => x = h
  | .restoring x => x = h
  | _ => false

/-- HULL_DESTROY (R256). A drain or restore of the hull that is still running finds it gone. -/
def execHullDestroy (ring : Nat) (s : State) : Result :=
  hostCommand 0x12 ring (fun c s0 =>
    let h := c.hull
    match hullBad s0 h true true true with
    | some f => c.done f.1 0 f.2 s0
    | none =>
      let s := finishRuns (drainRun h) ST_NO_SUCH_HULL 0 s0
      let s := s.setHull h { s.hull h with destroying := true }
      commandEpoch s0 (advanceHull h (discardHalted h (beginHalt h (startRun (c.run (.destroying h)) s))))) s

/-- HULL_DRAIN (R155, R345): a hull that has been drained is drained again. -/
def execHullDrain (ring : Nat) (s : State) : Result :=
  hostCommand 0x13 ring (fun c s0 =>
    let h := c.hull
    match hullBad s0 h true true false with
    | some f => c.done f.1 0 f.2 s0
    | none =>
      if (runOf s0 h).isSome then c.done ST_HULL_BUSY 0 0 s0
      else
        let s := s0.setHull h { s0.hull h with drained := false }
        (advanceHull h (beginHalt h (startRun (c.run (.draining h)) s)))) s

/-- HULL_RESTORE (R157, R345). -/
def execHullRestore (ring : Nat) (s : State) : Result :=
  hostCommand 0x14 ring (fun c s0 =>
    let h := c.hull
    match hullBad s0 h false true false with
    | some f => c.done f.1 0 f.2 s0
    | none =>
      let hl := s0.hull h
      if !hl.drained || (runOf s0 h).isSome || hl.pods.any (fun p => s0.rd (POD_STATE p) ≠ POD_HALTED) then
        c.done ST_HULL_BUSY 0 0 s0
      else
        let r := c.run (.restoring h)
        match beginRestore h (startRun r s0) with
        | .inl f => restoreFails r f.1 f.2
        | .inr s => s) s

/-! ### SHELL_LOAD and SHELL_SELECT (R135, R141, R148, R345) -/

/-- The slots that a load may not name. DESIGN CHOICE (log 161): a slot that is LOADING, or that a SHELL_LOAD still waits to
load, is rejected too; R135 neither lists it nor gives a status for it. -/
def slotBusy (s : State) (h slot : Nat) : Bool :=
  slotReserved s h slot || (s.hull h).pods.any (fun p => s.rd (SHL_SLOT p slot) = 1)
    || s.host.running.any (fun r => match r.kind with | .loading x n _ _ => x = h && n = slot | _ => false)

/-- SHELL_LOAD (R135, R145, R148, R345). -/
def execShellLoad (ring : Nat) (s : State) : Result :=
  hostCommand 0x15 ring (fun c s =>
    let h := c.hull
    match hullBad s h false false false with
    | some f => c.done f.1 0 f.2 s
    | none =>
      match hrefBad s (c.p 12 8) 12 with
      | some f => c.done f.1 0 f.2 s
      | none =>
        let pkg := hrefHandle (c.p 12 8)
        match look [(pkg, 0, 64)] s with
        | (some f, _, s) => c.done f.1 0 f.2 s
        | (none, u, s) =>
        let rd := pkgRead s pkg
        let slot := c.p 21 1
        if (runOf s h).isSome then c.done ST_HULL_BUSY 0 0 s
        else if slotBusy s h slot then c.done ST_SHELL_BUSY 0 slot s
        else if pkGraph rd ≠ (s.hull h).graph.toNat || pkPods rd ≠ (s.hull h).pods.length || pkMulti rd ≠ (s.hull h).multi then
          c.done ST_SHELL_MISMATCH 0 0 s
        else if pkConfigs rd ≤ c.p 20 1 then c.done ST_BAD_PARAM 0 20 s
        else nextLoad h (startRun { c.run (.loading h slot (c.p 20 1) pkg) with unwritten := u } s)) s

/-- Whether the ACTIVE shell sets PERSIST on a channel in some tile of a hull. -/
def activePersists (s : State) (h : Nat) : Bool :=
  (s.hull h).pods.any (fun p => (List.range 160).any (fun i =>
    let t := s.tile (p * 160 + i)
    (List.range 16).any (fun q => bit (t.chanEntry t.active q) 30)))

/-- SHELL_SELECT (R141, R345). -/
def execShellSelect (ring : Nat) (s : State) : Result :=
  hostCommand 0x16 ring (fun c s0 =>
    let h := c.hull
    let slot := c.p 12 1
    match hullBad s0 h false false false with
    | some f => c.done f.1 0 f.2 s0
    | none =>
      let hl := s0.hull h
      if hl.pods.any (fun p => s0.rd (POD_STATE p) ≠ POD_LOADED) || hullRuns s0 h || activePersists s0 h then
        c.done ST_HULL_BUSY 0 0 s0
      else if hl.pods.any (fun p => (reachableSlots s0 h slot).any (fun n => s0.rd (SHL_SLOT p n) < 2)) then
        c.done ST_SHELL_NOT_READY 0 slot s0
      else
        let s := s0.setHull h { hl with select := some slot }
        let s := hl.pods.foldl (fun s p => (List.range 160).foldl (fun s i =>
          s.setTile (p * 160 + i) { s.tile (p * 160 + i) with pend := some slot }) s) s
        commandEpoch s0 (c.done ST_OK 0 slot s)) s

end Sys2Proof.Machine
end

