-- ==== Sys2Proof/Machine/CmdSched.lean ====
section
/-! DEFINITION. FENCE, the cyclic-schedule commands and PRIORITY_SET (R219, R222, R260–R263, R327, R354, R355). -/

namespace Sys2Proof.Machine

/-! ### FENCE (R222, R327) -/

/-- FENCE. -/
def execFence (ring : Nat) (s : State) : Result :=
  hostCommand 0x33 ring (fun c s =>
    let r := c.run (.fencing c.seqNo (c.p 12 1 = 1))
    pumpFence r (startRun r s)) s

/-! ### CYCLE_TABLE_WRITE (R260, R354) -/

/-- CYCLE_TABLE_WRITE: its entries are read from host memory. -/
def execCycleTableWrite (ring : Nat) (s : State) : Result :=
  hostCommand 0x40 ring (fun c s =>
    if armPending s then c.done ST_CYCLE_BUSY 0 0 s
    else dmaIn c.fn (c.p 24 8) (16 * c.p 14 2) (.command c.seqNo)
      (startRun (c.run (.cycleSource (c.p 12 2) (c.p 14 2) (c.p 16 1))) s)) s

/-- The entries of a CYCLE_TABLE_WRITE have arrived; those of the selected resources go to the shadow bank. -/
def arriveCycleSource (r : Running) (data : List Byte) (s : State) : State :=
  match r.kind with
  | .cycleSource first count mask =>
    if armPending s then finishRun r ST_CYCLE_BUSY 0 0 s
    else
      let b := shadowBank s
      let s2 := (List.range count).foldl (fun s n => (List.range 4).foldl (fun s q =>
        if bit mask q then
          setCycEntry b (first + n) q (BitVec.ofNat 32 (leNat ((data.drop (16 * n + 4 * q)).take 4))) s
        else s) s) s
      commandEpoch s (finishRun r ST_OK 0 0 s2)
  | _ => s

/-! ### CYCLE_TABLE_ARM (R261, R262) -/

/-- Rule 1: KIND, zero bits, distinct hulls. -/
def entryFormed (e : Word) : Bool :=
  let v := e.toNat
  let k := cycKind e
  if k = 3 then false
  else if k = 1 then
    let n := bits v 2 2 + 1
    let hs := cycHulls e
    (List.range 4).all (fun i => i < n || bits v (4 + 7 * i) 7 = 0) && hs.eraseDups.length = hs.length
  else v < 4

/-- Rule 2: every hull exists, is REALTIME and has not faulted. -/
def entryHullsOk (s : State) (e : Word) : Bool :=
  (cycHulls e).all (fun h => (s.hull h).live && !(s.hull h).destroying && (s.hull h).realtime && (s.hull h).fault.isNone)

/-- The first slot and resource of a bank, slots first, at which a test fails. -/
def firstEntry (s : State) (bank : Nat) (bad : Word → Bool) : Option (Nat × Nat) :=
  (List.range 2048).findSome? (fun k => if bad (cycEntry s bank (k / 4) (k % 4)) then some (k / 4, k % 4) else none)

/-- BACKGROUND slots of a resource in a bank. -/
def bgSlots (s : State) (bank r : Nat) : List Nat :=
  (List.range 512).filter (fun n => cycKind (cycEntry s bank n r) = 2)

/-- Rule 3: the resource whose BACKGROUND entries are not 16 to 40, with the slot reported: the 41st, or 0 where they are
too few. -/
def bgBad (s : State) (bank : Nat) : Option (Nat × Nat) :=
  (List.range 4).findSome? (fun r =>
    let ns := bgSlots s bank r
    if ns.length < 16 then some (0, r) else if 40 < ns.length then some (ns.getD 40 0, r) else none)

/-- Rules 1 to 3 on the shadow bank: DETAIL of the failure. -/
def shadowBad (s : State) : Option Nat :=
  let b := shadowBank s
  let d := fun (x : Nat × Nat) (rule : Nat) => x.1 + x.2 * 2 ^ 9 + rule * 2 ^ 12
  match firstEntry s b (fun e => !entryFormed e) with
  | some x => some (d x 1)
  | none => match firstEntry s b (fun e => !entryHullsOk s e) with
    | some x => some (d x 2)
    | none => (bgBad s b).map (fun x => d x 3)

/-- The declared working set of a hull (R219). -/
def declaredSet (s : State) (h : Nat) : List Nat :=
  let hl := s.hull h
  if hl.realtime then worksetOf hl.reqs hl.handles else []

/-- Hulls that one bank names and the other does not. -/
def namedOnly (s : State) (a b : Nat) : List Nat :=
  (List.range 128).filter (fun h => (s.hull h).live && cycNames s a h && !cycNames s b h)

/-- The pins made for an arm are released. -/
def releasePins (hulls : List Nat) (s : State) : State := hulls.foldl (fun s h => unpinHull h s) s

/-- The first frame boundary at least 100 µs away. -/
def firstFrame (s : State) : Nat := ceilDiv (s.counter.toNat + 100000) 1000000

/-- Validation and pinning are complete: the frame is fixed, or has come too close (R262). -/
def armFrame (r : Running) (frame : Nat) (hulls : List Nat) (s : State) : State :=
  if frame ≠ 0 && frame < firstFrame s then
    finishRun r ST_CYCLE_LATE 0 (firstFrame s) (releasePins hulls s)
  else
    let f := if frame = 0 then firstFrame s else frame
    setRun { r with kind := .cycleArmed f } ((s.wr CYC_ARMED 1).wr64 CYC_ARM_FRAME f)

/-- The pins of an arm go on. -/
def pumpCycle (r : Running) (s : State) : State :=
  match r.kind with
  | .cyclePinning frame hulls hs =>
    let x := pinStep hs (keepPinned hs s)
    match x.1 with
    | some f => finishRun r f.1 0 f.2 (releasePins hulls x.2)
    | none => if pinned hs x.2 then armFrame r frame hulls x.2 else setRun r x.2
  | _ => s

def pumpCycles (s : State) : State := s.host.running.foldl (fun s r => pumpCycle r s) s

/-- CYCLE_TABLE_ARM. -/
def execCycleTableArm (ring : Nat) (s : State) : Result :=
  hostCommand 0x41 ring (fun c s =>
    let frame := c.p 16 8
    if armPending s then c.done ST_CYCLE_BUSY 0 0 s
    else match shadowBad s with
      | some d => c.done ST_CYCLE_INVALID 0 d s
      | none =>
        let hulls := (namedOnly s (shadowBank s) (activeBank s)).filter (fun h => (s.hull h).pinned = [])
        let hs := (hulls.flatMap (declaredSet s)).eraseDups
        if !canPin hs s then c.done ST_NO_ROOM 0 (pinShort hs s) s
        else
          let s := hulls.foldl (fun s h => s.setHull h { s.hull h with pinned := declaredSet s h }) s
          let r := c.run (.cyclePinning frame hulls hs)
          pumpCycle r (startRun r s)) s

/-- The switch at the start of its frame (R260, R262). -/
def switchBank (r : Running) (f : Nat) (s : State) : State :=
  let gone := namedOnly s (activeBank s) (shadowBank s)
  let s2 := ((s.wr CYC_BANK (shadowBank s)).wr CYC_ARMED 0).wr64 CYC_ARM_FRAME 0
  let s2 := refreshCycSlots (s2.addSat CYC_SWITCHES 1)
  commandEpoch s (finishRun r ST_OK 0 f (releasePins gone s2))

/-- The arm whose frame begins. -/
def switchAt (f : Nat) (s : State) : State :=
  match s.host.running.find? (fun r => match r.kind with | .cycleArmed x => x ≤ f | _ => false) with
  | some r => switchBank r f s
  | none => s

/-! ### PRIORITY_SET (R337, R355) -/

/-- PRIORITY_SET. -/
def execPrioritySet (ring : Nat) (s : State) : Result :=
  hostCommand 0x42 ring (fun c s =>
    let n := c.p 12 2
    c.done ST_OK 0 0 (s.setRingAux n { s.ringAux n with priority := c.p 14 1 })) s

end Sys2Proof.Machine
end

