-- ==== Sys2Proof/Machine/Observe.lean ====
section
/-! DEFINITION. Observation: the event recorder's window and copy, the log ring, trace points, telemetry pages and
queue-depth sampling, with their commands (R440–R459). -/

namespace Sys2Proof.Machine

/-- Little-endian block of `n` bytes from fields at byte offsets: (offset, bytes, value). -/
def fieldBytes (n : Nat) (fs : List (Nat × Nat × Nat)) : List Byte := leBytes (packBytes fs) n

/-! ### The recorder (R440–R448) -/

/-- The 128 bytes of a record (R444). -/
def recordBytes (r : Record) : List Byte :=
  fieldBytes 128 [(0, 8, r.stamp.toNat), (8, 2, r.code), (12, 4, r.index), (16, 1, r.devByte),
    (17, 1, match r.hull with | some h => h % 128 + 128 | none => 0),
    (18, 2, match r.tenant with | some t => t % 1024 + 2 ^ 15 | none => 0), (20, 4, r.gen), (32, 96, r.payload.toNat)]

/-- Byte `o` of EVR_WINDOW (R446). -/
def windowByte (s : State) (o : Nat) : Byte :=
  let i := s.rd EVR_CURSOR + o / 128
  if i < s.rd EVR_COUNT && i < 4096 then
    match s.obs.records.find? (fun r => r.index = i) with
    | some r => (recordBytes r).getD (o % 128) 0#8
    | none => 0#8
  else 0#8

/-- The word of EVR_WINDOW at byte `o`. -/
def windowWord (s : State) (o : Nat) : Word :=
  BitVec.ofNat 32 (leNat ((List.range 4).map (fun i => windowByte s (o + i))))

/-- A read of the window's last word advances the cursor with AUTO set, never above 4,064 (R446). -/
def advanceCursor (s : State) : State :=
  if s.rdB EVR_AUTO then s.wr EVR_CURSOR (min 4064 (s.rd EVR_CURSOR + 32)) else s

/-- RECORDER_ARM (R440). -/
def execRecorderArm (ring : Nat) (s : State) : Result :=
  hostCommand 0x60 ring (fun c s => c.done ST_OK 0 0 (s.wr64 EVR_MASK (c.p 12 8))) s

/-- RECORDER_CLEAR (R441); the clear reaches the saved copy at once, so that EVR_GEN counts it for good (R443). -/
def execRecorderClear (ring : Nat) (s : State) : Result :=
  hostCommand 0x61 ring (fun c s => c.done ST_OK 0 0 (clearRecords s)) s

/-- EVENT_PERSIST: Husk copies the records to the F-tier system blocks (R443). -/
def execEventPersist (s : State) : Result :=
  if !s.obs.loaded then .next s
  else .next { s with obs := { s.obs with
    copy := s.obs.records, savedLost := s.rd32 EVR_LOST, savedFirst := BitVec.ofNat 64 (s.rd64 EVR_FIRST_LOST)
    savedGen := s.rd32 EVR_GEN } }

/-! ### Trace points (R453) -/

/-- TRACE_MASK: a run of points is enabled or disabled. -/
def execTraceMask (ring : Nat) (s : State) : Result :=
  hostCommand 0x62 ring (fun c s =>
    c.done ST_OK 0 0 ((List.range (c.p 14 2)).foldl (fun s i => s.wr (TRC_ENABLE (c.p 12 2 + i)) (c.p 16 1)) s)) s

/-! ### The log ring (R449–R451) -/

/-- The 64 bytes of a log entry with its phase. -/
def logBytes (e : LogEntry) (core : Nat) (phase : Bool) : List Byte :=
  fieldBytes 64 [(0, 8, e.stamp.toNat % 2 ^ 63 + b2n phase * 2 ^ 63), (8, 1, e.kind), (9, 1, core % 4), (10, 2, e.id),
    (12, 2, e.seq), (14, 1, e.len), (16, 48, e.body.toNat)]

/-- The entry that is written next: a DROP entry where entries have been dropped, else the oldest that waits (R450). -/
def nextLog (s : State) : Option (LogEntry × State) :=
  if s.obs.dropped ≠ 0 then
    some ({ stamp := s.counter, kind := 2, id := 0, seq := s.obs.logSeq, len := 0, body := BitVec.ofNat 384 s.obs.dropped },
      { s with obs := { s.obs with dropped := 0 } })
  else match s.obs.log with
    | [] => none
    | e :: rest => some (e, { s with obs := { s.obs with log := rest } })

/-- LOG_CTRL.ENABLE set: a ring that was not enabled starts empty (R449). -/
def enableLog (s : State) : State :=
  if s.rdB LOG_ENABLE then s else ((s.wr LOG_HEAD 0).wr LOG_TAIL 0).wr LOG_ENABLE 1

/-- LOG_TAIL: the count that the host reports, by R315's rule for a CQ doorbell, modulo 2,048 (R449). -/
def reportTail (value : Word) (s : State) : State :=
  let w := bits value.toNat 0 11
  let d := (w + 2048 - s.rd LOG_TAIL) % 2048
  let used := (s.rd LOG_HEAD + 2048 - s.rd LOG_TAIL) % 2048
  if d ≤ used then s.wr LOG_TAIL w else s

/-- LOG_ENABLE: a function sets LOG_CTRL.ENABLE; the block is the PF's (R312, R449). -/
def execLogEnable (fn : Nat) (s : State) : Result :=
  overPcie (if fn ≠ 0 then accessViolation fn 0 4 0x602008 true s else enableLog s) s

/-- LOG_TAIL_WRITE (R312, R449). -/
def execLogTailWrite (fn : Nat) (value : Word) (s : State) : Result :=
  overPcie (if fn ≠ 0 then accessViolation fn 0 4 0x602010 true s else reportTail value s) s

/-- LOG_ENTRY_WRITE: Husk writes the next entry to the ring, where it is enabled and has room (R450); a write that fails
clears ENABLE. -/
def execLogEntryWrite (failed : Bool) (s : State) : Result :=
  let k := s.rd LOG_HEAD
  if !s.rdB LOG_ENABLE || 1024 ≤ (k + 2048 - s.rd LOG_TAIL) % 2048 then .next s
  else match nextLog s with
    | none => .next s
    | some (e, s2) =>
      let a := s.rd64 LOG_BASE + 64 * (k % 1024)
      if failed then .next (dmaErrorEvent a 0 1 ((s.raise LOG_STATUS 1).wr LOG_ENABLE 0))
      else
        let f := s2.fresh
        .next (dmaOut 0 a (logBytes e (bits f.1.toNat 0 2) (k < 1024)) (f.2.wr LOG_HEAD ((k + 1) % 2048)))

/-! ### Telemetry (R455) -/

/-- Register bytes from `lo`, `n` of them. -/
def regBytes (s : State) (lo n : Nat) : List Byte := (List.range (n / 4)).flatMap (fun i => leBytes (s.rd32 (lo + 4 * i)) 4)

/-- The hottest sensor's temperature: the greatest signed reading, in 1/16 °C, as 16 bits (R437, R455). -/
def hottest (s : State) : Nat :=
  let m := s.pwr.temps.foldl (fun (b : Option Int) x => match b with
    | some v => some (max v (signed x.2 16))
    | none => some (signed x.2 16)) none
  wrap (m.getD 0) 16

/-- Kind of a sensor (R428, R455): 80 pods, 16 on the meshes, 8 on the base die, 12 stacks, 8 on the D-tier, 4 on the
F-tier, 16 regulators. -/
def sensorKind (n : Nat) : Nat :=
  if n < 80 then 0 else if n < 96 then 1 else if n < 104 then 2 else if n < 116 then 3 else if n < 124 then 4
  else if n < 128 then 5 else 6

/-- BUDGET_QUERY's 32 bytes of a slot (R341). -/
def slotBytes (v : Slot) : List Byte :=
  fieldBytes 32 [(0, 4, v.identity), (4, 4, v.rate), (8, 4, v.burst), (12, 4, v.floor), (16, 8, levelShown v), (24, 8, v.reserved)]

/-- A telemetry page: its size, its entry count and its entries; none for a page that is not listed. -/
def telemetryPage (s : State) (p : Nat) : Option (Nat × Nat × List Byte) :=
  if p = 0 then some (256, 11, regBytes s PWR_INPUT 8 ++ regBytes s GRD_STATUS 4 ++ leBytes (hottest s) 4
    ++ regBytes s DEV_TOKENS 8 ++ regBytes s DEV_STEPS 4 ++ regBytes s HEAT_NT_FREE 8 ++ regBytes s 0x220018 4
    ++ regBytes s FAB_REACH 8 ++ regBytes s TWIN_STATUS 4 ++ regBytes s CYC_FRAME 8)
  else if p = 1 then some (4096, 144, (List.range 144).flatMap (fun n =>
    fieldBytes 16 [(0, 1, n), (1, 1, sensorKind n), (2, 2, tget s.pwr.temps n 0), (4, 4, tget s.pwr.currents n 0)]))
  else if p = 2 then some (4096, 80, (List.range 80).flatMap (fun q =>
    let b := podBlock q
    [b + 4, b + 8, b + 0x5000, b + 0x5004, b + 0x5008, b + 0x38, b + 0x14, b + 0x20].flatMap (fun o => leBytes (s.rd32 o) 4)))
  else if p = 3 then some (4096, 14, (List.range 12).flatMap (fun u => regBytes s (unitBlock false u) 0x40)
    ++ (List.range 2).flatMap (fun u => regBytes s (unitBlock true u) 0x40) ++ regBytes s 0x300000 0x38)
  else if p = 4 then some (8192, 256, regBytes s FT_STATUS 0x58 ++ regBytes s (ftChan 0) 4096)
  else if p = 5 then some (2048, 18, regBytes s (portBlock 0) (18 * 0x40) ++ regBytes s FAB_TIME_STATUS 0x10)
  else if p = 6 then some (32 * 1024 + 64, 1024, (List.range 1024).flatMap (fun t => slotBytes (s.slot t)))
  else none

/-- TELEMETRY_READ. -/
def execTelemetryRead (ring : Nat) (s : State) : Result :=
  hostCommand 0x65 ring (fun c s =>
    match telemetryPage s (c.p 24 1) with
    | none => c.done ST_BAD_PARAM 0 24 s
    | some (size, n, body) =>
      if c.p 20 4 < size then c.done ST_BAD_PARAM 0 20 s
      else
        let hdr := fieldBytes 64 [(0, 8, s.counter.toNat), (8, 1, c.p 24 1), (12, 4, n)]
        let page := (hdr ++ body ++ zeros size).take size
        c.done ST_OK size 0 (dmaOut c.fn (c.p 12 8) page s)) s

/-! ### Queue-depth sampling (R456–R458) -/

/-- SAMPLE_START: a session that runs ends first, and its bytes are this command's PROGRESS. -/
def execSampleStart (ring : Nat) (s : State) : Result :=
  hostCommand 0x63 ring (fun c s =>
    let old := if s.rdB SMP_RUNNING then s.obs.sample.pos else 0
    let s := { s with obs := { s.obs with
      sample := { buf := c.p 12 8, len := c.p 20 4, mask := c.p 28 10, period := c.p 24 4 } } }
    let s := ((s.wr64 SMP_BYTES 0).wr32 SMP_SAMPLES 0).wr SMP_RUNNING 1
    c.done ST_OK old 0 s) s

/-- SAMPLE_STOP. -/
def execSampleStop (ring : Nat) (s : State) : Result :=
  hostCommand 0x64 ring (fun c s =>
    if s.rdB SMP_RUNNING then c.done ST_OK s.obs.sample.pos 0 s.endSampling else c.done ST_OK 0 0 s) s

/-- The channels on which an operation of the tile waits, a bit each: a pop on an empty channel, a push on a full one. -/
def waitingBits (t : Tile) : Nat :=
  let pops := t.waitPop.filter (fun q => (t.chan q).count = 0)
  let pushes := t.waitPush.filter (fun q => chDepth (t.chanEntry t.active q) ≤ (t.chan q).count)
  ((List.range 16).filter (fun q => pops.contains q || pushes.contains q)).foldl (fun n q => n + 2 ^ q) 0

/-- The 24 bytes of a tile in a pod record. -/
def tileSample (t : Tile) : List Byte :=
  let fill := (List.range 16).map (fun q =>
    let e := t.chanEntry t.active q
    BitVec.ofNat 8 (if chMode e = 0 || chDepth e = 0 then 0 else 255 * (t.chan q).count / chDepth e))
  fill ++ leBytes (waitingBits t) 2
    ++ leBytes (t.active % 4 + 4 * b2n (t.seq.phase = 0) + 8 * b2n (t.fault ≠ 0)) 1 ++ zeros 5

/-- A pod record (R458). -/
def podSample (s : State) (p n : Nat) : List Byte :=
  let off : Bool := s.rd (POD_STATE p) = 0
  let b := podBlock p
  let head := if off then fieldBytes 64 [(0, 8, s.counter.toNat), (8, 1, p), (12, 4, n)]
    else fieldBytes 64 [(0, 8, s.counter.toNat), (8, 1, p), (9, 1, s.rd (POD_STATE p)), (10, 1, s.rd32 (b + 8) % 256),
      (11, 1, s.rd (POD_EFF_POINT p)), (12, 4, n), (16, 4, s.rd32 (POD_BANK_STALL p)), (20, 4, s.rd32 (POD_WDOG_COUNT p)),
      (24, 4, s.rd32 (POD_MESH_INJ p)), (28, 4, s.rd32 (POD_MESH_EJ p))]
  if off then head ++ zeros 4032
  else head ++ (List.range 160).flatMap (fun l => tileSample (s.tile (p * 160 + l))) ++ zeros 192

/-- SAMPLE_CAPTURE: the selected pods are captured and written, if the sample fits in the buffer. A sample whose period begins
before the last one is wholly written is skipped and counted (R456, R457). -/
def execSampleCapture (fate : CaptureFate) (s : State) : Result :=
  if !s.rdB SMP_RUNNING then .next s
  else
    let m := s.obs.sample
    let ps := (List.range 80).filter (fun p => bit m.mask p)
    match fate with
    | .skipped => .next (if m.taken = 0 then s else s.addSat SMP_SKIPPED 1)
    | .writeError =>
      .next (if m.len < m.pos + 4096 * ps.length then s.endSampling.raise SMP_STATUS 1
        else dmaErrorEvent (m.buf + m.pos) 0 2 (s.endSampling.raise SMP_STATUS 2))
    | .written =>
      if m.len < m.pos + 4096 * ps.length then .next (s.endSampling.raise SMP_STATUS 1)
      else
        let t := (ps.zip (List.range ps.length)).foldl (fun s x =>
          dmaOut 0 (m.buf + m.pos + 4096 * x.2) (podSample s x.1 m.taken) s) s
        let t := { t with obs := { t.obs with
          sample := { m with pos := m.pos + 4096 * ps.length, taken := m.taken + 1 } } }
        .next ((t.wr64 SMP_BYTES (t.rd64 SMP_BYTES + 4096 * ps.length)).addSat SMP_SAMPLES 1)

end Sys2Proof.Machine
end

