-- ==== Sys2Proof/Machine/Routes.lean ====
section
/-! DEFINITION. Paths through the Nygoham fabric: the port map, the links that devices report, the path chosen to each
destination and its recomputation, the tree of the step counter (R360, R371–R373, R375, R379, R380, R390). -/

namespace Sys2Proof.Machine

/-! ### The port map (R360) -/

def trayOf (d : Nat) : Nat := d / 8
def indexOf (d : Nat) : Nat := d % 8

/-- The committed peer of an auxiliary port: device and port, where one is installed (R371). -/
def auxPeer (s : State) (p : Nat) : Option (Nat × Nat) :=
  let lo := if p = 14 then 8 else 19
  if (p = 14 || p = 15) && bit s.fab.installed (lo + 10) then
    some (bits s.fab.installed lo 6, bits s.fab.installed (lo + 6) 4) else none

/-- The device and port that the map gives a fabric port's link; none where it names none. -/
def mapPeer (s : State) (p : Nat) : Option (Nat × Nat) :=
  let t := trayOf s.ownId
  let i := indexOf s.ownId
  if p ≤ 6 then some (t * 8 + (i + p + 1) % 8, 6 - p)
  else if p ≤ 13 then some ((t + p - 6) % 8 * 8 + i, 20 - p)
  else auxPeer s p

/-- The board port to another index of the tray, and the cable port to another tray. -/
def boardPort (i j : Nat) : Nat := (j + 8 - i - 1) % 8
def cablePort (t u : Nat) : Nat := 6 + (u + 8 - t) % 8

/-! ### Links and reports (R372, R373) -/

/-- Lanes that a port's link carries traffic on. -/
def laneCount (s : State) (p : Nat) : Nat :=
  ((List.range 4).filter (fun l => bit (s.rd (PORT_LANES p)) l)).length

/-- The fabric ports of this device that carry traffic: peer, port, lanes. -/
def ownLinks (s : State) : List (Nat × Nat × Nat) :=
  ((List.range 16).filter (portUp s)).map (fun p => (s.rd (PORT_PEER p), p, laneCount s p))

def reportOf (s : State) (d : Nat) : Option RouteUpdate := s.fab.reports.find? (fun u => u.origin = d)

/-- A device's links, as it last reported them. -/
def linksOf (s : State) (d : Nat) : List (Nat × Nat × Nat) :=
  if d = s.ownId then ownLinks s else match reportOf s d with | some u => u.links | none => []

/-- Lanes of the mapped link from `a` to `b`: auxiliary links lie on ports 14 and 15. -/
def linkLanes (s : State) (a b : Nat) : Option (Nat × Nat) :=
  ((linksOf s a).find? (fun l => l.1 = b && l.2.1 < 14)).map (fun l => (l.2.1, l.2.2))

/-- Whether a device may forward for this one: its slice is ours (R372, R379). -/
def forwards (s : State) (d : Nat) : Bool :=
  match reportOf s d with | some u => u.slice = s.rd FAB_SLICE | none => false

/-- First port, and least lanes, of a path; none where a link is down or a forwarding device has another slice. -/
def pathOf (s : State) : Nat → List Nat → Option (Nat × Nat)
  | _, [] => none
  | a, [b] => linkLanes s a b
  | a, b :: rest =>
    if !forwards s b then none
    else match linkLanes s a b, pathOf s b rest with
      | some x, some y => some (x.1, min x.2 y.2)
      | _, _ => none

/-- Paths to a destination in order of preference, each with its rank (R372). -/
def pathList (own d : Nat) : List (Nat × List Nat) :=
  let t := trayOf own
  let i := indexOf own
  let u := trayOf d
  let j := indexOf d
  let ks := (List.range 8).filter (fun k => k ≠ i && k ≠ j)
  if u = t then
    (1, [d]) :: ks.map (fun k => (2, [t * 8 + k, d]))
      ++ ((List.range 8).filter (fun v => v ≠ t)).map (fun v => (3, [v * 8 + i, v * 8 + j, d]))
  else if j = i then
    (1, [d]) :: ks.map (fun k => (2, [t * 8 + k, u * 8 + k, d]))
  else
    (1, [t * 8 + j, d]) :: (2, [u * 8 + i, d]) :: ks.map (fun k => (3, [t * 8 + k, u * 8 + k, d]))

/-- The auxiliary port whose peer is the destination. -/
def auxPath (s : State) (d : Nat) : Option (Nat × Nat) :=
  ((ownLinks s).find? (fun l => l.1 = d && 14 ≤ l.2.1)).map (fun l => (l.2.1, l.2.2))

/-- The path chosen to a destination: whether it is the preferred one, its devices, first port and lanes. -/
def choosePath (s : State) (d : Nat) : Option (Bool × List Nat × Nat × Nat) :=
  let usable := fun (x : Nat × List Nat) => (pathOf s s.ownId x.2).map (fun r => (decide (x.1 = 1), x.2, r.1, r.2))
  let ps := pathList s.ownId d
  match (ps.filter (fun x => x.1 ≤ 2)).findSome? usable with
  | some r => some r
  | none => match auxPath s d with
    | some a => some (false, [d], a.1, a.2)
    | none => ((ps.filter (fun x => x.1 = 3)).findSome? usable)

/-- Whether a device has ever been seen. -/
def seen (s : State) (d : Nat) : Bool :=
  (reportOf s d).isSome || (List.range 16).any (fun p => portUp s p && s.rd (PORT_PEER p) = d)

/-- The route to a device that is not reached as a second ID (R375). -/
def routeDirect (s : State) (d : Nat) : Route :=
  match choosePath s d with
  | some (pref, path, port, lanes) =>
    let other : Bool := match reportOf s d with | some u => u.slice ≠ s.rd FAB_SLICE | none => false
    { state := if other then 5 else if pref then 1 else 2, links := path.length, port, via := path.dropLast, bw := 28 * lanes }
  | none => { state := if seen s d then 3 else 4 }

/-- The route to a destination ID; an ID that another device answers for takes that device's path (R390). -/
def routeTo (s : State) (d : Nat) : Route :=
  if !s.rdB FAB_VALID then {}
  else if d = s.rd FAB_DEVICE then { state := 0 }
  else if s.rdB FAB_ALIAS_VALID && d = s.rd FAB_ALIAS then { state := 6 }
  else match s.fab.reports.find? (fun u => u.standsFor = some d) with
    | some u => routeDirect s u.origin
    | none => routeDirect s d

/-! ### Recomputation (R373, R380) -/

/-- Tags of this device's requests that are held and not yet sent. -/
def heldTags (s : State) (d : Nat) : List Nat :=
  let own := fun (h : PktHdr) => if h.src = s.ownId then some h.tag else none
  (s.fab.heldOut.filter (fun x => x.1 = d)).filterMap (fun x => match x.2.2 with
    | .request h _ _ _ => own h
    | .queueOpen h _ _ _ => own h
    | .queueEntry h _ _ _ _ => own h
    | .queueCredit h _ _ _ _ => own h
    | _ => none)

/-- Whether a packet sent to a destination still lacks its response. -/
def owesResponse (s : State) (d : Nat) : Bool :=
  s.fab.pending.any (fun p => p.dst = d && !(heldTags s d).contains p.tag)

/-- Whether two routes are the same path. -/
def samePath (a b : Route) : Bool := a.state = b.state && a.port = b.port && a.via == b.via

/-- One destination's path installed, with what a change of path records. -/
def installRoute (s : State) (d : Nat) : State :=
  let old := s.route d
  let new := routeTo s d
  let put := fun (s : State) (r : Route) => { s with fab := { s.fab with routes := tput s.fab.routes d r {} } }
  if samePath old new then put s { new with held := old.held }
  else
    let was : Bool := old.state = 1 || old.state = 2 || old.state = 5
    let s := put s { new with held := old.held || owesResponse s d }
    let s := s.raise FAB_STATUS 1
    let s := if was && new.state = 3 then s.raise FAB_STATUS 2 else s
    let s := fabricTrace d s
    recordEvent 0x0502 none none (payload [(32, 1, d), (33, 1, old.state), (34, 1, new.state), (36, 4, new.bw)]) s

/-- Devices one link from a set. -/
def spread (s : State) (ds : List Nat) : List Nat :=
  (ds ++ ds.flatMap (fun d => (linksOf s d).map (·.1))).eraseDups

/-- Links from a device to the root, up to 64. -/
def distance (s : State) (root d : Nat) : Nat :=
  ((List.range 64).find? (fun n => (iterate (spread s) n [root]).contains d)).getD 64

/-- The parent: the neighbour nearest to the root, by board before cable, then by lowest ID (R380). -/
def parentOf (s : State) (root : Nat) : Nat :=
  let key := fun (l : Nat × Nat × Nat) => distance s root l.1 * 256 + b2n (7 ≤ l.2.1) * 64 + l.1
  ((ownLinks s).foldl (fun (b : Option (Nat × Nat × Nat)) l => match b with
    | some x => if key l < key x then some l else some x
    | none => some l) none).elim 0 (·.1)

def TIME_LOCKED : Fld := ⟨FAB_TIME_STATUS, 0, 1⟩
def TIME_AHEAD : Fld := ⟨FAB_TIME_STATUS, 1, 1⟩
def TIME_ROOT : Fld := ⟨FAB_TIME_STATUS, 8, 1⟩
def TIME_PARENT : Fld := ⟨FAB_TIME_STATUS, 2, 6⟩

/-- Root and parent of the domain's counter (R380). -/
def refreshRoot (s : State) : State :=
  let ids := (List.range 64).filter (fun d => d = s.ownId || reachable s d)
  let root := ids.headD s.ownId
  let s := s.wr ⟨FAB_TIME_STATUS, 10, 6⟩ root
  if root = s.ownId then (s.wr ⟨FAB_TIME_STATUS, 8, 1⟩ 1).wr ⟨FAB_TIME_STATUS, 2, 6⟩ 0
  else (s.wr ⟨FAB_TIME_STATUS, 8, 1⟩ 0).wr ⟨FAB_TIME_STATUS, 2, 6⟩ (parentOf s root)

/-- FAB_REACH: the IDs that this device reaches, its own among them. -/
def refreshReach (s : State) : State :=
  s.wr64 FAB_REACH ((List.range 64).foldl (fun n d =>
    n + b2n (s.rdB FAB_VALID && (d = s.ownId || reachable s d || (s.route d).state = 6)) * 2 ^ d) 0)

/-- A recomputation of every path (R373). -/
def recompute (s : State) : State :=
  let s := (List.range 64).foldl installRoute s
  let s := { s with fab := { s.fab with routeGen := s.fab.routeGen + 1 } }
  refreshRoot (refreshReach (s.addSat FAB_ROUTE_GEN 1))

/-- This device's own report. -/
def ownReport (s : State) : RouteUpdate :=
  { origin := s.ownId, gen := s.fab.updGen, slice := s.rd FAB_SLICE,
    standsFor := if s.rdB FAB_ALIAS_VALID then some (s.rd FAB_ALIAS) else none, links := ownLinks s }

/-- A link of this device changed: a C0 route update floods, and the paths are recomputed (R373). -/
def linksChanged (s : State) : State :=
  if !s.rdB FAB_VALID then s
  else
    let s := { s with fab := { s.fab with updGen := s.fab.updGen + 1 } }
    recompute (flood (.routeUpdate (ownReport s)) s)

end Sys2Proof.Machine
end

