-- ==== Sys2Proof/Machine/Bar.lean ====
section
/-! DEFINITION. Register access over PCIe and the register bus: what each function sees, the halves of 64-bit registers,
the registers whose writes do more than their access codes say, and the companion counters (R15–R19, R82, R312, R313,
R330, R331, R371, R428, R449). -/

namespace Sys2Proof.Machine

/-! ### What a function sees (R17, R312) -/

def inRange (off lo hi : Nat) : Bool := lo ≤ off && off < hi

/-- Whether a word offset of the DEV_ range holds a register (R7–R9, R303, R312, R331). -/
def devDefined (o : Nat) : Bool :=
  o < 0x14 || inRange o 0x40 0x4C || o = 0x80 || inRange o 0x88 0x90 || o = 0x1000 || inRange o 0x1004 0x103C
    || (inRange o 0x2000 0x3000 && o % 0x40 < 0x20) || inRange o 0x8000 0x10100

/-- The N-tier and D-tier blocks and the placement engine's (R228). -/
def tierDefined (o : Nat) : Bool :=
  let r := o % 0x100
  let unit : Bool := r = 0 || inRange r 0x8 0x14 || inRange r 0x18 0x24
  (o < 0x200C00 && unit) || inRange o 0x201000 0x20100C
    || (inRange o 0x210000 0x210200 && (unit || r = 0x14)) || inRange o 0x211000 0x21100C || o = 0x211010

def heatDefined (o : Nat) : Bool :=
  o = 0x300000 || inRange o 0x300008 0x30003C || o = 0x300040 || o = 0x300080 || inRange o 0x3000C0 0x300100

/-- The F-tier block (R247). -/
def flashDefined (o : Nat) : Bool :=
  o = 0x220000 || inRange o 0x220008 0x220058 || o = 0x220100 || o = 0x220108 || o = 0x22010C || inRange o 0x221000 0x222000

/-- The fabric and twin blocks (R395). -/
def fabDefined (o : Nat) : Bool :=
  o = 0x400000 || o = 0x400004 || o = 0x400010 || inRange o 0x400020 0x40002C || o = 0x400030 || o = 0x400034
    || inRange o 0x400100 0x400110 || (inRange o 0x401000 0x401480 && o % 0x40 < 0x2C)
    || o = 0x402000 || inRange o 0x402008 0x402034

/-- The power, guardian, boot and life-cycle blocks (R418, R439). -/
def pwrDefined (o : Nat) : Bool :=
  o = 0x500000 || o = 0x500004 || inRange o 0x500010 0x500028 || o = 0x500030 || inRange o 0x501000 0x50100C
    || inRange o 0x501010 0x501020 || inRange o 0x50F000 0x50F02C

/-- The observability block (R459). -/
def obsDefined (o : Nat) : Bool :=
  inRange o 0x600000 0x60000C || inRange o 0x600010 0x600038 || inRange o 0x601000 0x602000 || inRange o 0x602000 0x60201C
    || inRange o 0x603000 0x603084 || inRange o 0x604000 0x605000 || o = 0x606000 || inRange o 0x606008 0x606018

/-- The cyclic-schedule block (R272). -/
def cycDefined (o : Nat) : Bool :=
  inRange o 0x700000 0x70001C || (inRange o 0x700100 0x700200 && o % 0x40 < 0x18) || inRange o 0x702000 0x706000

/-- Words at which the map of R312 names no register (R17). A pod window's writes are refused whole (R82). -/
def reservedOff (off : Nat) : Bool :=
  if off < 0x100000 then !devDefined off
  else if off < 0x140000 then off % 0x40 = 0x24
  else if off < 0x200000 then true
  else if off < 0x220000 then !tierDefined off
  else if off < 0x300000 then !flashDefined off
  else if off < 0x400000 then !heatDefined off
  else if off < 0x500000 then !fabDefined off
  else if off < 0x600000 then !pwrDefined off
  else if off < 0x700000 then !obsDefined off
  else if off < 0x800000 then !cycDefined off
  else 0xD00000 ≤ off

/-- Ring of a RING_ offset, channel of a bulk-data-port offset, pod of a pod window's. -/
def ringOf (off : Nat) : Nat := (off - 0x100000) / 0x40
def chanOf (off : Nat) : Nat := (off - 0x2000) / 0x40
def windowPod (off : Nat) : Nat := (off - 0x800000) / 0x10000
def isPodWindow (off : Nat) : Bool := inRange off 0x800000 0xD00000
def isRing (off : Nat) : Bool := inRange off 0x100000 0x140000
def isChan (off : Nat) : Bool := inRange off 0x2000 0x3000
def isMsix (off : Nat) : Bool := inRange off 0x8000 0x10000
def isPba (off : Nat) : Bool := inRange off 0x10000 0x10100

/-- Whether the VF column of R312 gives a function a register. -/
def visible (s : State) (fn off : Nat) : Bool :=
  fn = 0 || off < 0x14 || inRange off 0x40 0x4C || isMsix off || isPba off
    || (isChan off && ownsChannel s fn (chanOf off)) || (isRing off && s.rd (RING_OWNER (ringOf off)) = fn)

/-- A write that a function may not make: recorded, but for one to no register (R17, R312). -/
def refuseWrite (fn width off : Nat) (s : State) : State :=
  if reservedOff off then s else accessViolation fn 0 width off true s

/-! ### Reads -/

/-- Word `w` of a function's pending bit array. -/
def pbaWord (s : State) (fn w : Nat) : Word :=
  BitVec.ofNat 32 ((List.range 32).foldl (fun n b =>
    n + b2n (tget s.host.pba (fn * 2048 + 32 * w + b) false) * 2 ^ b) 0)

/-- A word of a schedule table window, in the layout of R259. -/
def cycWord (s : State) (bank w : Nat) : Word := cycEntry s bank (w / 4) (w % 4)

/-- What a function reads at a word of BAR0. -/
def barWord (s : State) (fn off : Nat) : Word :=
  if !visible s fn off then 0#32
  else if off = 0x40 then tget s.host.ctrSel fn 0#32
  else if off = 0x44 then tget s.host.ctrVal fn 0#32
  else if isMsix off then s.msixWord fn ((off - 0x8000) / 16) (off / 4 % 4)
  else if isPba off then pbaWord s fn ((off - 0x10000) / 4)
  else if inRange off 0x601000 0x602000 then windowWord s (off - 0x601000)
  else if inRange off 0x702000 0x704000 then cycWord s (s.rd CYC_BANK) ((off - 0x702000) / 4)
  else if inRange off 0x704000 0x706000 then cycWord s (1 - s.rd CYC_BANK) ((off - 0x704000) / 4)
  else if isPodWindow off && off % 0x10000 < 0x1000 && !domainIsOn s (meshDomain (windowPod off)) then 0#32
  else s.word off

/-- A 32-bit read of a word, with what it changes: the last word of EVR_WINDOW advances the cursor (R446). -/
def barRead (fn off : Nat) (s : State) : Word × State :=
  (barWord s fn off, if visible s fn off && off = 0x601FFC then advanceCursor s else s)

def State.latch (s : State) (fn : Nat) : Latch := tget s.host.latches fn {}
def State.setLatch (s : State) (fn : Nat) (l : Latch) : State :=
  { s with host := { s.host with latches := tput s.host.latches fn l {} } }
def State.buffer (s : State) (fn : Nat) : Latch := tget s.host.buffers fn {}
def State.setBuffer (s : State) (fn : Nat) (l : Latch) : State :=
  { s with host := { s.host with buffers := tput s.host.buffers fn l {} } }

def isLow (off : Nat) : Bool := (regInfo off).half = 1
def isHigh (off : Nat) : Bool := (regInfo off).half = 2

/-- A value returns to the reader. -/
def answerRead (fn off : Nat) (r : Word × State) : State := r.2.emit (.readData fn off (r.1.zeroExtend 64))

/-- A 32-bit read by a function (R18): a low half latches its high half, a high half returns and empties its latch, and a
32-bit register leaves the latch. -/
def read32 (fn off : Nat) (s : State) : State :=
  let l := s.latch fn
  if isLow off then answerRead fn off (barRead fn off (s.setLatch fn { held := true, off, high := barWord s fn (off + 4) }))
  else if isHigh off && l.held && l.off + 4 = off then answerRead fn off (l.high, s.setLatch fn {})
  else answerRead fn off (barRead fn off s)

/-- A whole read of a 64-bit register, which leaves the latch (R18). -/
def read64 (fn off : Nat) (s : State) : State := s.emit (.readData fn off (barWord s fn (off + 4) ++ barWord s fn off))

/-! ### Companion counters (R330) -/

/-- A function's selection: register offset and bit. -/
def ctrOff (s : State) (fn : Nat) : Nat := bits (tget s.host.ctrSel fn 0#32).toNat 0 24
def ctrBit (s : State) (fn : Nat) : Nat := bits (tget s.host.ctrSel fn 0#32).toNat 24 5

/-- Whether the selection names a flag that the function sees. -/
def ctrValid (s : State) (fn : Nat) : Bool := isFlag (ctrOff s fn) (ctrBit s fn) && visible s fn (ctrOff s fn)

/-- The selected counter latched into DEV_CTR_VALUE. -/
def latchCounter (fn : Nat) (s : State) : State :=
  let v : Word := if ctrValid s fn then
    BitVec.ofNat 32 ((s.companionOf (ctrOff s fn) (ctrBit s fn)).toNat + 2 ^ 31) else 0#32
  { s with host := { s.host with ctrVal := tput s.host.ctrVal fn v 0#32 } }

/-- A write of DEV_CTR_SEL. -/
def selectCounter (fn : Nat) (v : Word) (s : State) : State :=
  latchCounter fn { s with host := { s.host with
    ctrSel := tput s.host.ctrSel fn (BitVec.ofNat 32 (bits v.toNat 0 29)) 0#32 } }

/-- DEV_CTR_CTRL.CLEAR; a setting event of the flag in the same cycle stands as the counter's 1. -/
def clearCounter (fn : Nat) (sameCycle : Bool) (s : State) : State :=
  if !bit (tget s.host.ctrVal fn 0#32).toNat 31 then s
  else
    let s := s.setCompanion (ctrOff s fn) (ctrBit s fn) 0
    latchCounter fn (if sameCycle then s.raise (ctrOff s fn) (ctrBit s fn) else s)

/-- DEV_CTR_CTRL.CLEAR_ALL, the PF's. -/
def clearCounters (fn : Nat) (s : State) : State :=
  if fn ≠ 0 then s else { s with host := { s.host with companion := [] } }

/-! ### Registers with behaviour of their own -/

/-- A vector is unmasked: its pending message is sent (R320). -/
def sendPending (fn v : Nat) (s : State) : State :=
  if bit (s.msixWord fn v 3).toNat 0 || !tget s.host.pba (fn * 2048 + v) false then s
  else ({ s with host := { s.host with pba := tput s.host.pba (fn * 2048 + v) false false } }).emit (.msi fn v)

/-- A write of the MSI-X table; of the vector control word only MASK is held. -/
def msixWrite (fn off : Nat) (v : Word) (s : State) : State :=
  let e := (off - 0x8000) / 16
  let w := off / 4 % 4
  let x : Word := if w = 3 then v &&& 1#32 else v
  sendPending fn e { s with host := { s.host with
    msix := tput s.host.msix (fn * 8192 + e * 4 + w) x (if w = 3 then 1 else 0) } }

/-- Whether a ring's base, shadow, size and owner may not change now (R313). -/
def ringLocked (s : State) (n : Nat) : Bool := s.rdB (RING_ENABLE n) || !s.rdB (RING_QUIESCENT n)

def cfgError (n : Nat) (s : State) : State := s.raise (RING_STATUS n) 6

/-- The coalescing rule looked at again when INT_EN or the thresholds change (R320). -/
def recheckInterrupt (n : Nat) (s : State) : State :=
  let c := (s.ringAux n).coalCount
  if s.rdB (RING_INT_EN n) && c ≠ 0 && max 1 (s.rd (RING_COAL_COUNT n)) ≤ c then
    let fn := s.rd (RING_OWNER n)
    let vec := s.rd (RING_VECTOR n)
    signalVector fn vec s
  else s

/-- A valid enable: the counters of both queues at zero, STOPPED clear, the first pass of the CQ (R313, R319). -/
def startRing (n : Nat) (s : State) : State :=
  let s := (((s.wr (RING_SQ_HEAD n) 0).wr (RING_SQ_TAIL n) 0).wr (RING_CQ_HEAD n) 0).wr (RING_CQ_TAIL n) 0
  let s := (s.wr (RING_STOPPED n) 0).wr (RING_ENABLED n) 1
  s.setRingAux n { s.ringAux n with written := 0 }

/-- A write of RING_CFG. One that leaves SIZE_LOG2 as it stands is no write of SIZE_LOG2. -/
def ringCfgWrite (n : Nat) (v : Word) (s : State) : State :=
  let size := bits v.toNat 0 5
  let en := bit v.toNat 8
  if size ≠ s.rd (RING_SIZE n) && ringLocked s n then cfgError n s
  else if en && !s.rdB (RING_ENABLE n)
      && !(4 ≤ size && size ≤ 16 && s.rd64 (RING_SQ_BASE n) % 4096 = 0 && s.rd64 (RING_CQ_BASE n) % 4096 = 0) then
    cfgError n s
  else
    let was := s.rdB (RING_ENABLE n)
    let s := s.swWrite (RING_CFG n) v []
    recheckInterrupt n (if en && !was then startRing n s else s.wrB (RING_ENABLED n) en)

/-- A write of RING_SQ_BASE, RING_CQ_BASE or RING_SHADOW (R313, R317); a shadow that is no multiple of 8 is ignored. -/
def ringWide (off v : Nat) (s : State) : State :=
  if ringLocked s (ringOf off) then cfgError (ringOf off) s
  else if off % 0x40 = 0x10 && v % 8 ≠ 0 then s
  else s.wr64 off v

/-- A write of a 32-bit ring register. -/
def ringWrite (fn off : Nat) (v : Word) (s : State) : State :=
  let n := ringOf off
  let r := off % 0x40
  if r = 0x18 then ringCfgWrite n v s
  else if r = 0x1C then
    (if fn ≠ 0 then s else if ringLocked s n then cfgError n s else s.swWrite off v [])
  else if r = 0x20 then recheckInterrupt n (s.swWrite off v [])
  else s.swWrite off v []

/-- A write of DEV_CXL_WINDOW: the size only while no decoder is committed. -/
def cxlWindowWrite (v : Word) (s : State) : State :=
  let keep := bits (s.rd32 DEV_CXL_WINDOW) 0 11
  s.swWrite DEV_CXL_WINDOW
    (if bit (s.rd32 DEV_CXL_WINDOW) 16 then BitVec.ofNat 32 (setBits v.toNat 0 11 keep) else v) []

/-- A write of HEAT_LOOKUP: the tensor's entry into HEAT_ENTRY, zeros for an invalid handle (R228). -/
def heatLookup (v : Word) (s : State) : State :=
  let s := s.swWrite HEAT_LOOKUP v []
  let t := s.tensor (s.rd32 HEAT_LOOKUP)
  let raw := if t.valid then (tensorRaw t).toNat else 0
  (List.range 16).foldl (fun s i => s.wr32 (HEAT_ENTRY + 4 * i) (bits raw (32 * i) 32)) s

/-- COMMIT: the values are stored, ports that lacked an ID go on to PEER_CHECK, and the paths are those of the new ID (R362,
R371, R373). -/
def commitInstall (s : State) : State :=
  let v := s.rd32 FAB_INSTALL
  let s := { s with fab := { s.fab with installed := setBits v 6 1 1 } }
  let s := (s.wr FAB_DEVICE (bits v 0 6)).wr FAB_VALID 1
  recompute ((List.range 18).foldl (fun s p => if s.rd (PORT_STATE p) = 10 then enterPort p 4 s else s) s)

/-- A write of FAB_INSTALL: in PROVISIONED and MAINTENANCE (R371). -/
def installWrite (fn : Nat) (v : Word) (s : State) : State :=
  if s.rd LC_STATE ≠ 1 && s.rd LC_STATE ≠ 3 then accessViolation fn 0 4 FAB_INSTALL true s
  else
    let s := s.swWrite FAB_INSTALL v []
    if bit v.toNat 6 then commitInstall s else s

/-- A write of LOG_CTRL (R449). -/
def logCtrlWrite (v : Word) (s : State) : State := if bit v.toNat 0 then enableLog s else s.wr LOG_ENABLE 0

/-- A write of DEV_CTR_CTRL (R330). -/
def ctrCtrlWrite (fn : Nat) (v : Word) (s : State) : State :=
  let s := if bit v.toNat 0 then clearCounter fn false s else s
  if bit v.toNat 1 then clearCounters fn s else s

/-- A 32-bit write of a word that is no half of a 64-bit register. -/
def barWrite (fn off : Nat) (v : Word) (s : State) : State :=
  if !visible s fn off || isPodWindow off then refuseWrite fn 4 off s
  else if off = 0x40 then selectCounter fn v s
  else if off = 0x44 then s
  else if off = 0x48 then ctrCtrlWrite fn v s
  else if isMsix off then msixWrite fn off v s
  else if off = DEV_CXL_WINDOW then cxlWindowWrite v s
  else if isChan off && off % 0x40 = 0 && fn ≠ 0 then s
  else if isRing off then ringWrite fn off v s
  else if off = HEAT_LOOKUP then heatLookup v s
  else if off = 0x220100 then selectBlock v s
  else if off = FAB_INSTALL then installWrite fn v s
  else if off = 0x602008 then logCtrlWrite v s
  else if off = 0x602010 then reportTail v s
  else s.swWrite off v []

/-- A write of the 64-bit register at `off`, whole. -/
def barWrite64 (fn off v : Nat) (s : State) : State :=
  if !visible s fn off || isPodWindow off then refuseWrite fn 8 off s
  else if isRing off then (if off % 0x40 < 0x18 then ringWide off v s else s)
  else if off = LOG_BASE then (if s.rdB LOG_ENABLE || v % 4096 ≠ 0 then s else s.wr64 off v)
  else (s.swWrite off (BitVec.ofNat 32 v) []).swWrite (off + 4) (BitVec.ofNat 32 (v / 2 ^ 32)) []

/-- A 32-bit write of a low half: held in the function's write buffer (R18). -/
def lowWrite (fn off : Nat) (v : Word) (s : State) : State :=
  if !visible s fn off || isPodWindow off then refuseWrite fn 4 off s
  else s.setBuffer fn { held := true, off, high := v }

/-- A 32-bit write of a high half: with the low half that the buffer holds, or alone (R18). -/
def highWrite (fn off : Nat) (v : Word) (s : State) : State :=
  let b := s.buffer fn
  if !visible s fn off || isPodWindow off then refuseWrite fn 4 off s
  else if b.held && b.off + 4 = off then
    barWrite64 fn b.off (b.high.toNat + 2 ^ 32 * v.toNat) (s.setBuffer fn {})
  else barWrite64 fn (off - 4) (s.rd32 (off - 4) + 2 ^ 32 * v.toNat) s

/-- A 32-bit write by a function. -/
def write32 (fn off : Nat) (v : Word) (s : State) : State :=
  if isLow off then lowWrite fn off v s else if isHigh off then highWrite fn off v s else barWrite fn off v s

/-- W1C flags that hardware sets in the cycle of a write: the set wins (R16). -/
def setFlags (fs : List (Nat × Nat)) (s : State) : State :=
  fs.foldl (fun s f => if isFlag f.1 f.2 then s.raise f.1 f.2 else s) s

/-- An access of another width or alignment (R19). -/
def badAccess (fn off width : Nat) (write : Bool) (s : State) : State :=
  let s := accessViolation fn 0 width off write s
  if write then s else s.emit (.readData fn off 0)

/-- Husk clears TILE_FAULT or STALL of a pod: the next fault is the one that POD_FAULT_INFO keeps (R77). -/
def faultCleared (off v : Nat) (s : State) : State :=
  let p := windowPod off
  if isPodWindow off && off % 0x10000 = 0x20 && v &&& bits (s.rd32 off) 0 2 ≠ 0 then
    s.setPod p { s.pod p with faultKept := false }
  else s

/-- A route as Husk has written it is the hull's (R193), and its first push opens it anew; a grant still on its way is the
former target's (R377). -/
def noteRoute (p n : Nat) (s : State) : State :=
  let s := s.setPod p { s.pod p with routes := tput (s.pod p).routes n {} {} }
  let s := { s with fab := { s.fab with pending := s.fab.pending.map (fun (x : PendingReq) =>
    if x.use == ReqUse.queueOpen p n then { x with use := .ack } else x) } }
  match s.podOwner p with
  | some h =>
    let hl := s.hull h
    s.setHull h { hl with routes := tput hl.routes (16 * hl.pods.idxOf p + n) (s.rd64 (STR_ROUTE p n)) 0 }
  | none => s

/-- What a write of Husk to a pod's window does beside the registers: INJECT_STOPPED follows INJECT_STOP (R82), the clock
follows REQ_POINT (R424), the W1S bits of the loader and the scan act (R15, R159), and the routes are noted. -/
def huskPod (off v : Nat) (s : State) : State :=
  let p := windowPod off
  let r := off % 0x10000
  if !isPodWindow off then s
  else if r = 0x0 then refreshInjectStopped p s
  else if r = 0x5000 then retarget p s
  else if r = 0x1000 then huskShell p v s
  else if r = 0x1030 then huskScan p v s
  else if inRange r 0x2900 0x2980 then noteRoute p ((r - 0x2900) / 8) s
  else s

/-- A write by Husk over the register bus. A pod's watchdog limit below 16 is held as 16 (R82); the guardian's limits do
not rise above their fuses, and the pods follow them (R424, R428). -/
def huskWrite (off : Nat) (v : Word) (s : State) : State :=
  let v' : Nat := if isPodWindow off && off % 0x10000 = 0x10 then max 16 (bits v.toNat 0 5) else v.toNat
  if off = 0x501008 then
    let f := s.rd32 0x501004
    let s := s.wr32 off (min (bits v' 0 4) (bits f 0 4) + min (bits v' 8 8) (bits f 8 8) * 2 ^ 8 + bits f 16 8 * 2 ^ 16)
    (List.range 80).foldl (fun s p => retarget p s) s
  else huskPod off v' ((faultCleared off v' s).swWrite off (BitVec.ofNat 32 v') [])

/-! ### The rows -/

/-- BAR0_LOW_HALF_READ: the high half is latched; a read 64 bits wide returns the whole register (R18). -/
def execBar0LowHalfRead (fn : Nat) (read : BarRead) (s : State) : Result :=
  overPcie (match read with
    | .whole off => if isLow off then read64 fn off s else badAccess fn off 8 false s
    | .half off => if off % 4 ≠ 0 then badAccess fn off 4 false s else read32 fn off s) s

/-- BAR0_HIGH_HALF_READ: the latched half, which empties the latch, or the present one (R18). -/
def execBar0HighHalfRead (fn off : Nat) (s : State) : Result :=
  overPcie (if off % 4 ≠ 0 then badAccess fn off 4 false s else read32 fn off s) s

/-- BAR0_LOW_HALF_WRITE (R18). -/
def execBar0LowHalfWrite (fn off : Nat) (value : Word) (s : State) : Result :=
  overPcie (if off % 4 ≠ 0 then badAccess fn off 4 true s
    else if isLow off then lowWrite fn off value s else write32 fn off value s) s

/-- BAR0_HIGH_HALF_WRITE (R18). -/
def execBar0HighHalfWrite (fn off : Nat) (value : Word) (s : State) : Result :=
  overPcie (if off % 4 ≠ 0 then badAccess fn off 4 true s
    else if isHigh off then highWrite fn off value s else write32 fn off value s) s

/-- An access that R18 provides for: an aligned 32-bit one, or an aligned 64-bit one of a 64-bit register. -/
def goodAccess (off width : Nat) : Bool := (width = 4 && off % 4 = 0) || (width = 8 && isLow off)

/-- BAR0_BAD_ACCESS (R19). -/
def execBar0BadAccess (fn off width : Nat) (write : Bool) (s : State) : Result :=
  overPcie (if goodAccess off width then s else badAccess fn off width write s) s

/-- A DEV_CTR_CTRL.CLEAR in whose cycle the selected flag's event falls: the counter's value of 1 is latched (R330). -/
def relatch (agent : Agent) (off : Nat) (wide : Bool) (value : DWord) (setNow : List (Nat × Nat)) (s t : State) : State :=
  match agent with
  | .husk => t
  | .pcie fn =>
    if off = 0x48 && !wide && bit value.toNat 0 && bit (tget s.host.ctrVal fn 0#32).toNat 31
        && setNow.contains (ctrOff s fn, ctrBit s fn) then latchCounter fn t else t

/-- REGISTER_WRITE: under the register's access codes (R15, R18), by a function or by Husk. -/
def execRegisterWrite (agent : Agent) (off : Nat) (wide : Bool) (value : DWord) (setNow : List (Nat × Nat))
    (s : State) : Result :=
  let lo : Word := value.truncate 32
  let hi : Word := (value >>> 32).truncate 32
  let t := fun (x : State) => relatch agent off wide value setNow s (setFlags setNow x)
  match agent with
  | .husk => .next (t (if wide then huskWrite (off + 4) hi (huskWrite off lo s) else huskWrite off lo s))
  | .pcie fn =>
    overPcie (t (if wide then (if isLow off then barWrite64 fn off value.toNat s else badAccess fn off 8 true s)
      else if off % 4 ≠ 0 then badAccess fn off 4 true s
      else write32 fn off lo s)) s

/-- DEV_CTR_SEL_WRITE (R330). -/
def execDevCtrSelWrite (fn : Nat) (value : Word) (s : State) : Result := overPcie (selectCounter fn value s) s

/-- COUNTER_CLEAR (R330). -/
def execCounterClear (fn : Nat) (sameCycle : Bool) (s : State) : Result := overPcie (clearCounter fn sameCycle s) s

/-- COUNTER_CLEAR_ALL (R330). -/
def execCounterClearAll (fn : Nat) (s : State) : Result := overPcie (clearCounters fn s) s

/-- HEAT_LOOKUP_WRITE (R228, R312). -/
def execHeatLookupWrite (fn : Nat) (value : Word) (s : State) : Result :=
  overPcie (if fn ≠ 0 then refuseWrite fn 4 HEAT_LOOKUP s else heatLookup value s) s

/-- FT_BLK_SEL_WRITE (R247, R312). -/
def execFtBlkSelWrite (fn : Nat) (value : Word) (s : State) : Result :=
  overPcie (if fn ≠ 0 then refuseWrite fn 4 0x220100 s else selectBlock value s) s

/-- FAB_INSTALL_COMMIT: a write of FAB_INSTALL with COMMIT set (R312, R371). -/
def execFabInstallCommit (fn : Nat) (value : Word) (s : State) : Result :=
  overPcie (if fn ≠ 0 then refuseWrite fn 4 FAB_INSTALL s
    else installWrite fn (BitVec.ofNat 32 (setBits value.toNat 6 1 1)) s) s

/-- EVR_WINDOW_AUTO_READ: a read of the window's last word (R446). -/
def execEvrWindowAutoRead (fn : Nat) (s : State) : Result :=
  overPcie (answerRead fn 0x601FFC (barRead fn 0x601FFC s)) s

/-- MSIX_VECTOR_UNMASK: the vector's mask bit clears, and a pending message is sent (R320). -/
def execMsixVectorUnmask (fn vector : Nat) (s : State) : Result :=
  overPcie (if 2048 ≤ vector then s else msixWrite fn (0x8000 + 16 * vector + 12) 0#32 s) s

end Sys2Proof.Machine
end

