-- ==== Sys2Proof/Machine/CmdDevice.lean ====
section
/-! DEFINITION. The device, tenant, budget and request commands (R273–R276, R286–R290, R301, R340–R342, R350–R352,
R409–R411). -/

namespace Sys2Proof.Machine

/-- NOP (R340). -/
def execNop (ring : Nat) (s : State) : Result := hostCommand 0x00 ring (fun c s => c.done ST_OK 0 0 s) s

/-! ### HELLO (R341, R404, R409–R411) -/

/-- BUILD of the running image. -/
def runningBuild (s : State) : Nat := s.rd32 (fwSlot (s.rd BOOT_SLOT))

/-- DETAIL of HELLO for a driver's version (R341). -/
def helloDetail (s : State) (minor : Nat) : Nat :=
  let v := s.rd32 DEV_IFVER
  bits v 0 8 + bits v 8 8 * 2 ^ 8 + min minor (bits v 0 8) * 2 ^ 16 + s.rd LC_STATE * 2 ^ 24 + runningBuild s * 2 ^ 32

/-- A FIRMWARE event (R445). -/
def firmwareEvent (confirmed : Bool) (s : State) : State :=
  recordEvent 0x0803 none none (payload [(32, 1, s.rd BOOT_SLOT),
    (33, 1, bits (s.rd32 PWR_BOOT_STATUS) 13 2 + 4 * b2n confirmed), (36, 4, runningBuild s)]) s

/-- The running TRIAL image becomes CONFIRMED, and the fuses record its SVN and its revocations (R404). -/
def confirmImage (s : State) : State :=
  if !s.rdB BOOT_TRIAL then s
  else
    let n := s.rd BOOT_SLOT
    let im := tget s.boot.images n {}
    let keys := s.rd KEY_REVOKED ||| (im.revoke - (im.revoke &&& 2 ^ im.keyIndex))
    let s := ((s.wr (FW_CONFIRMED n) 1).wr BOOT_TRIAL 0).wr MIN_SVN (max (s.rd MIN_SVN) (s.rd (FW_SVN n)))
    firmwareEvent true (s.wr KEY_REVOKED keys)

/-- The device enters PARKED, and each hull halts at its next step boundary (R389, R411). -/
def parkDevice (s : State) : State :=
  let s := (s.wr BOOT_PARKED 1).wr BOOT_PHASE 8
  ((tkeys s.srv.hulls).filter (fun h => (s.hull h).live)).foldl (fun s h =>
    let s := beginHalt h s
    if atRest (s.hull h) then afterBoundary h s else s) s

/-- A successful HELLO of a function. -/
def helloOk (fn minor : Nat) (s : State) : State :=
  let agreed := min minor (bits (s.rd32 DEV_IFVER) 0 8)
  let s := { s with host := { s.host with hello := tput s.host.hello fn { done := true, minor := agreed } {} } }
  if fn = 0 then confirmImage (s.wr HELLO_DONE 1) else s

/-- HELLO (R341, R409, R410). -/
def execHello (ring : Nat) (s : State) : Result :=
  hostCommand 0x01 ring (fun c s =>
    let ver := c.p 12 2
    let minor := bits ver 0 8
    let s := logGenerate 3 0 0 (BitVec.ofNat 384 (packBytes [(0, 1, c.fn), (1, 2, ver), (8, 8, c.p 16 8)])) s
    let d := helloDetail s minor
    if s.boot.recovery || s.boot.helloPark then c.done ST_INCOMPATIBLE 0 d s
    else if c.fn ≠ 0 && !(tget s.host.hello 0 {}).done then c.done ST_DEVICE_STATE 0 (s.rd LC_STATE) s
    else if bits ver 8 8 = bits (s.rd32 DEV_IFVER) 8 8 then c.done ST_OK 0 d (helloOk c.fn minor s)
    else if c.fn ≠ 0 then c.done ST_INCOMPATIBLE 0 d s
    else c.done ST_INCOMPATIBLE 0 d (parkDevice { s with boot := { s.boot with helloPark := true } })) s

/-! ### QUERY_DEVICE (R342) -/

/-- Little-endian block of `n` bytes from fields at byte offsets. -/
def block (n : Nat) (fs : List (Nat × Nat × Nat)) : List Byte := leBytes (packBytes fs) n

/-- Twin state of the device block: 1 = active, 2 = standby, from the forming of a pair until a disarm or a reset, so in LOST,
PARKED and TAKING_OVER too (R342, R384, R391, R393). -/
def twinRole (s : State) : Nat := if s.rd TWIN_STATE < 2 then 0 else if s.rdB TWIN_ACTIVE then 1 else 2

/-- A pod's byte of the device block. -/
def podByte (s : State) (p : Nat) : Nat :=
  if s.rdB (POD_ASSIGNED p) then s.rd (POD_HULL p) else if s.rd (POD_STATE p) = POD_OFF then 0xFF else 0xFE

/-- F-tier space size (R232). -/
def F_SPACE : Nat := 57998701494272

def deviceBlock (s : State) : List Byte :=
  block 256 ([(0, 4, s.rd32 0x0), (4, 4, s.rd32 DEV_IFVER), (8, 8, s.rd64 0x8), (16, 1, s.deviceByte),
    (17, 1, s.rd FAB_SLICE), (18, 1, s.rd LC_STATE), (19, 1, twinRole s), (20, 1, freePods s),
    (21, 1, ((List.range 128).filter (fun h => !(s.hull h).live && (s.hull h).pods = [])).length),
    (22, 2, 1024 - (boundSlots s).length), (24, 8, F_SPACE), (32, 8, s.rd64 HEAT_NT_FREE),
    (40, 8, s.rd64 (HEAT_DT_FREE 0) + s.rd64 (HEAT_DT_FREE 1)), (48, 4, s.rd HEAT_HANDLES_FREE),
    (52, 4, (liveIdx s).length), (56, 8, s.counter.toNat)] ++ (List.range 80).map (fun p => (64 + p, 1, podByte s p)))

/-- State of a hull as QUERY_DEVICE reports it. -/
def hullState (s : State) (hl : Hull) : Nat :=
  if hl.fault.isSome then 2 else if hl.awaiting then 3
  else if s.rd (POD_STATE (hl.pods.headD 0)) = POD_HALTED || s.rd (POD_STATE (hl.pods.headD 0)) = POD_SCANNING then 1 else 0

def hullBlock (s : State) (h : Nat) : List Byte :=
  let hl := s.hull h
  block 256 ([(0, 1, h), (1, 1, hl.pods.length), (2, 1, hullState s hl),
    (3, 1, s.rd32 (podBlock (hl.pods.headD 0) + 0x1010)), (4, 2, hl.rows), (6, 1, hl.sprouts),
    (7, 1, b2n hl.compat + 2 * b2n hl.multi + 4 * b2n hl.realtime + 8 * b2n (hl.devIndex = 0)), (8, 8, hl.graph.toNat),
    (16, 8, hl.committed), (24, 8, hl.lastStart.toNat)]
    ++ (List.range 80).map (fun l => (32 + l, 1, hl.pods.getD l 0xFF)))

/-- QUERY_DEVICE (R341, R342). -/
def execQueryDevice (ring : Nat) (s : State) : Result :=
  hostCommand 0x02 ring (fun c s =>
    let put := fun (bs : List Byte) => c.done ST_OK bs.length 0 (dmaOut c.fn (c.p 12 8) bs s)
    if c.p 24 1 = 0 then put (deviceBlock s)
    else if c.p 24 1 = 1 then
      match hrefBad s (c.p 28 8) 28 with
      | some f => c.done f.1 0 f.2 s
      | none => put (leBytes (tensorRaw (s.tensor (hrefHandle (c.p 28 8)))).toNat 64)
    else if !(s.hull c.hull).live || (s.hull c.hull).destroying then c.done ST_NO_SUCH_HULL 0 0 s
    else put (hullBlock s c.hull)) s

/-- QUERY_REQUEST (R274, R341). -/
def execQueryRequest (ring : Nat) (s : State) : Result :=
  hostCommand 0x03 ring (fun c s =>
    if s.srv.elsewhere.contains (c.p 12 2, c.p 14 2) then c.done ST_HULL_NOT_LEAD 0 0 s
    else match findRequest s (c.p 12 2) (c.p 14 2) with
    | none => c.done ST_NO_SUCH_REQUEST 0 0 s
    | some i =>
      let q := s.request i
      let raw := if isLive q then zeros 32 else leBytes q.finalRaw.toNat 32
      let s := if c.p 16 8 = 0 then s else dmaOut c.fn (c.p 16 8) raw s
      completeAt c.ring c.e ST_OK q.progress q.stepVal.toNat
        (requestDetail q + q.state * 2 ^ 8 + b2n q.paused * 2 ^ 11) s) s

/-! ### Tenants and budgets (R286, R288, R341) -/

/-- The lowest free tenant slot. -/
def freeSlot (s : State) : Option Nat := (List.range 1024).find? (fun t => !(s.slot t).bound)

/-- TENANT_BIND (R286). -/
def execTenantBind (ring : Nat) (s : State) : Result :=
  hostCommand 0x04 ring (fun c s0 =>
    let id := c.p 12 4
    match (boundSlots s0).find? (fun t => (s0.slot t).identity = id) with
    | some t => c.done ST_OK 0 (t + 2 ^ 16) s0
    | none => match freeSlot s0 with
      | none => c.done ST_NO_TENANT_SLOT 0 0 s0
      | some t => commandEpoch s0 (c.done ST_OK 0 t (s0.setSlot t
          { bound := true, identity := id, owner := c.fn, since := s0.sched.frame }))) s

/-- TENANT_UNBIND (R286, R341). -/
def execTenantUnbind (ring : Nat) (s : State) : Result :=
  hostCommand 0x05 ring (fun c s0 =>
    let t := c.tenant
    if !(s0.slot t).bound then c.done ST_TENANT_UNBOUND 0 0 s0
    else
      let n := (slotRequests s0 t).length
      if n ≠ 0 || (handles s0).any (fun h => (s0.tensor h).bound && (s0.tensor h).tenant = t) then
        c.done ST_TENANT_BUSY 0 n s0
      else commandEpoch s0 (c.done ST_OK 0 0 (s0.setSlot t {}))) s

/-- A slot with new budget parameters (R288). -/
def budgetSlot (v : Slot) (rate burst floor frame : Nat) : Slot :=
  { v with rate, burst, floor, level := max (min (levelShown v) (burst * 1000)) v.reserved,
           since := if floor = v.floor then v.since else frame }

/-- BUDGET_SET (R286, R288, R341). -/
def execBudgetSet (ring : Nat) (s : State) : Result :=
  hostCommand 0x06 ring (fun c s0 =>
    let v := s0.slot c.tenant
    if !v.bound then c.done ST_TENANT_UNBOUND 0 0 s0
    else commandEpoch s0 (formAll (c.done ST_OK 0 0 (s0.setSlot c.tenant
      (budgetSlot v (c.p 12 4) (c.p 16 4) (c.p 20 4) s0.sched.frame))))) s

/-- The 32 bytes of a slot's budget (R341). -/
def budgetBlock (v : Slot) : List Byte :=
  block 32 [(0, 4, v.identity), (4, 4, v.rate), (8, 4, v.burst), (12, 4, v.floor), (16, 8, levelShown v), (24, 8, v.reserved)]

/-- BUDGET_QUERY (R341). -/
def execBudgetQuery (ring : Nat) (s : State) : Result :=
  hostCommand 0x07 ring (fun c s =>
    let v := s.slot c.tenant
    if !v.bound then c.done ST_TENANT_UNBOUND 0 0 s
    else
      let s := if c.p 12 8 = 0 then s else dmaOut c.fn (c.p 12 8) (budgetBlock v) s
      c.done ST_OK (levelShown v) v.reserved s) s

/-! ### Requests (R274, R289, R290, R301, R350) -/

/-- The largest number of positions of a GENERATE (R289). -/
def MAX_POSITIONS : Nat := 1048576

/-- The parameters of a request that break a range, the lowest first (R289 check 3, R350). -/
def requestBad (c : Cmd) (hl : Hull) : Option Nat :=
  if entryOpcode c.e = 0x30 then
    firstBad [need 20 (c.p 20 4 ≤ 65536 * c.p 36 2 || c.p 36 2 = 0), need 36 (1 ≤ c.p 36 2 && c.p 36 2 ≤ hl.rows)]
  else
    firstBad ([need 10 (hl.kvb ≠ 0), need 20 (1 ≤ c.p 20 4 && c.p 20 4 + c.p 32 4 ≤ MAX_POSITIONS),
      need 32 (1 ≤ c.p 32 4), need 36 (c.p 36 1 ≤ hl.sprouts), need 37 (c.p 37 1 ≤ 4)]
      ++ (List.range 4).map (fun i => need (40 + 4 * i) (i < c.p 37 1 || c.p (40 + 4 * i) 4 = 0)))

/-- Checks 1 to 4 of R289, after the test of R333 on the pair. -/
def admitBad (c : Cmd) (s : State) : Option (Nat × Nat) :=
  let hl := s.hull c.hull
  let pairLive := match findRequest s c.ring (entrySeq c.e) with | some i => isLive (s.request i) | none => false
  if pairLive then some (ST_SEQ_IN_USE, 0)
  else if !hl.live || hl.destroying then some (ST_NO_SUCH_HULL, 0)
  else match hl.fault with
    | some rec => some (ST_HULL_FAULTED, rec.toNat)
    | none =>
      if hl.devIndex ≠ 0 then some (ST_HULL_NOT_LEAD, 0)
      else if isDrained s c.hull || hl.awaiting then some (ST_HULL_BUSY, 0)
      else if !(s.slot c.tenant).bound then some (ST_TENANT_UNBOUND, 0)
      else match requestBad c hl with
        | some o => some (ST_BAD_PARAM, o)
        | none => if (freeEntry s).isNone then some (ST_NO_REQUEST_SLOT, 0) else none

/-- A request enters the table, is admitted or ends at check 5 of R289, and the hull forms a step if it can. -/
def enterRequest (c : Cmd) (i : Nat) (s : State) : State :=
  let q : Request := {
    used := true, ring := c.ring, fn := c.fn, entry := c.e, seqNo := c.seqNo, hull := c.hull, tenant := c.tenant,
    gen := entryOpcode c.e = 0x31, order := c.seqNo }
  let hl := s.hull c.hull
  let s := { s with srv := { s.srv with elsewhere := s.srv.elsewhere.filter (· ≠ (c.ring, entrySeq c.e)) } }
  let s := refreshLive (s.setRequest i q)
  let p := kvPools s hl
  let f := kvFootprint hl q
  if p.1 + p.2 < f then endRequest i REQ_FAILED ST_NO_ROOM (mib (f - (p.1 + p.2))) s
  else formStep c.hull (admitAll c.hull s)

/-- What a request turned away leaves behind: REQ_TABLE_FULL where the table is full (R303), and a note of a request that
belongs to another device's hull. DEDUCED (log 115): CANCEL and QUERY_REQUEST name a ring and a SEQ and no hull, so that such
a note is how this device knows that it does not lead theirs (R276). -/
def noteRefusal (c : Cmd) (status : Nat) (s : State) : State :=
  let k := (c.ring, entrySeq c.e)
  if status = ST_NO_REQUEST_SLOT then s.raise DEV_SRV_STATUS 0
  else if status = ST_HULL_NOT_LEAD then
    { s with srv := { s.srv with elsewhere := s.srv.elsewhere.filter (· ≠ k) ++ [k] } }
  else s

/-- The shared part of RUN_GRAPH and GENERATE (R289, R350). -/
def submitRequest (c : Cmd) (s : State) : State :=
  match admitBad c s with
  | some f => c.done f.1 0 f.2 (noteRefusal c f.1 s)
  | none => match freeEntry s with
    | none => c.done ST_NO_REQUEST_SLOT 0 0 s
    | some i => commandEpoch s (enterRequest c i s)

/-- RUN_GRAPH (R273, R289, R350). -/
def execRunGraph (ring : Nat) (s : State) : Result := hostCommand 0x30 ring submitRequest s

/-- GENERATE (R273, R289, R350). -/
def execGenerate (ring : Nat) (s : State) : Result := hostCommand 0x31 ring submitRequest s

/-- Whether a request has a segment in the step in progress, or in one that is formed. -/
def inStep (s : State) (i : Nat) : Bool :=
  match (s.hull (s.request i).hull).step with
  | some st => st.segs.any (fun g => g.req = i)
  | none => false

/-- CANCEL (R301, R351): at once, or at the boundary of the step that the request has a part in. -/
def execCancel (ring : Nat) (s : State) : Result :=
  hostCommand 0x32 ring (fun c s0 =>
    if s0.srv.elsewhere.contains (c.p 12 2, c.p 14 2) then c.done ST_HULL_NOT_LEAD 0 0 s0
    else match findRequest s0 (c.p 12 2) (c.p 14 2) with
    | none => c.done ST_NOTHING_TO_CANCEL 0 0 s0
    | some i =>
      if !isLive (s0.request i) then c.done ST_NOTHING_TO_CANCEL 0 0 s0
      else if inStep s0 i then
        startRun (c.run (.cancelling i)) (s0.setRequest i { s0.request i with cancel := true })
      else
        let h := (s0.request i).hull
        commandEpoch s0 (formStep h (admitAll h (c.done ST_OK 0 0 (cancelRequest i s0))))) s

end Sys2Proof.Machine
end

