-- ==== Sys2Proof/Machine/Host.lean ====
section
/-! DEFINITION. The host interface: doorbells, ring fetches, interrupts by timer, function level resets, SR-IOV and the link,
and the CXL.mem window (R304–R310, R313–R323). -/

namespace Sys2Proof.Machine

/-! ### Doorbells (R315) -/

/-- A doorbell that is discarded and recorded: BAR4, page of the ring. -/
def badDoorbell (fn ring width off : Nat) (s : State) : State := accessViolation fn 4 width (ring * 0x1000 + off) true s

/-- Whether a doorbell write has its effect: the owner's, 32 bits wide, on an enabled ring. -/
def doorbellOk (s : State) (fn ring width : Nat) : Bool :=
  width = 4 && s.rd (RING_OWNER ring) = fn && s.rdB (RING_ENABLE ring)

/-- An SQ doorbell of value `v` (R315). -/
def sqBell (ring v : Nat) (s : State) : State :=
  let n := ringSize s ring
  let d := (v + 2 * n - s.rd (RING_SQ_TAIL ring)) % (2 * n)
  if 2 * n ≤ v then s.raise (RING_STATUS ring) 4
  else if d = 0 || n < d then s
  else if (v + 2 * n - s.rd (RING_SQ_HEAD ring)) % (2 * n) ≤ n then s.wr (RING_SQ_TAIL ring) v
  else s.raise (RING_STATUS ring) 4

/-- A CQ doorbell of value `w` (R315). -/
def cqBell (ring w : Nat) (s : State) : State :=
  let n := ringSize s ring
  let d := (w + 2 * n - s.rd (RING_CQ_HEAD ring)) % (2 * n)
  if 2 * n ≤ w then s.raise (RING_STATUS ring) 5
  else if d ≤ (s.rd (RING_CQ_TAIL ring) + 2 * n - s.rd (RING_CQ_HEAD ring)) % (2 * n) then s.wr (RING_CQ_HEAD ring) w
  else if n < d then s
  else s.raise (RING_STATUS ring) 5

/-- An access to a ring's page: a write at `bell` rings, one elsewhere is discarded and recorded, a read returns zero. -/
def bellPage (fn ring off : Nat) (a : BellAccess) (s : State) : State :=
  if 4096 ≤ ring then s
  else match a with
    | .read _ => s.emit (.readData fn (ring * 0x1000 + off) 0)
    | .write width value =>
      if !doorbellOk s fn ring width then badDoorbell fn ring width off s
      else if off = 0 then sqBell ring (bits value.toNat 0 17) s
      else if off = 4 then cqBell ring (bits value.toNat 0 17) s
      else badDoorbell fn ring width off s

/-- SQ_DOORBELL: offset 0 of the page (R315). -/
def execSqDoorbell (fn ring off : Nat) (access : BellAccess) (s : State) : Result :=
  overPcie (bellPage fn ring off access s) s

/-- CQ_DOORBELL: offset 4 of the page (R315). -/
def execCqDoorbell (fn ring off : Nat) (access : BellAccess) (s : State) : Result :=
  overPcie (bellPage fn ring off access s) s

/-! ### Rings (R313, R314, R316, R317) -/

/-- A function's write of RING_CFG with ENABLE at the value given. -/
def ringSwitch (fn ring : Nat) (en : Bool) (value : Word) (s : State) : State :=
  if 4096 ≤ ring then s
  else barWrite fn (RING_CFG ring) (BitVec.ofNat 32 (setBits value.toNat 8 1 (b2n en))) s

/-- RING_ENABLE (R313). -/
def execRingEnable (fn ring : Nat) (value : Word) (s : State) : Result := overPcie (ringSwitch fn ring true value s) s

/-- RING_DISABLE (R314). -/
def execRingDisable (fn ring : Nat) (value : Word) (s : State) : Result := overPcie (ringSwitch fn ring false value s) s

/-- Entries that one fetch turn of a ring may read: within the tail, the completions' room, one 4 KiB read (R316). -/
def fetchable (s : State) (ring : Nat) : Nat :=
  let n := ringSize s ring
  let head := s.rd (RING_SQ_HEAD ring)
  if !s.rdB (RING_ENABLE ring) || s.rdB (RING_STOPPED ring) then 0
  else
    let waiting := (s.rd (RING_SQ_TAIL ring) + 2 * n - head) % (2 * n)
    let room := n - (head + 2 * n - s.rd (RING_CQ_HEAD ring)) % (2 * n)
    min (min waiting room) (64 - head % n % 64) |> min (n - head % n)

/-- Rings that are enabled. -/
def enabledRings (s : State) : List Nat :=
  ((tkeys s.bar).filter (fun o => isRing o && o % 0x40 = 0x18)).map ringOf |>.filter (fun n => s.rdB (RING_ENABLE n))

/-- Whether the round-robin serves this ring next (R316). -/
def fetchTurn (s : State) (ring : Nat) : Bool :=
  let place := fun (r : Nat) => (r + 4096 - s.host.fetchNext) % 4096
  (enabledRings s).all (fun r => fetchable s r = 0 || place ring ≤ place r)

/-- Fetched entries join Husk's command queue in ring order, and the head shadow is written (R316, R317). After a takeover
the commands whose effects an applied epoch records are skipped (R391). -/
def acceptEntries (ring : Nat) (es : List (BitVec 512)) (s : State) : State :=
  let n := ringSize s ring
  let seq := s.host.nextSeq
  let head := (s.rd (RING_SQ_HEAD ring) + es.length) % (2 * n)
  let known := fun (e : BitVec 512) => s.twin.skips.contains (ring, entrySeq e)
  let skipped := es.filter known
  let es := es.filter (fun e => !known e)
  let s := { s with twin := { s.twin with skips := s.twin.skips.filter (fun x =>
    !(x.1 = ring && skipped.any (fun e => entrySeq e = x.2))) } }
  let s := { s with host := { s.host with
    husk := s.host.husk ++ (es.zip (List.range es.length)).map (fun (x : BitVec 512 × Nat) => (⟨ring, x.1, seq + x.2⟩ : Fetched))
    nextSeq := seq + es.length
    fetchNext := (ring + 1) % 4096 } }
  let s := (s.wr (RING_SQ_HEAD ring) head).wr (RING_INFLIGHT ring) (s.rd (RING_INFLIGHT ring) + es.length)
  let s := s.wrB (RING_QUIESCENT ring) (s.rd (RING_INFLIGHT ring) = 0)
  let a := s.rd64 (RING_SHADOW ring)
  if a = 0 then s else s.emit (.shadow (s.rd (RING_OWNER ring)) a (BitVec.ofNat 32 head))

/-- A fetch read that failed: FETCH_ERROR, STOPPED and RING_FETCH_ERROR (R316, R445). -/
def fetchFails (ring : Nat) (s : State) : State :=
  let s := (s.raise (RING_STATUS ring) 3).wr (RING_STOPPED ring) 1
  let s := { s with host := { s.host with fetchNext := (ring + 1) % 4096 } }
  recordEvent 0x0901 none none (payload [(32, 2, ring), (34, 1, s.rd (RING_OWNER ring))]) s

/-- SQ_FETCH: the read of one turn returns (R316, R401). -/
def execSqFetch (ring : Nat) (data : SqRead) (s : State) : Result :=
  if 4096 ≤ ring || !(s.rdB BOOT_READY || s.boot.recovery) || fetchable s ring = 0 || !fetchTurn s ring then .next s
  else match data with
    | .failed => .next (fetchFails ring s)
    | .entries es =>
      if es = [] || fetchable s ring < es.length then .next s else .next (rejectUndefined (acceptEntries ring es s))

/-- INTERRUPT_COALESCE_TIMEOUT (R320). -/
def execInterruptCoalesceTimeout (ring : Nat) (s : State) : Result :=
  let fn := s.rd (RING_OWNER ring)
  let vec := s.rd (RING_VECTOR ring)
  if (s.ringAux ring).coalTimer && s.rd (RING_COAL_TIME ring) ≠ 0 && s.rdB (RING_INT_EN ring) then
    .next (signalVector fn vec s)
  else .next s

/-! ### Configuration space (R6, R305, R306) -/

def VF_ENABLE : Fld := ⟨0x10, 11, 1⟩
def NUM_VFS : Fld := ⟨0x10, 12, 8⟩

/-- Whether function index `fn` exists: the PF, and the VFs that VF Enable and NumVFs make. -/
def hasFunction (s : State) (fn : Nat) : Bool := fn = 0 || (s.rdB VF_ENABLE && fn ≤ s.rd NUM_VFS)

/-- What configuration reads of a function find. -/
def pciFunction (s : State) (fn : Nat) : Option PciFunction :=
  if !hasFunction s fn then none else if fn = 0 then some s.host.cfg.pf else some s.host.cfg.vf

/-- The routing offset of a function from the PF's: First VF Offset, then VF Stride (R306). -/
def routingOffset (s : State) (fn : Nat) : Nat :=
  if fn = 0 then 0 else s.host.cfg.firstVfOffset + (fn - 1) * s.host.cfg.vfStride

/-- The Device Serial Number capability of the PF: DEV_SERIAL (R9, R305). -/
def pciSerial (s : State) (fn : Nat) : Option Nat :=
  match pciFunction s fn with
  | some f => if f.caps.contains .serialNumber then some (s.rd64 0x8) else none
  | none => none

/-! ### Function level reset (R307) -/

/-- Whether a running command moves bytes of its function by DMA or through a channel. -/
def movesBytes : RunKind → Bool
  | .tensorWrite _ _ _ _ _ => true
  | .tensorRead _ _ _ _ _ => true
  | .channel _ _ _ _ => true
  | .variantList _ => true
  | .variantPull _ _ _ => true
  | .archiveList _ => true
  | .baseManifest _ => true
  | .cycleSource _ _ _ => true
  | .imageRead _ => true
  | _ => false

/-- DMA stops: commands that move bytes end without a completion, others run on without one, commands not yet taken are
dropped. -/
def stopCommands (fn : Nat) (s : State) : State :=
  let gone := s.host.running.filter (fun r => r.fn = fn && movesBytes r.kind)
  let s := gone.foldl (fun s r => dropRun r.seqNo s) s
  { s with host := { s.host with
    running := s.host.running.map (fun r => if r.fn = fn then { r with quiet := true } else r)
    husk := s.host.husk.filter (fun f => s.rd (RING_OWNER f.ring) ≠ fn)
    held := s.host.held.filter (fun f => s.rd (RING_OWNER f.ring) ≠ fn) } }

/-- A ring of the function: disabled, with nothing pending. -/
def flrRing (n : Nat) (s : State) : State :=
  let s := ((s.wr (RING_ENABLE n) 0).wr (RING_ENABLED n) 0).wr (RING_INFLIGHT n) 0
  (s.wr (RING_QUIESCENT n) 1).setRingAux n { s.ringAux n with coalCount := 0, coalTimer := false }

/-- Rings of a function that differ from reset. -/
def ringsOf (s : State) (fn : Nat) : List Nat :=
  (((tkeys s.bar).filter isRing).map ringOf).eraseDups.filter (fun n => s.rd (RING_OWNER n) = fn)

/-- A channel of the function: its buffered writes discarded, its cursor at zero. -/
def flrChannel (c : Nat) (s : State) : State :=
  let s := { s with host := { s.host with bdpBuf := tdel s.host.bdpBuf c } }
  ((s.wr64 (BDP_TARGET c) 0).wr32 (BDP_FREE c) 262144).wr ⟨BDP_STATUS c, 0, 1⟩ 0

/-- A request of the function: cancelled, without output or completion (R301). -/
def flrRequest (i : Nat) (s : State) : State :=
  let s := s.setRequest i { s.request i with quiet := true }
  if inStep s i then s.setRequest i { s.request i with cancel := true }
  else
    let h := (s.request i).hull
    formStep h (admitAll h (finishRuns (fun r => r.kind == .cancelling i) ST_OK 0 (cancelRequest i s)))

/-- A host read for input staging that the reset stops: its request's segment has no input and is cancelled. -/
def flrStaging (fn : Nat) (s : State) : State :=
  let gone := s.host.dma.filter (fun d => d.fn = fn)
  let s := dropReads (fun d => d.fn = fn) s
  gone.foldl (fun s d => match d.use with
    | .staging h _ _ _ =>
      let s := setStep h (fun st => { st with staging := st.staging - 1 }) s
      if ((s.hull h).step.map (fun st => st.staging)) = some 0 then armStart h s else s
    | _ => s) s

/-- What an FLR of a function does; ring and channel assignments stay. -/
def resetFunction (fn : Nat) (s : State) : State :=
  let before := s
  let s := stopCommands fn s
  let s := flrStaging fn s
  let s := (ringsOf s fn).foldl (fun s n => flrRing n s) s
  let s := { s with host := { s.host with
    hello := tdel s.host.hello fn
    pba := tclear s.host.pba (fn * 2048) (fn * 2048 + 2048) } }
  let s := if fn = 0 then s.wr HELLO_DONE 0 else s
  let s := ((List.range 64).filter (ownsChannel s fn)).foldl (fun s c => flrChannel c s) s
  let s := (boundSlots s).foldl (fun s t =>
    if (s.slot t).owner = fn then s.setSlot t { s.slot t with owner := 0 } else s) s
  let s := ((liveIdx s).filter (fun i => (s.request i).fn = fn)).foldl (fun s i => flrRequest i s) s
  commandEpoch before (pumpFences s)

/-- Every enabled VF is reset as VF Enable clears. -/
def disableVfs (s : State) : State :=
  if !s.rdB VF_ENABLE then s
  else (List.range (s.rd NUM_VFS)).foldl (fun s i => resetFunction (i + 1) s) (s.wr VF_ENABLE 0)

/-- VF_FLR (R307). -/
def execVfFlr (fn : Nat) (s : State) : Result :=
  .next (if fn = 0 || !hasFunction s fn then s else resetFunction fn s)

/-- PF_FLR (R307, R449, R456). -/
def execPfFlr (s : State) : Result :=
  .next ((resetFunction 0 (disableVfs s)).wr LOG_ENABLE 0).endSampling

/-- VF_ENABLE_WRITE: NumVFs changes while VF Enable is clear, then VF Enable (R306, R307). -/
def execVfEnableWrite (enable : Bool) (numVfs : Nat) (s : State) : Result :=
  let s := if s.rdB VF_ENABLE || s.host.cfg.totalVfs < numVfs then s else s.wr NUM_VFS numVfs
  .next (if enable then s.wr VF_ENABLE 1 else disableVfs s)

/-- PCIE_LINK_TRAINED: DEV_HOST_STATUS shows what the link negotiated (R304, R308, R331). CXL's flits need a link that
negotiated it. -/
def execPcieLinkTrained (speed width : Nat) (flit cxl : Bool) (s : State) : Result :=
  let ok : Bool := 3 ≤ speed && speed ≤ 6 && (width = 4 || width = 8 || width = 16)
  if !ok || !s.pwr.good then .next s
  else
    let s := { s with host := { s.host with linkUp := true, perstLow := false } }
    let s := ((s.wr ⟨0x10, 0, 4⟩ speed).wr ⟨0x10, 4, 5⟩ width).wrB ⟨0x10, 9, 1⟩ (flit || speed = 6)
    .next (s.wrB ⟨0x10, 10, 1⟩ cxl)

/-! ### The CXL.mem window (R309, R310) -/

def cxlOn (s : State) : Bool := bit (s.rd32 DEV_HOST_STATUS) 10
def CXL_SIZE : Fld := ⟨0x80, 0, 11⟩
def CXL_COMMITTED : Fld := ⟨0x80, 16, 1⟩

/-- CXL_DECODER_COMMIT: the window's region is reserved within one half, or the decoder reports Error Not Committed. -/
def execCxlDecoderCommit (base : Nat) (s : State) : Result :=
  let size := s.rd CXL_SIZE * 2 ^ 30
  if !cxlOn s || s.rdB CXL_COMMITTED then .next s
  else match (if s.rd CXL_SIZE = 0 then some (0, s) else allocD size .cxl s) with
    | none => .next ((s.raise DEV_CXL_WINDOW 17).emit .cxlNotCommitted)
    | some (off, t) =>
      let t := { t with host := { t.host with cxlBase := base } }
      .next (refreshHeat ((t.wr CXL_COMMITTED 1).wr64 DEV_CXL_BASE off))

/-- The window's region is freed. -/
def freeWindow (s : State) : State :=
  let s := freeRuns (fun a => a.who == .cxl) s
  let s := { s with host := { s.host with cxlBase := 0 } }
  refreshHeat ((s.wr CXL_COMMITTED 0).wr64 DEV_CXL_BASE 0)

/-- CXL_DECODER_DECOMMIT. -/
def execCxlDecoderDecommit (s : State) : Result := .next (if s.rdB CXL_COMMITTED then freeWindow s else s)

/-- The D-tier address of a host physical address, where the committed decoder holds the whole access (R309). -/
def cxlAddr (s : State) (hpa len : Nat) : Option DWord :=
  if cxlOn s && s.rdB CXL_COMMITTED && s.host.cxlBase ≤ hpa
      && hpa + len ≤ s.host.cxlBase + s.rd CXL_SIZE * 2 ^ 30 then
    some (globalAddr s 1 (s.rd64 DEV_CXL_BASE + (hpa - s.host.cxlBase)))
  else none

/-- A request of the window goes to the D-tier in class 2 (R310). -/
def cxlAccess (g : DWord) (op : TierOp) (s : State) : State := present .cxl { who := .cxl, target := .addr g, op, cls := 2 } s

/-- The answer to a request of the window: a read's data, with the poison indication where it failed (R310). -/
def cxlEnded (req : AccessReq) (code : Nat) (data : List Byte) (s : State) : State :=
  match req.op, req.target with
  | .read _, .addr g => s.emit (.cxlData (s.host.cxlBase + (gOffset g - s.rd64 DEV_CXL_BASE)) data (rspFails code))
  | _, _ => s

/-- CXL_MEM_READ: the read reaches its D-tier controller. -/
def execCxlMemRead (hpa len : Nat) (s : State) : Result :=
  match cxlAddr s hpa len with
  | none => .next s
  | some g => .next (cxlAccess g (.read len) s)

/-- CXL_MEM_WRITE: the write reaches its D-tier controller; it is made by read-modify-write where it is partial, and a failing
one changes nothing (R310). -/
def execCxlMemWrite (hpa : Nat) (data : List Byte) (s : State) : Result :=
  match cxlAddr s hpa data.length with
  | none => .next s
  | some g => .next (cxlAccess g (.write data) s)

end Sys2Proof.Machine
end

