-- ==== Sys2Proof/Machine/Bdp.lean ====
section
/-! DEFINITION. The bulk data port: channel windows, cursors, write buffers and the commands that a channel carries
(R324–R329, R347). -/

namespace Sys2Proof.Machine

/-- The accesses of a channel that have not ended, oldest first (R325). -/
def bdpQueue (s : State) (c : Nat) : List ChanAccess := tget s.host.bdpBuf c []

/-- A remote access of a channel that lacks its response (R376). -/
def bdpRemote (s : State) (c : Nat) : Bool :=
  s.fab.pending.any (fun p => match p.use with | .bdp x _ _ _ => x = c | _ => false)

/-- BUSY follows the buffer and the reads in progress (R331). -/
def refreshBusy (c : Nat) (s : State) : State :=
  s.wrB ⟨BDP_STATUS c, 0, 1⟩ (bdpQueue s c ≠ [] || s.fab.pending.any (fun p => match p.use with
    | .bdp x _ _ read => x = c && read
    | _ => false))

def setBdpQueue (c : Nat) (q : List ChanAccess) (s : State) : State :=
  refreshBusy c { s with host := { s.host with bdpBuf := tput s.host.bdpBuf c q [] } }

def bdpMode1 (s : State) (c : Nat) : Bool := bit (s.rd32 (BDP_CTRL c)) 0
def bdpPlane (s : State) (c : Nat) : Bool := bit (s.rd32 (BDP_CTRL c)) 1

/-- The part of a cursor that advances: the address, or the offset field (R325). -/
def cursorOff (mode1 : Bool) (cur : Nat) : Nat := if mode1 then bits cur 20 44 else cur

/-- A cursor advanced by `n` bytes. -/
def advanceBy (mode1 : Bool) (n cur : Nat) : Nat :=
  if mode1 then setBits cur 20 44 (bits cur 20 44 + n) else (cur + n) % 2 ^ 64

def moveCursor (c n : Nat) (s : State) : State :=
  s.wr64 (BDP_TARGET c) (advanceBy (bdpMode1 s c) n (s.rd64 (BDP_TARGET c)))

/-- The order check (R326). -/
def orderOk (s : State) (c off : Nat) : Bool :=
  !bit (s.rd32 (BDP_CTRL c)) 2 || off % 4096 = cursorOff (bdpMode1 s c) (s.rd64 (BDP_TARGET c)) % 4096

/-- A failing access (R328). A failure of the fabric is no response of R199: LAST_RESP then has no stated value. -/
def noteResp (c code : Nat) (s : State) : State :=
  let f : Nat × State := if code ≤ RSP_NO_ROOM then (code, s) else (s.fresh.1.toNat, s.fresh.2)
  (f.2.raise (BDP_STATUS c) 3).wr ⟨BDP_STATUS c, 8, 4⟩ f.1

/-! ### Commands that hold a channel (R347) -/

/-- A channel command whose bytes have all passed, with the buffer drained, completes. -/
def settleChannel (c : Nat) (s : State) : State :=
  match channelRun s c with
  | some r => match r.kind with
    | .channel _ write left done =>
      if left = 0 && (!write || bdpQueue s c = []) && !bdpRemote s c then finishRun r (transferStatus r) done 0 s else s
    | _ => s
  | none => s

/-- `n` bytes have moved through a channel. -/
def channelMoved (c n : Nat) (write unwritten : Bool) (s : State) : State :=
  let s := s.add64 (BDP_BYTES c) n
  match channelRun s c with
  | some r => match r.kind with
    | .channel x w left done =>
      if w ≠ write then s
      else settleChannel c (setRun { r with kind := .channel x w (left - n) (done + min left n)
                                            unwritten := r.unwritten || unwritten } s)
    | _ => s
  | none => s

/-- A failing access ends the command that holds the channel under R225, with the `at_` bytes that the access moved before its
first failing granule in PROGRESS. -/
def channelFails (c code at_ : Nat) (addr : DWord) (s : State) : State :=
  let s := noteResp c code s
  match channelRun s c with
  | some r => match r.kind with
    | .channel _ _ left done => finishRun r (rspStatus code) (done + min left at_) addr.toNat s
    | _ => s
  | none => s

/-! ### Writes (R325–R328) -/

/-- Data cut at granule boundaries of its target, with offsets. -/
def granulePieces : Nat → Nat → List Byte → List (Nat × List Byte)
  | 0, _, _ => []
  | _, _, [] => []
  | k + 1, off, d =>
    let n := 64 - off % 64
    (off, d.take n) :: granulePieces k (off + n) (d.drop n)

/-- The answer of a channel's write: the first failing granule's response, the bytes before it and its address; the others are
stored (R328). -/
def channelStore (fn : Nat) (tg : Nat → Target) (off : Nat) (data : List Byte) (s : State) :
    Option (Nat × Nat × DWord) × State :=
  (granulePieces (data.length / 64 + 2) off data).foldl (fun (acc : Option (Nat × Nat × DWord) × State) p =>
    let a := answer true (.fn fn) (tg p.1) (.write p.2) acc.2
    if rspFails a.code then
      (match acc.1 with
       | some f => some f
       | none => some (a.code, p.1 - off, failAddr acc.2 (.fn fn) (tg p.1) (.write p.2) 0), a.s)
    else (acc.1, a.s)) (none, s)

/-- Whether an access by handle through a channel waits for a move that has been asked to end already (R218, R329). -/
def awaitsMove (s : State) (h : Nat) : Bool :=
  hostHalts s h && (match findMove s h with | some m => !m.bg && m.cls ≤ 2 && m.kind ≠ MOVE_DEMOTE | none => false)

/-- The target of a channel's access, and the same at another offset of its space or plane. -/
def ChanAccess.targetAt (w : ChanAccess) (off : Nat) : Target :=
  if w.mode1 then .handle (bits w.cursor.toNat 0 20) w.scale off else .addr (BitVec.ofNat 64 off)

def ChanAccess.target (w : ChanAccess) : Target := w.targetAt (cursorOff w.mode1 w.cursor.toNat)

def ChanAccess.op (w : ChanAccess) : TierOp := match w.read with | some n => .read n | none => .write w.data

/-- The oldest access leaves the channel, whatever its end; a write's bytes are free again. -/
def popAccess (c : Nat) (w : ChanAccess) (rest : List ChanAccess) (s : State) : State :=
  let s := setBdpQueue c rest s
  if w.read.isSome then s else s.wr32 (BDP_FREE c) (s.rd32 (BDP_FREE c) + w.data.length)

/-- A channel's read of `len` bytes: its end and its data. -/
def readEnds (c fn code at_ : Nat) (addr : DWord) (data : List Byte) (s : State) : State :=
  let s := s.emit (.bdpData fn c data)
  if code = RSP_OK then channelMoved c data.length false false s
  else if code = RSP_UNWRITTEN then channelMoved c data.length false true (s.raise (BDP_STATUS c) 4)
  else channelFails c code at_ addr s

/-- The end of a channel's oldest access, of which `at_` bytes moved before its first failing granule. -/
def endItem (c : Nat) (w : ChanAccess) (rest : List ChanAccess) (code at_ : Nat) (addr : DWord) (data : List Byte)
    (s : State) : State :=
  let s := popAccess c w rest s
  match w.read with
  | some _ => readEnds c w.fn code at_ addr data s
  | none => if rspFails code then channelFails c code at_ addr s else channelMoved c w.data.length true false s

/-- DETAIL of an access by handle that no spot answers: the global address in the tensor's present copy, or in its origin for a
write there (R347, R358). -/
def handleAddr (s : State) (w : ChanAccess) (code : Nat) : DWord :=
  let t := s.tensor (bits w.cursor.toNat 0 20)
  let off := bits w.cursor.toNat 20 44
  if !t.valid then 0
  else if code = RSP_READ_ONLY then globalAddr s 2 (t.fBase + planeStart t w.scale + off)
  else BitVec.ofNat 64 (presentAddr s t w.scale off)

/-- The oldest access of a channel sets out: to a tier of this device, to another device, or to its end where nothing can
serve it. One by handle may have to wait for a move (R218, R329). -/
def startItem (c : Nat) (s : State) : State :=
  match bdpQueue s c with
  | [] => s
  | w :: rest =>
    let fn := w.fn
    let h := bits w.cursor.toNat 0 20
    let zero := zeros (w.read.getD 0)
    let go := fun (s : State) => setBdpQueue c ({ w with sent := some s.tier.nextId } :: rest)
      (present (.channel c) { who := .fn fn, target := w.target, op := w.op, cls := 2 } s)
    if w.sent.isSome || bdpRemote s c then s
    else if w.mode1 then
      match locate s (.fn fn) w.target (opWrites w.op) with
      | .fail code => endItem c w rest code 0 (handleAddr s w code) zero s
      | _ =>
        if awaitsMove s h then s
        else match hostGo h s with
          | (.wait, s) => s
          | (.noRoom, s) => endItem c w rest RSP_NO_ROOM 0 (BitVec.ofNat 64 (shortD s (copySize (s.tensor h)))) zero s
          | (.go, s) => go s
    else if fn ≠ 0 then endItem c w rest RSP_DENIED 0 w.cursor zero s
    else if !s.isHere (gDevice w.cursor) then
      if reachable s (gDevice w.cursor) then
        sendRequest (gDevice w.cursor) none (.bdp c fn (w.read.getD w.data.length) w.read.isSome)
          (fun p => .request p .pf w.cursor w.op) (popAccess c w rest s)
      else endItem c w rest RSP_UNREACHABLE 0 (BitVec.ofNat 64 (gDevice w.cursor)) zero s
    else go s

/-- A read that has become the oldest access of its channel sets out by itself; a write waits for its drain (R327). -/
def startReads : Nat → Nat → State → State
  | 0, _, s => s
  | n + 1, c, s => match bdpQueue s c with
    | w :: _ =>
      if w.read.isNone || w.sent.isSome || bdpRemote s c then s
      else
        let t := startItem c s
        if (bdpQueue t c).length < (bdpQueue s c).length then startReads n c t else t
    | [] => s

/-- Whatever reads stand first in a channel's order. -/
def kick (c : Nat) (s : State) : State := refreshBusy c (startReads (bdpQueue s c).length c s)

/-- BDP_BUFFER_DRAIN (R327): the oldest write of a channel sets out for the tier. -/
def execBdpBufferDrain (chan : Nat) (s : State) : Result :=
  if 64 ≤ chan then .next s else .next (pumpFences (kick chan (startItem chan s)))

/-- An access of a channel that stood in a controller has ended; the next one follows. -/
def channelEnded (c id code at_ : Nat) (addr : DWord) (data : List Byte) (s : State) : State :=
  match bdpQueue s c with
  | w :: rest => if w.sent = some id then kick c (endItem c w rest code at_ addr data s) else s
  | [] => s

/-- A channel's write stored granule by granule: its response and the address that failed. -/
def storeItem (c : Nat) (s : State) : Ans × DWord :=
  match bdpQueue s c with
  | w :: _ =>
    let r := channelStore w.fn w.targetAt (cursorOff w.mode1 w.cursor.toNat) w.data s
    match r.1 with
    | some f => ({ code := f.1, at_ := f.2.1, s := r.2 }, f.2.2)
    | none => ({ code := RSP_OK, s := r.2 }, 0)
  | [] => ({ code := RSP_OK, s }, 0)

/-- An access through a function that does not own the channel (R324). -/
def badChannel (fn chan off width : Nat) (write : Bool) (s : State) : State :=
  accessViolation fn 2 width (chan * 0x400000 + off) write s

/-- An access at a channel's cursor. -/
def atCursor (s : State) (fn c : Nat) (data : List Byte) (read : Option Nat) : ChanAccess :=
  { fn, mode1 := bdpMode1 s c, scale := bdpPlane s c, cursor := BitVec.ofNat 64 (s.rd64 (BDP_TARGET c)), data, read }

/-- BDP_WINDOW_WRITE: one TLP's payload joins the buffer at the cursor, which advances (R325–R328). -/
def execBdpWindowWrite (fn chan off : Nat) (data : List Byte) (poisoned : Bool) (s : State) : Result :=
  let n := data.length
  if !linkLive s || 64 ≤ chan || n = 0 || 4096 < n then .next s
  else if !ownsChannel s fn chan then .next (badChannel fn chan off n true s)
  else if !orderOk s chan off then .next (s.raise (BDP_STATUS chan) 1)
  else
    let t := moveCursor chan n s
    if poisoned then .next (t.raise (BDP_STATUS chan) 5)
    else if s.rd32 (BDP_FREE chan) < n then .next (t.raise (BDP_STATUS chan) 2)
    else .next ((setBdpQueue chan (bdpQueue s chan ++ [atCursor s fn chan data none]) t).wr32 (BDP_FREE chan)
      (s.rd32 (BDP_FREE chan) - n))

/-- BDP_WINDOW_READ: the bytes at the cursor, which advances (R325–R329). The read is handled after every access of the channel
that arrived before it, and holds its PCIe completion until it ends. -/
def execBdpWindowRead (fn chan off len : Nat) (s : State) : Result :=
  if !linkLive s || 64 ≤ chan || len = 0 || 4096 < len then .next s
  else if !ownsChannel s fn chan then .next ((badChannel fn chan off len false s).emit (.bdpData fn chan (zeros len)))
  else if !orderOk s chan off then .next ((s.raise (BDP_STATUS chan) 1).emit (.bdpData fn chan (zeros len)))
  else
    let t := setBdpQueue chan (bdpQueue s chan ++ [atCursor s fn chan [] (some len)]) (moveCursor chan len s)
    .next (pumpFences (kick chan t))

/-- The response to a channel's remote access (R328, R376): a read's data as it came, zeros where none came. -/
def bdpResponse (c fn len : Nat) (read : Bool) (code : Nat) (g : DWord) (data : List Byte) (s : State) : State :=
  let s := refreshBusy c s
  kick c (if read then readEnds c fn code 0 g (data ++ zeros (len - data.length)) s
    else if rspFails code then channelFails c code 0 g s
    else channelMoved c len true false s)

/-- Whatever reads stand first in the channels' orders. -/
def kickAll (s : State) : State := (List.range 64).foldl (fun s c => kick c s) s

/-- TENSOR_FREE (R210, R337). The accesses of channels that waited for a move of the tensor go on (R329). -/
def execTensorFree (ring : Nat) (s : State) : Result :=
  hostCommand 0x23 ring (fun c s =>
    match hrefBad s (c.p 12 8) 12 with
    | some f => c.done f.1 0 f.2 s
    | none =>
      let h := hrefHandle (c.p 12 8)
      let t := s.tensor h
      if t.binds ≠ 0 || tensorInUse s h then c.done ST_TENSOR_BUSY 0 t.binds s
      else commandEpoch s (pumpBaseStages (kickAll (c.done ST_OK 0 0 (freeTensor h s))))) s

end Sys2Proof.Machine
end

