-- ==== Sys2Proof/Machine/Fabric.lean ====
section
/-! DEFINITION. The Nygoham fabric: ports, lanes and the link layer, route updates, remote access, remote queue routes, slices and
the domain's step counter (R360–R383). -/

namespace Sys2Proof.Machine

/-! ### Ports (R362–R364) -/

def isTwinPort (p : Nat) : Bool := p = 16 || p = 17
def isPort (p : Nat) : Bool := p < 18

/-- The counter's parent is this device's other end of a link, if it has one (R380): the port, on which exchanges run. -/
def parentPort (s : State) : Option Nat :=
  if !s.rdB FAB_VALID || s.rdB TIME_ROOT then none
  else (List.range 16).find? (fun p => portUp s p && s.rd (PORT_PEER p) = s.rd TIME_PARENT)

/-- A timestamp message goes to the parent with the next flit (R381). -/
def askTime (s : State) : State :=
  match parentPort s with
  | some p => s.setPort p { s.port p with timeDue := true }
  | none => s

/-- Without a parent there is no exchange to wait for (R381). -/
def settleSync (s : State) : State :=
  if (parentPort s).isSome then s else finishRuns (fun r => r.kind == .syncing) ST_OK 0 s

/-- A link fails (R362, R366, R373, R374): the flits in flight on it are lost, and with them the packets of which a part has
left. What has not begun to leave a fabric port waits for a path again; a twin port's goes to the other one. -/
def downPort (p : Nat) (s : State) : State :=
  let t := s.port p
  let s := s.setPort p { t with
    acked := t.txSeq, retry := [], failures := 0, clean := [], egress := [], sent := [], ackDue := false, owed := []
    timeDue := false }
  let s := enterPort p 7 (s.wr (PORT_LANES p) 0)
  if isTwinPort p then
    refreshLag ((unbegun t).foldl (fun s x => sendOn (twinPort s) x.1 x.2 s) s)
  else
    let s := settleSync (linksChanged s)
    (unbegun t).foldl (fun s x => match packetDst x.2 with
      | some d => sendPacket d x.1 x.2 s
      | none => s) s

/-- Every flit not yet acknowledged is sent again, in order (R364, R366). -/
def replayPort (p : Nat) (s : State) : State :=
  let l := (s.port p).retry
  if l = [] then s
  else
    let s := (s.raise (portBlock p + 4) 3).addSat (portBlock p + 8) 1
    l.foldl (fun s f => s.emit (.flit p f)) s

/-- PORT_DETECT (R363). -/
def execPortDetect (port : Nat) (seen : Detected) (s : State) : Result :=
  if !isPort port || s.rd (PORT_STATE port) ≠ 1 then .next s
  else match seen with
    | .nothing => .next s
    | .receiver => .next (enterPort port 3 s)
    | .transmitter => .next (enterPort port 2 s)

/-- PORT_TRAINING_DONE: the corrections made, or a failure; after three the port detects again (R362, R363). -/
def execPortTrainingDone (port : Nat) (result : Training) (s : State) : Result :=
  if !isPort port || s.rd (PORT_STATE port) ≠ 3 then .next s
  else
    let s := s.addSat (portBlock port + 0x28) 1
    let t := s.port port
    let fail : State :=
      if 2 ≤ t.trainFails then enterPort port 1 (s.setPort port { t with trainFails := 0 })
      else s.setPort port { t with trainFails := t.trainFails + 1 }
    match result with
    | .failed => .next fail
    | .locked lanes reversed polarity =>
      if lanes % 16 = 0 then .next fail
      else
        let s := s.setPort port { t with trainFails := 0, clean := [], lanes := lanes % 16 }
        let s := s.wrB ⟨portBlock port, 19, 1⟩ reversed
        .next (enterPort port 4 (s.wr ⟨portBlock port, 20, 4⟩ polarity))

/-- A link comes up on the lanes that trained, with fresh sequence numbers and credits. -/
def raisePort (p : Nat) (s : State) : State :=
  let t := s.port p
  let s := s.setPort p { t with
    rxSeq := 0, txSeq := 0, acked := 0, retry := [], used := [], owed := [], sent := [], failures := 0, ackDue := false }
  let s := s.wr (PORT_LANES p) t.lanes
  let s := enterPort p (if t.lanes = 15 then 5 else 6) s
  if isTwinPort p then s else askTime (linksChanged s)

/-- A port in NO_ID returns to PEER_CHECK once both ends have their ID (R362). -/
def leaveNoId (p : Nat) (peer : PeerInfo) (s : State) : State :=
  if s.rd (PORT_STATE p) = 10 && peer.idValid && s.rdB FAB_VALID then enterPort p 4 s else s

/-- Whether the peer that a port reports stands where the port map puts it: on a twin port, the same port of any device
(R360). -/
def peerFits (s : State) (p : Nat) (peer : PeerInfo) : Bool :=
  if isTwinPort p then peer.port = p else mapPeer s p = some (peer.id, peer.port)

/-- PEER_CHECK: both ends' identities against the port map, on fabric and twin ports alike (R360, R362, R371). -/
def execPeerCheck (port : Nat) (peer : PeerInfo) (s : State) : Result :=
  let s0 := if isPort port then leaveNoId port peer s else s
  if !isPort port || s0.rd (PORT_STATE port) ≠ 4 then .next s
  else
    let s := (s0.wr (PORT_PEER port) peer.id).wr (PORT_PEER_PORT port) peer.port
    if !peer.idValid || !s.rdB FAB_VALID then .next (enterPort port 10 s)
    else if peer.id = s.rd FAB_DEVICE then .next (enterPort port 9 s)
    else if !peerFits s port peer then .next (enterPort port 8 s)
    else .next (raisePort port (if isTwinPort port then { s with twin := { s.twin with partner := some peer.id } } else s))

/-- LINK_RETRAIN_TIMER: 100 ms after DOWN (R362). -/
def execLinkRetrainTimer (port : Nat) (s : State) : Result :=
  .next (if isPort port && s.rd (PORT_STATE port) = 7 then enterPort port 3 s else s)

/-- CROSSED_RECHECK (R362). -/
def execCrossedRecheck (port : Nat) (gone : Bool) (s : State) : Result :=
  .next (if isPort port && s.rd (PORT_STATE port) = 2 && gone then enterPort port 1 s else s)

/-- CABLE_REMOVED (R362). -/
def execCableRemoved (port : Nat) (s : State) : Result :=
  .next (if isPort port && (s.rd (PORT_STATE port) = 8 || s.rd (PORT_STATE port) = 9) then enterPort port 1 s else s)

/-- LINK_DOWN_DETECT (R373). -/
def execLinkDownDetect (port : Nat) (s : State) : Result :=
  .next (if isPort port && portUp s port then downPort port s else s)

/-- LANE_LOCK_LOSS (R364). -/
def execLaneLockLoss (port lane : Nat) (s : State) : Result :=
  if !isPort port || 4 ≤ lane || !portUp s port || !bit (s.rd (PORT_LANES port)) lane then .next s
  else
    let s := (s.wr ⟨portBlock port, 4 + lane, 1⟩ 0).raise (portBlock port + 4) 0
    let s := s.setPort port { s.port port with clean := tdel (s.port port).clean lane }
    if s.rd (PORT_LANES port) = 0 then .next (downPort port s)
    else
      let s := replayPort port (enterPort port 6 s)
      .next (if isTwinPort port then s else linksChanged s)

/-- LANE_RETRAIN: three clean trainings in a row readmit a lane (R364). -/
def execLaneRetrain (port lane : Nat) (clean : Bool) (s : State) : Result :=
  if !isPort port || 4 ≤ lane || !portUp s port || bit (s.rd (PORT_LANES port)) lane then .next s
  else
    let s := s.addSat (portBlock port + 0x28) 1
    let t := s.port port
    let n := if clean then tget t.clean lane 0 + 1 else 0
    if n < 3 then .next (s.setPort port { t with clean := tput t.clean lane n 0 })
    else
      let s := s.setPort port { t with clean := tdel t.clean lane }
      let s := (s.wr ⟨portBlock port, 4 + lane, 1⟩ 1).raise (portBlock port + 4) 1
      let s := replayPort port (if s.rd (PORT_LANES port) = 15 then enterPort port 5 s else s)
      .next (if isTwinPort port then s else linksChanged s)

/-! ### The link layer (R365, R366) -/

/-- `n` bytes of a flit from byte `o`. -/
def fb (f : BitVec 4352) (o n : Nat) : Nat := bits f.toNat (8 * o) (8 * n)

def flitGood (f : BitVec 4352) : Bool := crc64 (leBytes (fb f 0 536) 536) = fb f 536 8

/-- A flit is discarded, and NAK names the last good one (R366). -/
def nakFlit (p : Nat) (s : State) : State := s.emit (.linkAck p (((s.port p).rxSeq + 4095) % 4096) true [])

/-- What a flit's ACK and CREDITS fields do at the transmitter: acknowledged flits leave the retry buffer, and places return.
A NAK replays every later flit; a flit that fails in eight replays in a row takes the link down. -/
def takeAck (p : Nat) (f : BitVec 4352) (s : State) : State :=
  let a := (bits (fb f 2 2) 0 12 + 1) % 4096
  let t := s.port p
  let fresh := (a + 4096 - t.acked) % 4096
  let moved := fresh ≤ t.retry.length
  let used := (List.range 7).foldl (fun us v => tput us v (tget us v 0 - fb f (6 + v) 1) 0) t.used
  let s := s.setPort p { t with
    acked := if moved then a else t.acked
    retry := if moved then t.retry.drop fresh else t.retry
    failures := if moved && fresh ≠ 0 then 0 else t.failures
    used }
  if !bit (fb f 2 2) 12 then s
  else if 8 ≤ (s.port p).failures then downPort p s
  else
    replayPort p (s.setPort p { s.port p with failures := (s.port p).failures + 1 })

/-- A timestamp message of a child is answered with the next flit (R381). -/
def takeTime (p : Nat) (f : BitVec 4352) (s : State) : State :=
  if fb f 14 2 = 0 || parentPort s = some p || isTwinPort p then s else s.setPort p { s.port p with timeDue := true }

/-- Symbols that the FEC has corrected: the row does not tell how many, so the rise is open (R361, R395). -/
def noteFec (p : Nat) (s : State) : State := s.fresh.2.add64 (portBlock p + 0x10) s.fresh.1.toNat

/-- FABRIC_FLIT_RECEIVE: a flit is checked, its acknowledgement and credits are taken, and it is accepted in sequence or
answered with NAK (R365, R366). Its packets are events of their own. -/
def execFabricFlitReceive (port : Nat) (flit : BitVec 4352) (s : State) : Result :=
  if !isPort port || !portUp s port then .next s
  else
    let s := noteFec port s
    if !flitGood flit then .next (nakFlit port (s.addSat (portBlock port + 0xC) 1))
    else
      let s := takeAck port flit s
      let t := s.port port
      if !portUp s port then .next s
      else if fb flit 0 2 % 4096 ≠ t.rxSeq then .next (nakFlit port s)
      else
        let vc := bits (fb flit 4 1) 0 3
        let s := s.setPort port { t with
          rxSeq := (t.rxSeq + 1) % 4096, ackDue := true, owed := tput t.owed vc (tget t.owed vc 0 + 1) 0 }
        .next (takeTime port flit (s.add64 (portBlock port + 0x20) 512))

/-- ACK_TIMER: an acknowledgement at least once per microsecond (R366). -/
def execAckTimer (port : Nat) (s : State) : Result :=
  if !isPort port || !portUp s port || !(s.port port).ackDue then .next s
  else
    let t := s.port port
    let s := s.setPort port { t with ackDue := false, owed := owedAfter t }
    .next (s.emit (.linkAck port ((t.rxSeq + 4095) % 4096) false (creditsOwed t)))

/-! ### Routes (R373, R375) -/

/-- ROUTE_UPDATE: a newer report is kept, passed on, and the paths recomputed (R367, R373). -/
def execRouteUpdate (u : RouteUpdate) (s : State) : Result :=
  let newer := match reportOf s u.origin with | some o => o.gen < u.gen | none => true
  if !s.rdB FAB_VALID || u.origin = s.rd FAB_DEVICE || !newer then .next s
  else
    let rs := s.fab.reports.filter (fun o => o.origin ≠ u.origin) ++ [u]
    .next (settleSync (recompute (flood (.routeUpdate u) { s with fab := { s.fab with reports := rs } })))

def portEntry (s : State) (p : Nat) : Nat :=
  s.rd (PORT_STATE p) + s.rd (PORT_LANES p) * 2 ^ 4 + s.rd (PORT_PEER p) * 2 ^ 8 + s.rd (PORT_PEER_PORT p) * 2 ^ 14

/-- The 16 bytes of a destination. -/
def destEntry (r : Route) : List Byte :=
  let live := r.state = 1 ∨ r.state = 2 ∨ r.state = 5
  let via := fun (i : Nat) => r.via.getD i 0xFF
  leBytes (packBytes [(0, 1, r.state), (1, 1, r.links), (2, 1, r.port), (3, 1, via 0), (4, 1, via 1),
    (8, 4, if live then r.bw else 0)]) 16

/-- The route report (R375). -/
def routeReport (s : State) : List Byte :=
  let up := (List.range 16).foldl (fun n p => n + b2n (portUp s p) * 2 ^ p) 0
  leBytes (packBytes [(0, 1, s.deviceByte), (1, 1, s.rd FAB_SLICE), (2, 2, up), (8, 8, s.fab.routeGen)]) 16
    ++ (List.range 18).flatMap (fun p => leBytes (portEntry s p) 4)
    ++ (List.range 64).flatMap (fun d => destEntry (s.route d))

/-- ROUTE_QUERY (R375). -/
def execRouteQuery (ring : Nat) (s : State) : Result :=
  hostCommand 0x51 ring (fun c s => c.done ST_OK 1112 0 (dmaOut c.fn (c.p 12 8) (routeReport s) s)) s

/-- SLICE_SET (R379): it completes once the domain's routes have settled, which a change does within 500 µs (R373); a device
without an ID is in no domain. -/
def execSliceSet (ring : Nat) (s : State) : Result :=
  hostCommand 0x50 ring (fun c s =>
    if (List.range 128).any (fun h => (s.hull h).live && (s.hull h).multi) then c.done ST_HULL_BUSY 0 0 s
    else
      let s := linksChanged (s.wr FAB_SLICE (c.p 12 1))
      if s.rdB FAB_VALID then startRun (c.run (.slicing s.counter.toNat)) s else c.done ST_OK 0 0 s) s

/-! ### Remote access (R369, R376–R379) -/

/-- What a request without an answer, or its answer, does to its requester: a response code of R199, or the fabric's, for
which the device that was not reached stands as the failing place (R358). -/
def endRemote (p : PendingReq) (code : Nat) (data : List Byte) (s : State) : State :=
  let addr := if code = RSP_UNREACHABLE || code = RSP_FABRIC then BitVec.ofNat 64 p.dst else p.addr
  let fails := fun (h : Option Nat) (s : State) => match h with
    | some h => if rspFails code then stepError h (rspStatus code) addr s else s
    | none => s
  match p.use with
  | .stream pod eng job chunk =>
    let who : Requester := .stream pod eng job chunk
    let id := s.tier.nextId
    let x : Ended := { id, req := { who, target := .addr p.addr, op := .read data.length, cls := 2 }, code, addr, data }
    { s with tier := { s.tier with nextId := id + 1, ended := s.tier.ended ++ [x] } }
  | .queueOpen pod _ => fails (s.podOwner pod) s
  | .queueEntry pod _ tile =>
    let k := pod * 160 + tile % 160
    let t := s.tile k
    fails (s.podOwner pod) (s.setTile k { t with remoteOut := t.remoteOut - 1 })
  | .dispatch hull => fails (some hull) s
  | .bdp chan fn len read => bdpResponse chan fn len read code addr data s
  | .direct req =>
    let id := s.tier.nextId
    { s with tier := { s.tier with nextId := id + 1, ended := s.tier.ended ++ [(⟨id, req, code, addr, data⟩ : Ended)] } }
  | .ack => s

/-- A request's entry leaves the table. -/
def dropPending (tag : Nat) (s : State) : State :=
  { s with fab := { s.fab with pending := s.fab.pending.filter (fun p => p.tag ≠ tag) } }

def findPending (s : State) (tag : Nat) : Option PendingReq := s.fab.pending.find? (fun p => p.tag = tag)

/-- Whether a packet's destination is this device, under its own ID or its second ID. -/
def isOurs (s : State) (d : Nat) : Bool := s.rdB FAB_VALID && s.isHere d

/-- A packet of another slice, counted (R379). -/
def sliceDrop (s : State) : State := (s.addSat FAB_SLICE_DROPS 1).raise FAB_STATUS 6

/-- The header of a packet that is passed on: one hop further (R367). -/
def onward (h : PktHdr) : PktHdr := { h with hop := h.hop + 1 }

/-- A packet to be forwarded: only within this device's slice, along our path and while a hop is left (R367, R372, R379). -/
def forward (h : PktHdr) (mk : PktHdr → Packet) (s : State) : State :=
  if h.slice ≠ s.rd FAB_SLICE then sliceDrop s
  else if reachable s h.dst && h.hop < 2 then sendPacket h.dst none (mk (onward h)) s else s

/-- The header of the answer to a packet (R376). -/
def answerHdr (s : State) (h : PktHdr) : PktHdr := { pktHdr s h.tag h.src with port := h.port }

/-- Requests of a port that have been accepted and whose answers have not left: at the tiers, and at an egress. -/
def answersDue (s : State) (p : Nat) : Nat :=
  let asks := fun (u : AccessUse) => match u with | .remote h => h.port = p | _ => false
  let mine := fun (x : Packet) => isRsp x && (match packetHdr x with | some h => h.src = s.ownId && h.port = p | none => false)
  ((s.tier.xbar ++ s.tier.queue).filter (fun a => asks a.use)).length
    + ((s.fab.ports.flatMap (fun e => e.2.egress)).filter (fun x => mine x.2)).length
    + (s.fab.heldOut.filter (fun x => mine x.2.2)).length

/-- Response space of a port: the places that it grants REQ channels, three times 32 and the 288 that are shared (R367,
R369, log 220). -/
def RESPONSE_SPACE : Nat := 384

/-- Whether a request can be accepted: its response can be held (R369). Until then it waits in the port's buffer. -/
def canAnswer (s : State) (h : PktHdr) : Bool := answersDue s h.port < RESPONSE_SPACE

/-- An answer to a packet's source, where it can be reached. -/
def respond (h : PktHdr) (mk : PktHdr → Packet) (s : State) : State := sendPacket h.src none (mk (answerHdr s h)) s

/-- A response that carries a code alone. -/
def respondCode (h : PktHdr) (code : Nat) (s : State) : State := respond h (fun a => .response a ⟨code, []⟩) s

def denySlice (h : PktHdr) (s : State) : State := respondCode h RSP_DENIED (sliceDrop s)

/-- REMOTE_RESPONSE: one for another device is passed on (R367); one for a request that has ended is discarded (R376). -/
def execRemoteResponse (hdr : PktHdr) (rsp : Rsp) (s : State) : Result :=
  if !isOurs s hdr.dst then .next (forward hdr (fun h => .response h rsp) s)
  else match findPending s hdr.tag with
    | none => .next s
    | some p => .next (pumpFences (endRemote p rsp.code rsp.data (dropPending hdr.tag s)))

/-- FABRIC_TIMEOUT: 200 µs without a response (R376). -/
def execFabricTimeout (tag : Nat) (s : State) : Result :=
  match findPending s tag with
  | none => .next s
  | some p =>
    let s := ((dropPending tag s).addSat FAB_TIMEOUTS 1).raise FAB_STATUS 5
    .next (pumpFences (endRemote p RSP_FABRIC [] s))

/-- PATH_CHANGE_RELEASE: with every packet of the old path answered or timed out, held packets go on their way; those to a
destination that has become unreachable end there (R372, R373). -/
def execPathChangeRelease (dest : Nat) (s : State) : Result :=
  let r := s.route dest
  if !r.held || owesResponse s dest then .next s
  else
    let out := s.fab.heldOut.filter (fun x => x.1 = dest)
    let tags := heldTags s dest
    let s := { s with fab := { s.fab with
      heldOut := s.fab.heldOut.filter (fun x => x.1 ≠ dest)
      routes := tput s.fab.routes dest { r with held := false } {} } }
    if reachable s dest then .next (out.foldl (fun s x => sendPacket dest x.2.1 x.2.2 s) s)
    else .next (pumpFences (tags.foldl (fun s t => match findPending s t with
      | some p => endRemote p RSP_UNREACHABLE [] (dropPending t s)
      | none => s) s))

/-- A granule that a remote step writes on an active twin goes into the epoch of the hull that owns the region (R385). -/
def noteRemote (g : DWord) (len : Nat) (s : State) : State :=
  if 1 < gSpace g then s
  else match allocAt s (gSpace g = 1) (gOffset g) with
    | some a => match a.who with
      | .region r => if (s.tensor r).owned then noteWrote (s.tensor r).hull (gSpace g) (gOffset g) len s else s
      | _ => s
    | none => s

/-- A requester of another device (R200). -/
def remoteRequester (dev : Nat) : RemoteWho → Requester
  | .hull => .remote dev
  | .pf => .remotePf dev
  | .husk => .remoteHusk dev

/-- REMOTE_REQUEST: it reaches the tier's controller here, in class 2, or is forwarded (R38, R200, R369, R376, R379). -/
def execRemoteRequest (hdr : PktHdr) (who : RemoteWho) (g : DWord) (op : TierOp) (s : State) : Result :=
  if !isOurs s hdr.dst then .next (forward hdr (fun h => .request h who g op) s)
  else if !canAnswer s hdr then .next s
  else if hdr.slice ≠ s.rd FAB_SLICE then .next (denySlice hdr s)
  else .next (present (.remote hdr) { who := remoteRequester hdr.src who, target := .addr g, op, cls := 2 } s)

/-- A request of another device has ended here, and is answered (R376). -/
def remoteEnded (hdr : PktHdr) (req : AccessReq) (code : Nat) (data : List Byte) (s : State) : State :=
  let s := match req.target with
    | .addr g => if opWrites req.op && !rspFails code then noteRemote g (opLen req.op) s else s
    | _ => s
  respond hdr (fun a => .response a ⟨code, data⟩) s

/-! ### Remote queue routes (R377) -/

/-- The pod's hull where it spans devices. -/
def spansDevices (s : State) (p : Nat) : Bool := match s.podOwner p with | some h => (s.hull h).multi | none => false

def inboundKey (tile q : Nat) : Nat := localOf tile * 16 + q

/-- QUEUE_OPEN: an INPUT channel is granted to a producer of another device with its DEPTH in credits; a second OPEN of a
channel raises CREDIT_OVERFLOW at its tile. Every REQ has its RSP (R376): one that is not granted is answered with a response
code, RANGE for a place that no tile has, else DENIED (log 142). -/
def execQueueOpen (hdr : PktHdr) (x y q : Nat) (s : State) : Result :=
  let k := tileAt x y
  let p := podOf k
  let t := s.tile k
  let e := t.chanEntry t.active q
  if !isOurs s hdr.dst then .next (forward hdr (fun h => .queueOpen h x y q) s)
  else if !canAnswer s hdr then .next s
  else if hdr.slice ≠ s.rd FAB_SLICE then .next (denySlice hdr s)
  else if 159 < x || 79 < y then .next (respondCode hdr RSP_RANGE s)
  else if !spansDevices s p then .next (respondCode hdr RSP_DENIED s)
  else if ((s.pod p).inbound.find? (fun i => i.1 = inboundKey k q)).isSome then
    .next (respondCode hdr RSP_DENIED (raiseFault k ⟨0x02, chDepth e, q⟩ none s))
  else if chMode e ≠ MODE_INPUT then .next (respondCode hdr RSP_DENIED (raiseFault k ⟨0x03, 2, q⟩ none s))
  else
    let s := s.setPod p { s.pod p with inbound := tput (s.pod p).inbound (inboundKey k q) (64 + hdr.src % 64) 0 }
    .next (respond hdr (fun a => .queueGrant a (chDepth e)) s)

/-- QUEUE_GRANT: one for another device is passed on; else the route holds the channel's credits, and the entries that wait go out. -/
def execQueueGrant (hdr : PktHdr) (credits : Nat) (s : State) : Result :=
  if !isOurs s hdr.dst then .next (forward hdr (fun h => .queueGrant h credits) s)
  else match findPending s hdr.tag with
  | some ⟨_, _, .queueOpen pod route, _⟩ =>
    let s := dropPending hdr.tag s
    let rc := tget (s.pod pod).routes route {}
    let s := s.setPod pod { s.pod pod with
      routes := tput (s.pod pod).routes route { rc with granted := true, credits, depth := credits } {} }
    .next (routePump pod route s)
  | _ => .next s

/-- QUEUE_ENTRY: delivered into its channel and acknowledged; an entry for a pod without a hull that spans devices raises
MESH_FOREIGN there with DETAIL 0x7F. An entry that is not accepted is answered with a response code (R376, log 142). -/
def execQueueEntry (hdr : PktHdr) (x y q : Nat) (data : BitVec 512) (s : State) : Result :=
  let k := tileAt x y
  if !isOurs s hdr.dst then .next (forward hdr (fun h => .queueEntry h x y q data) s)
  else if !canAnswer s hdr then .next s
  else if hdr.slice ≠ s.rd FAB_SLICE then .next (denySlice hdr s)
  else if 159 < x || 79 < y then .next (respondCode hdr RSP_RANGE s)
  else if !spansDevices s (podOf k) then .next (respondCode hdr RSP_DENIED (raiseFault k ⟨0x09, 0x7F, q⟩ none s))
  else
    let t := s.tile k
    match arrivalTrap t q with
    | some tr => .next (respondCode hdr RSP_DENIED (raiseFault k tr none s))
    | none => .next (respond hdr (fun a => .queueAck a) (acceptEntry k q data s))

/-- QUEUE_CREDIT: credits return to a remote route, and the entries that wait go out. -/
def execQueueCredit (hdr : PktHdr) (pod route credits : Nat) (s : State) : Result :=
  if !isOurs s hdr.dst then .next (forward hdr (fun h => .creditForward h pod route credits) s)
  else if !canAnswer s hdr then .next s
  else if hdr.slice ≠ s.rd FAB_SLICE then .next (denySlice hdr s)
  else
    let rc := tget (s.pod pod).routes route {}
    if !rc.granted then .next (respondCode hdr RSP_OK s)
    else
      let s := s.setPod pod { s.pod pod with
        routes := tput (s.pod pod).routes route { rc with credits := rc.credits + credits } {} }
      .next (routePump pod route (respondCode hdr RSP_OK s))

/-! ### The step counter (R380–R383) -/

/-- The counter moves forward by `n` ns, never back. -/
def stepForward (n : Nat) (s : State) : State := advanceTo (s.counter.toNat + n) s

/-- A signed 32-bit value, saturating. -/
def satSigned (v : Int) : Nat := wrap (max (-(2 ^ 31 : Int)) (min (2 ^ 31 - 1) v)) 32

/-- The rules of R381 for an offset to the parent, given as `q` quarter ns: positive where this device is behind. The trim of
an offset within 1 µs has no stated value beyond its range of ±50 ppm. -/
def applyOffset (q : Int) (s : State) : State :=
  let s := fabricTrace 0 (s.wr32 FAB_TIME_OFFSET (satSigned (q * 5 / 2)))
  if q > 4000 then
    ((syncFrame (stepForward (q / 4).toNat s)).wr TIME_LOCKED 1).wr TIME_AHEAD 0
  else if q < -4000 then
    (((s.raise FAB_STATUS 7).wr TIME_AHEAD 1).wr TIME_LOCKED 0).wr32 FAB_TRIM (wrap (-50000) 32)
  else
    let f := s.fresh
    ((f.2.wr TIME_LOCKED 1).wr TIME_AHEAD 0).wr32 FAB_TRIM (wrap ((f.1.toNat % 100001 : Nat) - 50000 : Int) 32)

/-- TIMESTAMP_EXCHANGE: this device is the child, t1 its own sending and t4 its own receipt (R381). A COUNTER_SYNC that
waits for it completes, and the next exchange begins with the next flit to the parent. -/
def execTimestampExchange (x : TimeExchange) (s : State) : Result :=
  if !s.rdB FAB_VALID || s.rdB TIME_ROOT || !(List.range 16).any (portUp s) then .next s
  else
    let s := applyOffset (((x.t2 : Int) - x.t1) - ((x.t4 : Int) - x.t3)) s
    .next (askTime (finishRuns (fun r => r.kind == .syncing) ST_OK 0 s))

/-- COUNTER_SYNC (R381, R383). ACTION 0 begins an exchange at once and completes when its result has been applied; a device
without a parent has none to make. -/
def execCounterSync (ring : Nat) (s : State) : Result :=
  hostCommand 0x54 ring (fun c s =>
    if c.p 12 1 ≠ 0 then c.done ST_OK 0 0 (s.wr FAB_DITHER (c.p 16 4))
    else if (parentPort s).isSome then startRun (c.run .syncing) (askTime s)
    else c.done ST_OK 0 0 s) s

end Sys2Proof.Machine
end

