-- ==== Sys2Proof/Machine/Access.lean ====
section
/-! DEFINITION. Accesses in the tier controllers from their arrival to their end, whoever made them, and the controllers' own
work: write-backs, refresh and scrub (R32, R38, R199, R203–R205, R224–R227, R310, R328, R376). -/

namespace Sys2Proof.Machine

/-! ### Arrival (R32, R34, R38) -/

/-- The queue in which an access crosses to its controller: one per pod port and N-tier stack, or per pod port (R32). -/
def crossing (s : State) (a : Access) : Nat × Nat × Nat :=
  let pod := match a.req.who with | .stream p _ _ _ => p | _ => 80
  match spaceOf s a.req.who a.req.target a.req.op with
  | some p => (pod, p.space, if p.space = 0 then unitOf false p.off else 0)
  | none => (pod, 4, 0)

/-- The oldest access in the crossing of an access. -/
def firstAcross (s : State) (a : Access) : Option Access := s.tier.xbar.find? (fun b => crossing s b = crossing s a)

/-- The use of an access that a requester makes of itself: the CXL.mem window's answers go to the host. -/
def directUse (req : AccessReq) : AccessUse := if req.who == .cxl then .cxl else .plain

/-- The device that a requester of this device names by global address, where it is another one (R38). A VF reaches no global
address (R200), and the CXL.mem window none but its own region. -/
def awayFrom (s : State) (req : AccessReq) : Option Nat :=
  match req.target with
  | .addr g =>
    let mine : Bool := match req.who with
      | .stream _ _ _ _ => true
      | .hullPort _ => true
      | .husk => true
      | .fn f => f = 0
      | _ => false
    if mine && !s.isHere (gDevice g) then some (gDevice g) else none
  | _ => none

/-- The kind under which a requester stands at another device (R200). -/
def remoteWho : Requester → RemoteWho
  | .fn _ => .pf
  | .husk => .husk
  | _ => .hull

/-- An access to another device goes over Nygoham; one to a device that no path reaches ends at once (R38, R462). -/
def sendAway (d : Nat) (req : AccessReq) (s : State) : State :=
  match req.target with
  | .addr g =>
    if reachable s d then sendRequest d (reqHull s req.who) (.direct req) (fun h => .request h (remoteWho req.who) g req.op) s
    else
      let id := s.tier.nextId
      { s with tier := { s.tier with nextId := id + 1
                                     ended := s.tier.ended ++ [(⟨id, req, RSP_UNREACHABLE, BitVec.ofNat 64 d, failData req.op⟩ : Ended)] } }
  | _ => s

/-- TIER_ACCESS: an access reaches its controller's queue, where its deadline starts: the oldest chunk of a crossing that a
stream engine put on the crossbar, or another requester's access. One to another device travels there instead (R38). -/
def execTierAccess (src : AccessSrc) (s : State) : Result :=
  match src with
  | .xbar id =>
    match s.tier.xbar.find? (·.id = id) with
    | none => .next s
    | some a =>
      if (firstAcross s a).map (·.id) ≠ some a.id then .next s
      else .next { s with tier := { s.tier with
        xbar := s.tier.xbar.filter (·.id ≠ id), queue := s.tier.queue ++ [a] } }
  | .direct req =>
    match awayFrom s req with
    | some d => .next (sendAway d req s)
    | none => .next (present (directUse req) req s)

/-! ### The end of an access (R199, R203, R204, R224) -/

/-- The answer of an access goes where its requester takes it. -/
def answerTo (a : Access) (code at_ : Nat) (addr : DWord) (data : List Byte) (s : State) : State :=
  match a.use with
  | .plain => { s with tier := { s.tier with ended := s.tier.ended ++ [(⟨a.id, a.req, code, addr, data⟩ : Ended)] } }
  | .cxl => cxlEnded a.req code data s
  | .channel c => channelEnded c a.id code at_ addr data s
  | .command q =>
    (match s.host.running.find? (fun r => r.seqNo = q) with
     | some r => accessDone r a.req.op code at_ addr data s
     | none => s)
  | .remote hdr => remoteEnded hdr a.req code data s

/-- An access leaves its controller with its response. -/
def endAccess (a : Access) (code at_ : Nat) (addr : DWord) (data : List Byte) (s : State) : State :=
  pumpFences (answerTo a code at_ addr data
    { s with tier := { s.tier with queue := s.tier.queue.filter (·.id ≠ a.id) } })

/-- What an access's spot answers, with the address that failed; a channel's write is answered by granules (R328). -/
def answerOf (a : Access) (s : State) : Ans × DWord :=
  let s := noteHeat a.req.who a.req.target a.req.op s
  let whole :=
    let r := answer true a.req.who a.req.target a.req.op s
    (r, failAddr s a.req.who a.req.target a.req.op r.at_)
  match a.use, a.req.op with
  | .channel c, .write _ => storeItem c s
  | _, _ => whole

/-- A granted access completes with what its spot answers. -/
def finishAccess (a : Access) (s : State) : State :=
  let r := answerOf a s
  endAccess a r.1.code r.1.at_ r.2 r.1.data r.1.s

/-- Whether the controller of an access serves (R22); an access to tile space waits at the crossing to its tile while the
pod's PLL relocks (R55). -/
def controllerOn (s : State) (a : Access) : Bool :=
  match spaceOf s a.req.who a.req.target a.req.op with
  | some p => spaceOn s p.space p.off && (p.space ≠ 3 || podSide s (tsTile p.off))
  | none => true

/-- TIER_ACCESS_END: a granted access completes, or waits for the recovery of a granule of a clean copy (R203, R204). -/
def execTierAccessEnd (id : Nat) (s : State) : Result :=
  match s.tier.queue.find? (·.id = id) with
  | none => .next s
  | some a =>
    if a.recover || !controllerOn s a || ((arbiterFor s a).isSome && !a.granted) then .next s
    else match awaitsRecovery s a with
      | some _ => .next { s with tier := { s.tier with
          queue := s.tier.queue.map (fun b => if b.id = id then { b with recover := true } else b) } }
      | none => .next (finishAccess a s)

/-- The end of an access whose granule no recovery could serve: the granule is poisoned now, and the access ends with
UNCORRECTABLE where it fails at that granule (R204). -/
def endUnrecovered (a : Access) (dT : Bool) (g : Nat) (s : State) : State :=
  let fa := globalAddr s (if dT then 1 else 0) (g * 64)
  let q := answerOf a s
  let mine := q.1.code = RSP_POISONED && q.2.toNat / 64 = fa.toNat / 64
  endAccess a (if mine then RSP_UNCORRECTABLE else q.1.code) q.1.at_ q.2 q.1.data q.1.s

/-- RECOVERY_COMPLETE: the recovery read of the first granule that the access waits for has ended, OK or not; the granule
is rewritten, or poisoned, and the access completes when no other granule waits (R204). -/
def execRecoveryComplete (id : Nat) (ok : Bool) (s : State) : Result :=
  match s.tier.queue.find? (·.id = id) with
  | none => .next s
  | some a =>
    if !a.recover || !controllerOn s a then .next s
    else match awaitsRecovery s a with
      | none => .next (finishAccess a s)
      | some (dT, g) =>
        let r := readGranule dT ok 0 g s
        if r.1 = RSP_UNCORRECTABLE then .next (endUnrecovered a dT g r.2)
        else match awaitsRecovery r.2 a with
          | some _ => .next r.2
          | none => .next (finishAccess a r.2)

/-- ACCESS_DEADLINE_EXPIRY: a D-tier access 20 µs after its arrival, or an F-tier access 5 ms after it, ends LATE unless it
waits on a recovery (R224). An access that is made in one event of its command or engine is marked before that event. -/
def execAccessDeadlineExpiry (due : DueAccess) (s : State) : Result :=
  match due with
  | .next => .next { s with tier := { s.tier with overdue := true } }
  | .queued id =>
    match s.tier.queue.find? (·.id = id) with
    | none => .next s
    | some a =>
      match spaceOf s a.req.who a.req.target a.req.op with
      | none => .next s
      | some p =>
        if a.recover || !(p.space = 1 || p.space = 2) then .next s
        else
          let r := lateAnswer p a.req.op s
          .next (endAccess a r.code 0 (spotAddr s p 0) r.data r.s)

/-! ### The controllers' own work (R203, R205, R226, R227) -/

/-- The resource and arbiter of a granule of a tier. -/
def granuleArbiter (dTier : Bool) (g : Nat) : Nat × Nat := (if dTier then 1 else 0, arbiterOf dTier (g * 64))

/-- Whether background traffic at a granule is granted now (R264, R265). -/
def backPasses (s : State) (dTier : Bool) (g : Nat) : Bool :=
  let u := granuleArbiter dTier g
  spaceOn s u.1 (g * 64) && passes s u.1 u.2 (backCand s)

/-- The grant of background traffic at a granule. -/
def backGrant (dTier : Bool) (g service : Nat) (s : State) : State :=
  let u := granuleArbiter dTier g
  noteGrant u.1 u.2 service (backCand s) false (endBlocks u.1 u.2 s)

/-- CE_WRITEBACK: a corrected granule is written back, in class 3 (R203). `service` is its service time in 0.1 ns. -/
def execCeWriteback (place : GranuleAt) (service : Nat) (s : State) : Result :=
  let dTier := place.dTier
  let granule := place.granule
  if s.tier.writeback.contains (dTier, granule) && backPasses s dTier granule then
    let s := backGrant dTier granule service s
    let s := if s.badSyms dTier granule = 1 then s.setBadSyms dTier granule 0 else s
    .next { s with tier := { s.tier with writeback := s.tier.writeback.filter (· ≠ (dTier, granule)) } }
  else .next s

/-- PER_BANK_REFRESH: the bank is blocked until its arbiter's next grant: 350 ns or 380 ns (R205). -/
def execPerBankRefresh (dTier : Bool) (unit bank : Nat) (s : State) : Result :=
  if s.tier.blocked.contains (dTier, unit, bank) then .next s
  else
    let s := noteMaint (if dTier then 1 else 0) unit (if dTier then 3800 else 3500) s
    .next { s with tier := { s.tier with blocked := s.tier.blocked ++ [(dTier, unit, bank)] } }

/-- SCRUB_READ: the winnow engine reads a written granule of an allocation in class 3: it corrects, recovers or poisons (R226,
R227). An N-tier pass is complete with the tier's last written granule. `service` is its service time in 0.1 ns. -/
def execScrubRead (place : GranuleAt) (service : Nat) (s : State) : Result :=
  let dTier := place.dTier
  let granule := place.granule
  let off := granule * 64
  if !s.written dTier (off / PAGE) || ((allocAt s dTier off).isNone && (dTier || N_SYSTEM ≤ off))
    || !backPasses s dTier granule then .next s
  else
    let r := readGranule dTier true 2 granule (backGrant dTier granule service s)
    if !dTier && lastGranule s false = some granule then .next (r.2.addSat 0x201004 1)
    else .next r.2

end Sys2Proof.Machine
end

