-- ==== Sys2Proof/Machine/Twin.lean ====
section
/-! DEFINITION. Twin pairs: arming, the standby's staging and applying of epochs, heartbeats, takeover, the exchange of
roles, and the loss of a device of a hull (R4, R384–R394, R399, R407, R436). -/

namespace Sys2Proof.Machine

/-! ### Arming (R4, R384, R407) -/

/-- The fused role: true = role B (R7). -/
def twinFuse (s : State) : Bool := bit (s.rd32 0x0) 24

def ifMajor (s : State) : Nat := bits (s.rd32 DEV_IFVER) 8 8
def ifMinor (s : State) : Nat := bits (s.rd32 DEV_IFVER) 0 8

/-- What a standby must not hold (R384). The ring that carries TWIN_ARM is the one that may be enabled. -/
def holdsState (s : State) (ring : Nat) : Bool :=
  (tkeys s.srv.hulls).any (fun h => (s.hull h).live || (s.hull h).pods ≠ []) || boundSlots s ≠ []
    || (handles s).any (fun h => (s.tensor h).origin ≠ 2) || (enabledRings s).any (· ≠ ring)

/-- The running TWIN_ARM that waits for its complement. -/
def armRun (s : State) : Option Running :=
  s.host.running.find? (fun r => match r.kind with | .arming _ _ paired => !paired | _ => false)

/-- Steps that waited for the standby's acknowledgement go on (R29, R387, R393). -/
def releaseSteps (s : State) : State :=
  (tkeys s.srv.hulls).foldl (fun s h => match (s.hull h).step with
    | some st => if st.epoch.isSome && !awaitsAck s st then commitStep h s else s
    | none => s) s

/-- An arm that comes to nothing: the module's state is what it was. -/
def failArm (r : Running) (status detail : Nat) (s : State) : State :=
  let was := match r.kind with | .arming _ w _ => w | _ => 0
  finishRun r status 0 detail (if s.rd TWIN_STATE = 1 then s.wr TWIN_STATE was else s)

/-- Mirror traffic of an earlier pair that has not left. -/
def dropMirror (s : State) : State :=
  refreshLag ([16, 17].foldl (fun s p =>
    let t := s.port p
    s.setPort p { t with egress := (unbegun t).filter (fun x => !isMirror x.2), sent := [] }) s)

/-- The pair forms, or the two arms do not fit: the same role (R4), the same action (R384), another IF_MAJOR (R407), or a
standby that has come to hold what it must not hold (R384). -/
def pairUp (r : Running) (active : Bool) (p : Bool × Bool × Nat × Nat) (s : State) : State :=
  let s := { s with twin := { s.twin with armed := none } }
  if p.2.1 = twinFuse s then failArm r ST_TWIN_ROLE 0 s
  else if p.1 = active then failArm r ST_TWIN_NO_PARTNER 0 s
  else if p.2.2.1 ≠ ifMajor s then
    failArm r ST_INCOMPATIBLE (p.2.2.2 + p.2.2.1 * 2 ^ 8 + min p.2.2.2 (ifMinor s) * 2 ^ 16) s
  else if !active && holdsState s r.ring then failArm r ST_HULL_BUSY 0 s
  else
    let s := dropMirror { s with twin := { s.twin with
      nextEpoch := 1, expect := 1, staged := [], snapEpoch := none, rings := [], cq := [], outputs := [], skips := []
      unsent := [], seenTakeover := false } }
    let s := ((s.wr64 TWIN_SENT 0).wr64 TWIN_ACKED 0).wr64 TWIN_APPLIED 0
    if active then
      let was := match r.kind with | .arming _ w _ => w | _ => 0
      sendSnapshot (setTwa 1 ((setRun { r with kind := .arming true was true } s).wr TWIN_ACTIVE 1))
    else finishRun r ST_OK 0 0 (setTwa 2 ((s.wr TWIN_ACTIVE 0).wr TWIN_STATE 2))

/-- Requests mirrored to a standby that leaves its pair are not its own: they leave the table. -/
def dropMirrored (s : State) : State :=
  refreshLive ((liveIdx s).foldl (fun s i => releaseKv (s.request i) (s.setRequest i {})) s)

/-- The pair disarms, and this module is unpaired; `tell` says whether the partner is to be told (R384). -/
def disarm (tell : Bool) (s : State) : State :=
  let paired := s.rd TWIN_STATE = 2 || s.rd TWIN_STATE = 3
  let s := if isStandby s then dropMirrored s else s
  let s := if tell && paired then sendTwin .disarm s else s
  let s := s.host.running.foldl (fun s r => match r.kind with
    | .arming _ _ _ => finishRun r ST_TWIN_NO_PARTNER 0 0 s
    | _ => s) s
  let s := setTwa 4 ((s.wr TWIN_STATE 0).wr TWIN_ACTIVE 0)
  releaseSteps { s with twin := { s.twin with armed := none, staged := [], snapEpoch := none, rings := [] } }

/-- TWIN_ARM (R384, R407). -/
def execTwinArm (ring : Nat) (s : State) : Result :=
  hostCommand 0x52 ring (fun c s =>
    let a := c.p 12 1
    if a = 0 then c.done ST_OK 0 0 (disarm true s)
    else if a = 2 && holdsState s ring then c.done ST_HULL_BUSY 0 0 s
    else
      let active := a = 1
      let r := c.run (.arming active (s.rd TWIN_STATE) false)
      let s := startRun r (sendTwin (.arm active (twinFuse s) (ifMajor s) (ifMinor s)) s)
      let s := if mirroring s then s else s.wr TWIN_STATE 1
      match s.twin.armed with
      | some p => pairUp r active p s
      | none => s) s

/-- COMPLEMENTARY_ARM: the partner's TWIN_ARM reaches this module; with ACTION 0 both become unpaired (R384). -/
def execComplementaryArm (action : ArmAction) (role : Bool) (ifMajor ifMinor : Nat) (s : State) : Result :=
  if action = .disarm then .next (disarm false s)
  else
    let p := (decide (action = .active), role, ifMajor, ifMinor)
    match armRun s with
    | none => .next { s with twin := { s.twin with armed := some p } }
    | some r => .next (pairUp r (match r.kind with | .arming a _ _ => a | _ => false) p s)

/-- TWIN_ARM_TIMEOUT: 10 s without a complementary arm, on this module or for an arm of the partner's (R384). -/
def execTwinArmTimeout (s : State) : Result :=
  match armRun s with
  | some r => .next (failArm r ST_TWIN_NO_PARTNER 0 s)
  | none => .next { s with twin := { s.twin with armed := none } }

/-! ### What an epoch's records do on a standby (R385) -/

/-- The standby's own F-tier copy of an origin, by archive and place. -/
def ownOrigin (s : State) (archive place : Nat) : Option FTensor :=
  if archive = 0 then s.flash.base[place]?
  else if (tget s.flash.archives archive {}).live then (tget s.flash.archives archive {}).members[place]? else none

/-- The entry that a record gives a handle here: no move in progress, F-origin pointed at this module's own copy. -/
def mirrorTensor (s : State) (h : Nat) (e : BitVec 512) (archive place : Nat) : Tensor :=
  let t := { tensorOf (s.tensor h) e with move := 0, moveUp := false }
  if t.origin ≠ 2 then { t with fGone := false, archive := 0 }
  else match ownOrigin s archive place with
    | some f => { t with fBase := f.fBase, archive, fGone := false }
    | none => { t with archive, fGone := true }

/-- Whether a copy of a tensor stays where it is. -/
def keepsN (a b : Tensor) : Bool := a.inN && b.inN && a.nBase = b.nBase && copySize a = copySize b && a.fixed = b.fixed
def keepsD (a b : Tensor) : Bool := a.inD && b.inD && a.dBase = b.dBase && copySize a = copySize b && a.fixed = b.fixed

/-- The runs that a tensor's record takes from it, before any record of its epoch gives one. -/
def unplace (h : Nat) (t : Tensor) (s : State) : State :=
  let o := s.tensor h
  let s := setMoves (s.tier.moves.filter (·.handle ≠ h)) s
  let own := fun (a : Alloc) => a.who == .copy h || a.who == .region h
  let s := if keepsN o t then s else clearDirty o.nBase (if o.inN then copySize o else 0) (freeRuns (fun a => own a && !a.dTier) s)
  if keepsD o t then s else freeRuns (fun a => own a && a.dTier) s

/-- A tensor's entry, its runs at the offsets of the record, and its copies' contents from their source here. -/
def place (h : Nat) (t : Tensor) (s : State) : State :=
  let o := s.tensor h
  if !t.valid then (if o.valid then freeTensor h s else s)
  else
    let who : Holder := if t.fixed then .region h else .copy h
    let newN : Bool := t.inN && !keepsN o t
    let newD : Bool := t.inD && !keepsD o t
    let s := if newN then takeRun false t.nBase (copySize t) who s else s
    let s := if newD then takeRun true t.dBase (copySize t) who s else s
    let s := s.setTensor h t
    let s := if newD && t.origin = 2 && !t.fGone then copyStage h s else s
    if newN && t.inD then copyUp h s else s

/-- A hull's parameters from the entry of its HULL_CREATE, its package and its handles, on this module's own pods. -/
def mirrorHull (h : Nat) (entry : BitVec 512) (pkg : Nat) (hs saves : List Nat) (s : State) : State :=
  let rd := pkgRead s pkg
  let s := if (s.hull h).live then releaseMirror h s else s
  match choosePods (pkPods rd) (pkShapeW rd) (pkShapeH rd) (Config.choice s.free) (podFree s) with
  | none => s
  | some (stage, ps) =>
    let dv := hullDevices rd { s with free := s.free + 1 }
    let rs := tierReqs rd (s.tensor pkg).elem
    let hl : Hull := {
      live := true, entry, pods := ps, stage, graph := BitVec.ofNat 64 (pkGraph rd), pkg, configs := pkConfigs rd,
      compat := pkCompat rd, multi := pkMulti rd, realtime := pkRealtime rd, devIndex := pkDevIndex rd,
      devCount := pkDevCount rd, wdog := pkWdog rd, rows := eb entry 32 2, sprouts := eb entry 34 1, kvb := eb entry 36 4,
      devices := dv.1, handles := hs, saves, kvN := reqHandle hs (eb entry 40 2), kvD := reqHandle hs (eb entry 42 2),
      manifest := reqHandle hs (eb entry 44 2), expmap := reqHandle hs (eb entry 46 2),
      pinned := if pkRealtime rd then worksetOf rs hs else [] }
    let s := saves.foldl (fun s b => takeRun false b SAVE_BYTES (.save h) s) dv.2
    let s := fillRequests pkg rs hs hl.devices (fun _ => true) (s.setHull h hl)
    let r : Running := { ring := 0, fn := 0, entry, seqNo := s.host.nextSeq, kind := .mirroring h 0, quiet := true }
    let s := { s with host := { s.host with nextSeq := s.host.nextSeq + 1 } }
    advanceHull h (powerPods ps (startRun r (refreshHeat s)))

/-- A hull's record. -/
def applyHull (h : Nat) (live : Bool) (entry : BitVec 512) (pkg : Nat) (hs saves : List Nat) (s : State) : State :=
  let o := s.hull h
  if !live then (if o.live then releaseMirror h s else s)
  else if o.live && o.entry = entry && o.pkg = pkg && o.handles = hs && o.saves = saves then s
  else mirrorHull h entry pkg hs saves s

/-- A request's record: the entry keeps its place in the order of arrival. -/
def applyRequest (i ring fn : Nat) (entry : BitVec 512) (state progress : Nat) (step : DWord)
    (steps lastTok prefilled kvN kvD : Nat) (s : State) : State :=
  let o := s.request i
  let same : Bool := o.used && o.ring = ring && o.entry = entry
  let base : Request := if same then o else { order := s.host.nextSeq, seqNo := s.host.nextSeq }
  let s := if same then s else
    { s with host := { s.host with nextSeq := s.host.nextSeq + 1 }
             twin := { s.twin with skips := s.twin.skips ++ [(ring, entrySeq entry)] } }
  s.setRequest i { base with
    used := true, ring, fn, entry, hull := entryHull entry, tenant := entryTenant entry, gen := entryOpcode entry = 0x31
    state, progress, stepVal := step, steps, lastTok, prefilled, kvN, kvD }

/-- A completion's record, and the final completion of the request that it ends. -/
def applyCompletion (ring slot : Nat) (raw : BitVec 256) (s : State) : State :=
  let seq := bits raw.toNat 16 16
  let s := { s with twin := { s.twin with
    cq := tput s.twin.cq (ring * 65536 + slot) raw 0, skips := s.twin.skips ++ [(ring, seq)] } }
  match s.srv.reqs.find? (fun e => e.2.used && !isLive e.2 && e.2.ring = ring && entrySeq e.2.entry = seq && e.2.finalRaw = 0) with
  | some e => s.setRequest e.1 { e.2 with
      finalRaw := BitVec.ofNat 256 (setBits raw.toNat 191 1 0), finalAt := s.srv.order }
    |> fun s => { s with srv := { s.srv with order := s.srv.order + 1 } }
  | none => s

/-- A shell's record. -/
def mirrorShell (h : Nat) (x : Nat × Nat × Nat) (s : State) : State :=
  let hl := s.hull h
  let s := s.setHull h { hl with shells := hl.shells.filter (fun y => y.1 ≠ x.1) ++ [x] }
  if hl.live && (runOf s h).isNone then applyShell h s x else s

/-- A granule's record, at the same tier offset here. -/
def applyGranule (g : DWord) (data : List Byte) (s : State) : State :=
  if gSpace g < 2 then storeBytes (gSpace g = 1) (gOffset g) data s else s

/-- One record other than a tensor's or a granule's. -/
def applyRec (s : State) : MirrorRec → State
  | .granule _ _ => s
  | .tensor _ _ _ _ => s
  | .slot i bound identity owner rate burst floor level reserved =>
    let v := s.slot i
    if !bound then s.setSlot i {}
    else s.setSlot i { v with bound, identity, owner, rate, burst, floor, level, reserved,
                              since := if v.bound && v.floor = floor then v.since else s.sched.frame }
  | .cyc bank index entry => setCycEntry bank (index / 4) (index % 4) entry s
  | .cycBank bank => refreshCycSlots (s.wr CYC_BANK bank)
  | .request i ring fn entry state progress step steps lastTok prefilled kvN kvD =>
    applyRequest i ring fn entry state progress step steps lastTok prefilled kvN kvD s
  | .output fn addr data => { s with twin := { s.twin with outputs := s.twin.outputs ++ [(fn, addr, data)] } }
  | .completion ring pos raw => applyCompletion ring pos raw s
  | .ring n a b c d e f g i =>
    { s with twin := { s.twin with
      rings := tput s.twin.rings n (some (.ring n a b c d e f g i)) none
      skips := s.twin.skips.filter (fun x => x.1 ≠ n) } }
  | .hull i live entry pkg hs saves => applyHull i live entry pkg hs saves s
  | .shell h slot cfg pkg => mirrorShell h (slot, cfg, pkg) s

/-- Every hull's KV use is that of its live requests. -/
def recountKv (s : State) : State :=
  (tkeys s.srv.hulls).foldl (fun s h =>
    let qs := (hullRequests s h).map (s.request ·)
    s.setHull h { s.hull h with kvNUsed := qs.foldl (fun n q => n + q.kvN) 0, kvDUsed := qs.foldl (fun n q => n + q.kvD) 0 }) s

/-- The granules of a body. -/
def applyGranules (body : List MirrorRec) (s : State) : State :=
  body.foldl (fun s r => match r with | .granule g d => applyGranule g d s | _ => s) s

/-- A body's records: tensor entries first, then tier contents, which hulls are created from and then take again. -/
def applyBody (body : List MirrorRec) (s : State) : State :=
  let ts := body.filterMap (fun r => match r with
    | .tensor h e a p => some (h, mirrorTensor s h e a p)
    | _ => none)
  let s := ts.foldl (fun s x => unplace x.1 x.2 s) s
  let s := ts.foldl (fun s x => place x.1 x.2 s) s
  let s := applyGranules body (refreshHeat s)
  refreshLive (recountKv (applyGranules body (body.foldl applyRec s)))

/-- What this module holds and a snapshot does not name leaves it. -/
def clearMirror (body : List MirrorRec) (s : State) : State :=
  let ts := body.filterMap (fun r => match r with | .tensor h _ _ _ => some h | _ => none)
  let hs := body.filterMap (fun r => match r with | .hull h live _ _ _ _ => if live then some h else none | _ => none)
  let s := ((tkeys s.srv.hulls).filter (fun h => !hs.contains h)).foldl (fun s h => releaseMirror h s) s
  let s := ((handles s).filter (fun h => !ts.contains h)).foldl (fun s h => freeTensor h s) s
  { s with srv := { s.srv with slots := [], reqs := [] }
           sched := { s.sched with table := [] }
           twin := { s.twin with rings := [], cq := [], outputs := [], skips := [] } }

/-- An epoch applied in its turn (R386). A STEP epoch commits its hull's step. -/
def applyEpoch (e : Staged) (s : State) : State :=
  let s := if e.hdr.kind = 2 then clearMirror e.body s else s
  let s := applyBody e.body s
  let s := s.wr64 TWIN_APPLIED e.hdr.epoch
  let hl := s.hull e.hdr.hull
  if e.hdr.kind = 0 && hl.live then
    s.setHull e.hdr.hull { hl with committed := hl.committed + 1, stepNo := hl.stepNo + 1, lastStart := e.hdr.step }
  else s

/-- Marked epochs in number order, up to the first whose marker is still to come. -/
def applyMarked : Nat → State → State
  | 0, s => s
  | n + 1, s =>
    match s.twin.staged with
    | e :: es => if e.marked then applyMarked n (applyEpoch e { s with twin := { s.twin with staged := es } }) else s
    | [] => s

/-! ### Receiving (R386) -/

/-- A new snapshot is asked for: the pair is SYNCING, and what is staged is of no use. -/
def askSnapshot (epoch cause : Nat) (s : State) : State :=
  let s := { s with twin := { s.twin with staged := [], snapEpoch := none } }
  (twinResync epoch cause (sendTwin (.snapshotRequest epoch cause) s)).wr TWIN_STATE 2

/-- Whether a SYNCING standby still waits for the header of a snapshot. -/
def lacksSnapshot (s : State) : Bool :=
  s.rd TWIN_STATE = 2 && s.twin.snapEpoch.isNone && s.twin.staged.all (fun e => e.hdr.kind ≠ 2)

/-- EPOCH_RECEIVE: the standby stages an epoch until its marker arrives. -/
def execEpochReceive (hdr : EpochHdr) (body : List MirrorRec) (s : State) : Result :=
  if !isStandby s then .next s
  else if hdr.kind = 2 then
    .next ({ s with twin := { s.twin with staged := [{ hdr, body }], snapEpoch := none, expect := hdr.epoch + 1 } }.wr TWIN_STATE 2)
  else if lacksSnapshot s then .next s
  else if hdr.epoch ≠ s.twin.expect then .next (askSnapshot s.twin.expect 1 s)
  else .next { s with twin := { s.twin with staged := s.twin.staged ++ [{ hdr, body }], expect := hdr.epoch + 1 } }

/-- EPOCH_MARKER_RECEIVE: the marker's CRC against that of what is staged, ABORT, acknowledgement, and in READY the epochs' application in number order. -/
def execEpochMarkerReceive (epoch : Nat) (abort : Bool) (crc : DWord) (s : State) : Result :=
  if !isStandby s || lacksSnapshot s then .next s
  else match s.twin.staged.find? (fun e => e.hdr.epoch = epoch && !e.marked) with
    | none => .next (askSnapshot epoch 1 s)
    | some e =>
      if crc.toNat ≠ epochCrc e.hdr e.body then .next (askSnapshot epoch 2 s)
      else if abort then
        let s := { s with twin := { s.twin with staged := s.twin.staged.filter (fun x => x.hdr.epoch ≠ epoch) } }
        let s := sendTwin (.ack epoch) s
        .next (if s.rd TWIN_STATE = 3 then applyMarked s.twin.staged.length s else s)
      else
        let s := { s with twin := { s.twin with
          staged := s.twin.staged.map (fun (x : Staged) => if x.hdr.epoch = epoch then { x with marked := true } else x) } }
        if e.hdr.kind = 2 then .next { s with twin := { s.twin with snapEpoch := some epoch } }
        else
          let s := sendTwin (.ack epoch) s
          .next (if s.rd TWIN_STATE = 3 then applyMarked s.twin.staged.length s else s)

/-- SNAPSHOT_APPLIED: the standby has applied the snapshot, and the epochs after it follow in number order; the pair is
READY (R384, R386). -/
def execSnapshotApplied (s : State) : Result :=
  match s.twin.snapEpoch with
  | none => .next s
  | some n =>
    if !isStandby s then .next s
    else
      let s := { s with twin := { s.twin with snapEpoch := none } }
      let s := sendTwin (.ack n) (applyMarked s.twin.staged.length s)
      .next (s.wr TWIN_STATE 3)

/-- TWIN_COMMIT_MAX: the longest wait of a step for its acknowledgement. The rows carry no times, so a wait is open within the
bound of R387: 1.6 µs, and the unsent bytes at 224 B, or with one twin port 112 B, a ns. -/
def noteWait (epoch : Nat) (s : State) : State :=
  let n := tget s.twin.unsent epoch 0
  if n = 0 then s
  else
    let rate := if portUp s 16 && portUp s 17 then 224 else 112
    let f := s.fresh
    let s := { f.2 with twin := { f.2.twin with unsent := s.twin.unsent.filter (fun x => epoch < x.1) } }
    s.wr32 TWIN_COMMIT_MAX (max (s.rd32 TWIN_COMMIT_MAX) (f.1.toNat % (1601 + ceilDiv n rate)))

/-- EPOCH_ACK_RECEIVE: the active's steps may go on; the acknowledged snapshot makes the pair READY, and TWIN_ARM completes
(R29, R384, R387). -/
def execEpochAckReceive (epoch : Nat) (s : State) : Result :=
  if !mirroring s then .next s
  else
    let s := noteWait epoch (s.wr64 TWIN_ACKED (max epoch (s.rd64 TWIN_ACKED)))
    let s :=
      if s.twin.snapEpoch = some epoch && s.rd TWIN_STATE = 2 then
        let s := { s with twin := { s.twin with snapEpoch := none } }
        finishRuns (fun r => match r.kind with | .arming _ _ paired => paired | _ => false) ST_OK 0 (s.wr TWIN_STATE 3)
      else s
    .next (releaseSteps s)

/-- NEW_SNAPSHOT_REQUEST: the active counts it, the pair is SYNCING, and a snapshot goes out (R386). -/
def execNewSnapshotRequest (epoch cause : Nat) (s : State) : Result :=
  if !mirroring s then .next s else .next (releaseSteps (sendSnapshot (twinResync epoch cause s)))

/-! ### Heartbeats, the loss of the link, takeover (R389–R394) -/

/-- TWIN_HEARTBEAT_SEND: on the twin ports that are up; none from the start of a reset until READY (R399). -/
def execTwinHeartbeatSend (s : State) : Result :=
  .next ([16, 17].foldl (fun s p =>
    if s.rdB BOOT_READY && portUp s p then sendOn p none (.twin .heartbeat) s else s) s)

/-- A module parks by a twin rule: its hulls halt at their boundaries and no further completion is written (R389). -/
def twinPark (s : State) : State :=
  let s := { s with boot := { s.boot with mute := true }, twin := { s.twin with staged := [], snapEpoch := none } }
  parkDevice (setTwa 4 ((s.wr TWIN_STATE 5).wr TWIN_ACTIVE 0))

/-- A mirrored ring resumes at the mirrored SQ_HEAD (R391): CQ_HEAD stands one round behind the completions that the host
may not have consumed, and the commands in flight are the ring's live requests. -/
def resumeRing (s : State) (x : Nat × Option MirrorRec) : State :=
  match x.2 with
  | some (.ring n cfg owner irq sq cq head tail ctail) =>
    let s := ((s.wr32 (RING_CFG n) cfg.toNat).wr32 (RING_CFG n + 4) owner.toNat).wr32 (RING_CFG n + 8) irq.toNat
    let s := ((s.wr64 (RING_SQ_BASE n) sq).wr64 (RING_CQ_BASE n) cq).wr (RING_SQ_HEAD n) head
    let s := (s.wr (RING_SQ_TAIL n) tail).wr (RING_CQ_TAIL n) ctail
    let size := ringSize s n
    let live := ((liveIdx s).filter (fun i => (s.request i).ring = n)).length
    let waits := (s.host.husk.filter (fun f => f.ring = n)).length + (s.host.running.filter (fun r => r.ring = n && !r.quiet)).length
    let s := s.wr (RING_CQ_HEAD n) ((head + 2 * size - live - waits) % (2 * size))
    let s := (s.wr (RING_INFLIGHT n) (live + waits)).wrB (RING_QUIESCENT n) (live + waits = 0)
    let s := s.wrB (RING_ENABLED n) (s.rdB (RING_ENABLE n))
    s.setRingAux n { s.ringAux n with written := ctail, coalCount := 0, coalTimer := false }
  | _ => s

/-- The completion of the highest position recorded for a CQ slot, written again (R391). -/
def rewriteSlot (s : State) (x : Nat × BitVec 256) : State :=
  let ring := x.1 / 65536
  let slot := x.1 % 65536
  s.emit (.completion (s.rd (RING_OWNER ring)) ring slot (s.rd64 (RING_CQ_BASE ring) + 32 * slot) x.2)

/-- Mirrored rings taken up, their completions rewritten, and every enabled ring's vector signalled once (R391). -/
def takeRings (s : State) : State :=
  let s := s.twin.rings.foldl resumeRing s
  let s := s.twin.cq.foldl rewriteSlot s
  (enabledRings s).foldl (fun s n => s.signalMsi (s.rd (RING_OWNER n)) (s.rd (RING_VECTOR n))) s

/-- A hull starts from the state that HULL_CREATE leaves: slot 0 ACTIVE and tile state zero (R390). -/
def freshHull (h : Nat) (s : State) : State :=
  let hl := s.hull h
  let ps := hl.pods.filter (fun p => s.rd (POD_STATE p) = POD_LOADED)
  let s := { s with srv := { s.srv with hulls := tput s.srv.hulls h { hl with step := none, nextSlot := 0 } {} } }
  checkActive h (ps.foldl (fun s p =>
    let others := (List.range 4).map (fun k => s.rd (SHL_SLOT p k))
    let s := (List.range 160).foldl (fun s l =>
      let k := p * 160 + l
      s.setTile k { shell := (s.tile k).shell }) s
    let s := startShells hl.configs p s
    (List.range 4).foldl (fun s k => if hl.configs ≤ k && others.getD k 0 ≠ 0 then s.wr (SHL_SLOT p k) 2 else s) s) s)

/-- Requests whose last step lay in a torn epoch: those that its body names, and the RUNNING ones of its hull (R390). -/
def markReplayed (e : Staged) (s : State) : State :=
  let named := e.body.filterMap (fun r => match r with
    | .request i _ _ _ _ _ _ _ _ _ _ _ => some i
    | _ => none)
  (liveIdx s).foldl (fun s i =>
    let q := s.request i
    if named.contains i || (e.hdr.kind = 0 && q.hull = e.hdr.hull && q.state = REQ_RUNNING) then
      s.setRequest i { q with replayed := true }
    else s) s

/-- The failed module's fabric ID, if it held one, is answered for here, and a route update floods (R390). -/
def answerFor (s : State) : State :=
  match s.twin.partner with
  | none => s
  | some d => linksChanged ((s.wr FAB_ALIAS d).wr FAB_ALIAS_VALID 1)

/-- A takeover, from the announcement to the first steps (R389–R391); it is a cause of every tenant's shortfall (R291). -/
def takeover (s : State) : State :=
  let s := setTwa 3 (sendTwin .takingOver (s.wr TWIN_STATE 6))
  if s.twin.seenTakeover && twinFuse s then twinPark s
  else
    let torn := s.twin.staged.filter (fun e => !e.marked)
    let s := { s with twin := { s.twin with staged := s.twin.staged.filter (·.marked) } }
    let s := applyMarked s.twin.staged.length s
    let s := if torn = [] then s else s.raise TWIN_STATUS 6
    let s := torn.foldl (fun s e => markReplayed e s) s
    let s := s.twin.outputs.foldl (fun s o => dmaOut o.1 o.2.1 o.2.2 s) s
    let s := takeRings s
    let s := recordEvent 0x0602 none none (payload [(32, 8, s.rd64 TWIN_APPLIED), (40, 1, b2n (torn ≠ [])),
      (41, 1, b2n s.twin.seenTakeover)]) s
    let s := ((s.wr TWIN_ACTIVE 1).raise TWIN_STATUS 4).addSat TWIN_TAKEOVERS 1
    let s := (tkeys s.srv.hulls).foldl (fun s h => freshHull h s) s
    let s := (boundSlots s).foldl (fun s t => noteCause t 2 0 s) s
    formAll (setTwa 1 (answerFor s))

/-- The active is LOST: it serves unmirrored (R393). -/
def loseTwin (s : State) : State :=
  let s := recordEvent 0x0601 none none (payload [(32, 8, s.rd64 TWIN_ACKED)]) s
  let s := finishRuns (fun r => match r.kind with | .arming _ _ paired => paired | _ => false) ST_TWIN_NO_PARTNER 0 s
  releaseSteps ((s.wr TWIN_STATE 4).raise TWIN_STATUS 5)

/-- TWIN_HEARTBEAT_TIMEOUT: no valid flit on either twin port for 10 µs, and the twin-alive signal read in the next 5 µs
(R389, R393, R394). -/
def execTwinHeartbeatTimeout (s : State) : Result :=
  if mirroring s then .next (loseTwin s)
  else if !isStandby s then .next s
  else if s.rd TWIN_STATE = 3 && s.twin.twaIn ≠ 1 then .next (takeover s)
  else .next (twinPark s)

/-- TAKING_OVER_ANNOUNCE: while this module's own takeover runs, role A proceeds and role B parks (R389). -/
def execTakingOverAnnounce (s : State) : Result :=
  let s := { s with twin := { s.twin with seenTakeover := true } }
  if s.rd TWIN_STATE = 6 && twinFuse s then .next (twinPark s) else .next s

/-- TWA_FAULT: TWA_IN carries a code of 5 to 7, which reads as silent and sets TWA_FAULT; any other code is the partner's
state (R436). A reversed header's inputs are ignored (R435). -/
def execTwaFault (code : Nat) (s : State) : Result :=
  if s.pwr.reversed then .next s
  else if 5 ≤ code then .next ({ s with twin := { s.twin with twaIn := 0 } }.raise PWR_SB_STATUS 4)
  else .next { s with twin := { s.twin with twaIn := code } }

/-! ### TWIN_SWITCH (R392) -/

/-- Whether a command on the life of a hull, or a switch, is running. -/
def hullCommands (s : State) : Bool :=
  (tkeys s.srv.hulls).any (fun h => (runOf s h).isSome)
    || s.host.running.any (fun r => match r.kind with | .switching _ _ => true | _ => false)

/-- TWIN_SWITCH: each hull halts and drains. -/
def execTwinSwitch (ring : Nat) (s : State) : Result :=
  hostCommand 0x53 ring (fun c s =>
    if !s.rdB TWIN_ACTIVE || s.rd TWIN_STATE ≠ 3 then c.done ST_TWIN_NOT_ARMED 0 0 s
    else if hullCommands s then c.done ST_HULL_BUSY 0 0 s
    else
      let hs := (tkeys s.srv.hulls).filter (fun h => (s.hull h).live && (s.hull h).fault.isNone && !(s.hull h).awaiting)
      let left := hs.filter (fun h => !(s.hull h).drained)
      let r := c.run (.switching left hs)
      let s := startRun r s
      if left = [] then finishSwitch r hs s else left.foldl (fun s h => beginQuiesce h (beginHalt h s)) s) s

/-- One hull's save blocks arrive and its pods take their tile state from them; blocks that do not pass leave the hull with
its pods IDLE (R157). -/
def restoreBlocks (s : State) (x : Nat × List (Nat × List Byte)) : State :=
  let hl := s.hull x.1
  if !hl.live then s
  else
    let s := x.2.foldl (fun s b => storeBytes false (hl.saves.getD b.1 0) b.2 s) s
    let ls := List.range hl.pods.length
    if ls.any (fun l => !recordGood s x.1 (hl.saves.getD l 0)) then
      (setPods hl.pods POD_IDLE s).setHull x.1 { hl with awaiting := true }
    else
      let s := ls.foldl (fun s l => scanIn x.1 (hl.pods.getD l 0) (hl.saves.getD l 0) s) s
      resumeHull x.1 s

/-- TWIN_SWITCH_SAVE_BLOCKS: the standby restores the hulls and takes the active role; the pair stands READY (R391,
R392). -/
def execTwinSwitchSaveBlocks (blocks : List (Nat × List (Nat × List Byte))) (s : State) : Result :=
  if !isStandby s || s.rd TWIN_STATE ≠ 3 then .next s
  else
    let s := applyMarked s.twin.staged.length s
    let s := blocks.foldl restoreBlocks s
    let s := takeRings s
    let s := { s with twin := { s.twin with
      nextEpoch := s.twin.expect, staged := [], rings := [], cq := [], outputs := [] } }
    let s := s.wr64 TWIN_ACKED (s.twin.nextEpoch - 1)
    .next (formAll (setTwa 1 (s.wr TWIN_ACTIVE 1)))

/-! ### A device of a hull is lost (R399) -/

/-- HULL_PEER_LOSS: 1 ms after a reset device's links were lost, no module answers for its ID. Each hull with pods there is
faulted; the manual gives the fault no record. -/
def execHullPeerLoss (dev : Nat) (s : State) : Result :=
  if s.fab.reports.any (fun u => u.standsFor = some dev) || (s.rdB FAB_ALIAS_VALID && s.rd FAB_ALIAS = dev) then .next s
  else
    .next (((tkeys s.srv.hulls).filter (fun h =>
      let hl := s.hull h
      hl.live && hl.multi && hl.fault.isNone && hl.devices.contains dev)).foldl (fun s0 h =>
        let s := (hullRequests s0 h).foldl (fun s i => finishRuns (fun r => r.kind == .cancelling i) ST_NOTHING_TO_CANCEL 0
          (failRequest i ST_FABRIC_UNREACHABLE (some dev) s)) s0
        let a := s.fresh
        let b := a.2.fresh
        commandEpoch s0 (foreignFault h (b.1 ++ a.1) b.2)) s)

end Sys2Proof.Machine
end

