-- ==== Sys2Proof/Machine/Boot.lean ====
section
/-! DEFINITION. Resets and the power-up sequence: what a reset clears and keeps, the boot ROM's choice of an image, Husk's
start, the load of the system blocks with a pending life-cycle transition, DRAM training, the boot wipe, the registration of
F-tier tensors and READY (R396–R405, R411, R415–R418, R443). -/

namespace Sys2Proof.Machine

/-! ### What a reset keeps (R397–R399, R416) -/

def CAUSE_POWER_ON : Nat := 0
def CAUSE_PERST : Nat := 1
def CAUSE_HOT : Nat := 2
def CAUSE_LINK_DOWN : Nat := 3
def CAUSE_ACTIVATE : Nat := 4
def CAUSE_LIFECYCLE : Nat := 5
def CAUSE_WATCHDOG : Nat := 6
def CAUSE_SIDEBAND : Nat := 7
def CAUSE_TRIP : Nat := 8

/-- Whether a cause resets the PCIe link and its configuration too (R307, R396). -/
def resetsLink (cause : Nat) : Bool := cause ≤ 3

/-- The bits of a register word that a reset keeps: saved and fused values, the recorder's registers except at power-on, the
STORAGE_LOW# input, and, with the link up, what the link and the CXL decoder set (R416, R418, R439, R443). -/
def keptBits (cause o : Nat) : Nat :=
  if o = 0x0 then 0x01000000
  else if o = 0x8 || o = 0xC || o = 0x501004 then 0xFFFFFFFF
  else if o = 0x220000 then 0x1C
  else if 0x220100 ≤ o && o < 0x220110 then 0
  else if 0x220000 ≤ o && o < 0x222000 then 0xFFFFFFFF
  else if o = 0x501010 || o = 0x501014 || o = 0x50101C then 0xFFFFFFFF
  else if o = 0x50F000 then 0xF00
  else if 0x50F008 ≤ o && o < 0x50F028 then 0xFFFFFFFF
  else if cause ≠ 0 && o = 0x600000 then 1
  else if cause ≠ 0 && (o = 0x600004 || o = 0x600008 || o = 0x60001C || o = 0x600028 || o = 0x60002C) then 0xFFFFFFFF
  else if cause ≠ 0 && o = 0x500024 then 0x18000000
  else if !resetsLink cause && (o = DEV_HOST_STATUS || o = DEV_CXL_BASE || o = DEV_CXL_BASE + 4) then 0xFFFFFFFF
  else if !resetsLink cause && o = DEV_CXL_WINDOW then 0x107FF
  else 0

/-- The register words after a reset. -/
def keptWords (cause : Nat) (s : State) : Tab Word :=
  s.bar.foldl (fun m e =>
    let k := BitVec.ofNat 32 (keptBits cause e.1)
    tput m e.1 ((e.2 &&& k) ||| (regReset e.1 &&& ~~~k)) (regReset e.1)) []

/-- Host interface: the tags and orders go on, a link that stays keeps its MSI-X table and decoder. -/
def keptHost (cause : Nat) (h : HostState) : HostState :=
  let n : HostState := { nextTag := h.nextTag, nextSeq := h.nextSeq, perstLow := cause = CAUSE_PERST || cause = CAUSE_POWER_ON }
  if resetsLink cause then n
  else { n with msix := h.msix, linkUp := h.linkUp, perstLow := h.perstLow, cxlBase := h.cxlBase }

/-- The F-tier's media, maps and keys stay; rows not yet programmed and relocations under way are lost (R247, R416). -/
def keptFlash (f : Flash) : Flash :=
  { f with rows := [], relocs := [], newBase := [], archives := f.archives.filter (fun a => a.2.live) }

/-- The power domain keeps the input's condition and the record of trips. -/
def keptPower (p : Power) : Power :=
  { good := p.good, shorted := p.shorted, present := p.present, budget := p.budget, budgetAt := p.budgetAt,
    lastTrip := p.lastTrip, secondTrip := p.secondTrip, resetLow := p.resetLow, reversed := p.reversed, tap := p.tap }

/-- The image slots, and a pending transition (R404, R415). Events held across a reset wait on (R443). -/
def keptBoot (cause : Nat) (b : Boot) : Boot :=
  { images := b.images, lcTarget := b.lcTarget, held := if cause = CAUSE_POWER_ON then [] else b.held }

/-- The recorder lies in always-on SRAM; its copy in the system blocks survives power too (R443). -/
def keptObserve (cause : Nat) (o : Observe) : Observe :=
  let n : Observe := { copy := o.copy, savedLost := o.savedLost, savedFirst := o.savedFirst, savedGen := o.savedGen }
  if cause = CAUSE_POWER_ON then n else { n with loaded := o.loaded, records := o.records }

/-- Everything as a reset of a cause leaves it: default but for what is kept. -/
def clearDevice (cause : Nat) (s : State) : State :=
  let cxl := s.tier.allocs.filter (fun a => !resetsLink cause && a.who == .cxl)
  { bar := keptWords cause s
    counter := s.counter
    host := keptHost cause s.host
    flash := keptFlash s.flash
    tier := { allocs := cxl }
    pwr := keptPower s.pwr
    boot := keptBoot cause s.boot
    fab := { nextTag := s.fab.nextTag, installed := s.fab.installed }
    twin := { twaOut := s.twin.twaOut, twaIn := s.twin.twaIn }
    obs := keptObserve cause s.obs
    free := s.free
    out := s.out
    pending := s.pending }

/-! ### Resets (R396) -/

/-- THERM_ALERT# follows the throttle and the trip (R435). -/
def driveAlert (s : State) : State :=
  let low := s.rdB GRD_ACTIVE || s.pwr.tripped
  if low = s.pwr.alertLow then s
  else
    let s := { s with pwr := { s.pwr with alertLow := low } }
    if s.pwr.reversed then s else s.emit (.thermAlert low)

/-- A boot phase is entered, with its trace point (R400, R454). -/
def enterPhase (n done : Nat) (s : State) : State :=
  trace n [(s.counter.toNat - s.boot.since) / 1000] ({ s with boot := { s.boot with done } }.wr BOOT_PHASE n)

/-- A device reset (R396–R399): the state cleared, the cause and the count recorded, the boot ROM about to run. PARKED after a
second trip stands through every reset but a power-on (R411, R427). Only a power-on sets the step counter to 0 (R398). -/
def resetDevice (cause : Nat) (s : State) : State :=
  let time := s.rd ⟨PWR_BOOT_TIME, 0, 16⟩
  let low := s.pwr.alertLow
  let s := clearDevice cause s
  let now : DWord := if cause = CAUSE_POWER_ON then 0 else s.counter
  let s := { s with
    counter := now
    boot := { s.boot with prevTime := time, since := now.toNat, done := 1 }
    pwr := { s.pwr with alertLow := low } }
  let s := (s.wr PWR_RESET_CAUSE cause).addSat PWR_RESET_COUNT 1
  let s := if cause = CAUSE_WATCHDOG then s.raise PWR_BOOT_STATUS 15 else s
  let s := if cause = CAUSE_TRIP then s.raise GRD_STATUS 4 else s
  let s := if s.pwr.secondTrip then s.wr BOOT_PARKED 1 else s
  driveAlert (setTwa 4 (clearDue (syncFrame s)))

/-- Power is lost: nothing runs, and what stands in power-fed cells is gone (R420). The open-drain THERM_ALERT# goes high,
TWA_OUT and PWR_OK low (R435). The boot time is kept for the event of the next RESET (R445). -/
def losePower (s : State) : State :=
  let t := clearDevice CAUSE_POWER_ON s
  let t := { t with
    pwr := { t.pwr with good := false, budget := 0, alertLow := false }
    boot := { t.boot with done := 0, prevTime := s.rd ⟨PWR_BOOT_TIME, 0, 16⟩ }
    twin := { t.twin with twaOut := 0 } }
  if s.pwr.reversed then t
  else
    let t := if s.pwr.alertLow then t.emit (.thermAlert false) else t
    (if s.twin.twaOut = 0 then t else t.emit (.twaOut 0)).emit (.pwrOk false)

/-- POWER_GOOD: the input has been in range for 10 ms, mated, and removed for 1 s after a short (R400 step 1, R432). -/
def execPowerGood (s : State) : Result :=
  if s.pwr.good then .next s
  else
    let s := { s with pwr := { s.pwr with good := true, shorted := false, present := true, budget := 20000000, budgetAt := 0,
                                          secondTrip := false, lastTrip := none, resetLow := none } }
    let time := s.boot.prevTime
    let s := resetDevice CAUSE_POWER_ON s
    let s := { s with boot := { s.boot with prevTime := time } }
    .next (if s.pwr.reversed then s else s.emit (.pwrOk true))

/-- INPUT_OUT_OF_RANGE: below 46 V or above 58 V for 1 ms (R420). -/
def execInputOutOfRange (s : State) : Result := .next (if s.pwr.good then losePower s else s)

/-- INPUT_SHORT: the protection opens and stays open until the input has been removed for 1 s (R432). -/
def execInputShort (s : State) : Result :=
  if !s.pwr.good then .next { s with pwr := { s.pwr with shorted := true } }
  else
    let t := losePower s
    .next { t with pwr := { t.pwr with shorted := true } }

/-- PERST_ASSERT: an asserting edge (R307, R433). -/
def execPerstAssert (s : State) : Result :=
  .next (if !s.pwr.good then s else resetDevice CAUSE_PERST s)

/-- HOT_RESET (R307). -/
def execHotReset (s : State) : Result :=
  .next (if !s.pwr.good || !s.host.linkUp then s else resetDevice CAUSE_HOT s)

/-- PCIE_LINK_DOWN (R307). -/
def execPcieLinkDown (s : State) : Result :=
  .next (if !s.pwr.good || !s.host.linkUp then s else resetDevice CAUSE_LINK_DOWN s)

/-- MGMT_WATCHDOG_EXPIRY: the watchdog is armed from step 5 (R396, R400). -/
def execMgmtWatchdogExpiry (s : State) : Result :=
  .next (if s.pwr.good && 5 ≤ s.boot.done && !s.boot.recovery then resetDevice CAUSE_WATCHDOG s else s)

/-- Whether a line that has been low for 10 ms may have been high for 100 ms since it was last known low (R435). -/
def mayHaveRisen (s : State) : Bool :=
  match s.pwr.resetLow with
  | none => true
  | some t => t + 110000000 ≤ s.counter.toNat

/-- RESET_REQ: RESET_REQ# low for 10 ms. A line that has not been high for 100 ms since its last reset only sets RESET_STUCK
(R435); where it may have been, which of the two it is stands open (log 25). -/
def execResetReq (s : State) : Result :=
  if !s.pwr.good || s.pwr.reversed then .next s
  else
    let f := s.fresh
    let low := fun (s : State) => { s with pwr := { s.pwr with resetLow := some s.counter.toNat } }
    if s.pwr.resetLow = none then .next (resetDevice CAUSE_SIDEBAND (low s))
    else if mayHaveRisen s && bit f.1.toNat 0 then .next (resetDevice CAUSE_SIDEBAND (low f.2))
    else .next ((low (if mayHaveRisen s then f.2 else s)).raise PWR_SB_STATUS 2)

/-- TRIP_RECOVERY: every sensor has stood at or below 85 °C for 1 s (R427). -/
def execTripRecovery (s : State) : Result :=
  .next (if s.pwr.good && s.pwr.tripped && s.pwr.temps.all (fun x => signed x.2 16 ≤ 85 * 16) then resetDevice CAUSE_TRIP s
    else s)

/-! ### The boot ROM's choice (R403–R405) -/

/-- The record of an image slot. -/
def State.image (s : State) (n : Nat) : Image := tget s.boot.images n {}

def State.setImage (s : State) (n : Nat) (v : Image) : State :=
  { s with boot := { s.boot with images := tput s.boot.images n v {} } }

/-- Whether the image of a slot verifies (R403). -/
def imageVerifies (s : State) (n : Nat) : Bool :=
  let i := s.image n
  s.rdB (FW_VALID n) && i.sound && bit (s.rd KEY_PRESENT) i.keyIndex && !bit (s.rd KEY_REVOKED) i.keyIndex
    && s.rd MIN_SVN ≤ s.rd (FW_SVN n)

/-- The preferred slot. -/
def preferredSlot (s : State) : Nat := if s.rdB (FW_PREFERRED 1) then 1 else 0

/-- A choice of the boot ROM: a slot or recovery, FALLBACK, IMAGE_REJECTED. -/
structure ImageChoice where
  slot     : Option Nat
  fallback : Bool
  rejected : Bool

/-- The rules of R404, in their order. A slot that a rule has left is not taken again by a later one. -/
def chooseImage (s : State) : ImageChoice :=
  let p := preferredSlot s
  let o := 1 - p
  let spent := fun (n : Nat) => !s.rdB (FW_CONFIRMED n) && (s.image n).tried
  let worn := fun (n : Nat) => s.rdB (FW_CONFIRMED n) && 2 ≤ (s.image n).failures
  let other : Option Nat := if !imageVerifies s o || spent o || worn o then none else some o
  if spent p && s.rdB (FW_VALID p) then { slot := other, fallback := true, rejected := !imageVerifies s o }
  else if !imageVerifies s p then { slot := other, fallback := true, rejected := true }
  else if worn p then { slot := other, fallback := true, rejected := !imageVerifies s o }
  else { slot := some p, fallback := false, rejected := false }

/-- Whether the ramp budget, risen to now, lets an action of a step start (R429). -/
def rampReady (a : RampAct) (s : State) : Bool := decide ((min (rampStep a * 100000) (rampDepth s) : Nat) ≤ s.pwr.budget)

/-- The F-tier's domain comes on: its step is taken off the budget, and its ready bit is set (R421, R429). -/
def flashOn (s : State) : State :=
  { (s.wr (PWR_DOMAIN 98) 1).wr ⟨FT_STATUS, 0, 1⟩ 1 with
    pwr := { s.pwr with budget := s.pwr.budget - rampStep (.domainOn 98) * 100000 } }

/-- IMAGE_VERIFY (R400 steps 2 and 4, R404, R405). The F-tier channels of the system blocks are powered and trained first,
once the input is enabled (R432) and the ramp budget allows it (R429). -/
def execImageVerify (s : State) : Result :=
  if !s.pwr.good || s.boot.done ≠ 1 || !s.pwr.present || !rampReady (.domainOn 98) (accrue s) then .next s
  else
    let s := accrue s
    let c := chooseImage s
    let s := flashOn s
    let s := if c.fallback then traceIn 16 64 [(s.counter.toNat - s.boot.since) / 1000] (s.raise PWR_BOOT_STATUS 13) else s
    let s := if c.rejected then s.raise PWR_BOOT_STATUS 14 else s
    match c.slot with
    | none =>
      let s := { s with boot := { s.boot with recovery := true } }
      .next (enterPhase 9 4 (s.wr BOOT_PARKED 1))
    | some n =>
      let i := s.image n
      let trial := !s.rdB (FW_CONFIRMED n)
      let s := s.setImage n { i with failures := i.failures + 1, tried := i.tried || trial }
      .next (enterPhase 1 4 ((s.wr BOOT_SLOT n).wrB BOOT_TRIAL trial))

/-- HUSK_START (R8, R400 step 5): the RESET event, and the FIRMWARE event of a fallback or a rejection. -/
def execHuskStart (s : State) : Result :=
  if !s.pwr.good || s.boot.done ≠ 4 || s.boot.recovery then .next s
  else
    let s := enterPhase 2 5 (s.wr32 DEV_IFVER (s.rd (FW_VERSION (s.rd BOOT_SLOT))))
    let s := recordEvent 0x0801 none none (payload [(32, 1, s.rd PWR_RESET_CAUSE), (34, 2, s.boot.prevTime)]) s
    .next (if bits (s.rd32 PWR_BOOT_STATUS) 13 2 ≠ 0 then firmwareEvent false s else s)

/-! ### Step 6: the system blocks and a pending transition (R235, R371, R415, R416, R443) -/

/-- The write-restricted state is cleared by RETIRED (R245). -/
def clearRestricted (s : State) : State := (s.wr FT_RESTRICTED 0).wr FT_CAUSE 0

/-- A PENDING transition completes: keys, cleared items, fuses, the new state (R415, R416). -/
def finishTransition (s : State) : State :=
  if !s.rdB LC_PENDING then s
  else
    let s := traceIn 16 64 [(s.counter.toNat - s.boot.since) / 1000] s
    let old := s.rd LC_STATE
    let new := s.boot.lcTarget
    let erases : Bool := new = 1 || new = 4
    let s := if erases then cryptoErase s else s
    let s := clearRecords s
    let s := if erases then { s with fab := { s.fab with installed := 0 } } else s
    let s := if new = 4 then clearRestricted s else s
    let s := if old = 0 then s.wr PROVISIONED_FUSE 1 else s
    let s := if new = 4 then s.wr RETIRED_FUSE 1 else s
    let s := { (s.wr LC_STATE new).wr LC_PENDING 0 with boot := { s.boot with lcTarget := 0 } }
    recordEvent 0x0802 none none (payload [(32, 1, old), (33, 1, new)]) (s.wr PWR_LC_COUNT (s.rd PWR_LC_COUNT + 1))

/-- The fabric's installation data as committed (R371). -/
def loadInstall (s : State) : State :=
  let v := s.fab.installed
  if !bit v 6 then s
  else recompute (((s.wr32 FAB_INSTALL (setBits v 6 1 0)).wr FAB_DEVICE (bits v 0 6)).wr FAB_VALID 1)

/-- The recorder takes its saved copy back, then the events that Husk held (R443). -/
def reloadRecorder (s : State) : State :=
  let held := s.boot.held
  let s := { s with boot := { s.boot with held := [] } }
  let s := if s.obs.loaded then s
    else
      let n := s.obs.copy.length
      let s := { s with obs := { s.obs with loaded := true, records := s.obs.copy } }
      let s := (s.wr32 EVR_LOST s.obs.savedLost).wr64 EVR_FIRST_LOST s.obs.savedFirst.toNat
      (((s.wr32 EVR_GEN s.obs.savedGen).wr EVR_COUNT n).wrB EVR_STOPPED (4096 ≤ n)).wr EVR_RESTORED 1
  held.foldl (fun s (e : Nat × Option Nat × Option Nat × BitVec 768 × DWord) =>
    recordAt e.2.2.2.2 e.1 e.2.1 e.2.2.1 e.2.2.2.1 s) s

/-- SYSTEM_LOAD (R400 step 6). The fabric is powered, and the twin ports begin to detect. -/
def execSystemLoad (s : State) : Result :=
  if !s.pwr.good || s.boot.done ≠ 5 then .next s
  else
    let s := finishTransition s
    let s := s.wrB FT_BASE_VALID (s.flash.base ≠ [])
    let s := reloadRecorder (loadInstall s)
    let s := wantDomain 99 (enterPort 17 1 (enterPort 16 1 s))
    .next (enterPhase 3 6 s)

/-! ### Steps 7 to 10 (R201, R239, R400, R417) -/

/-- DRAM_TRAIN: Husk asks for the stacks and the halves (R400 step 7). -/
def execDramTrain (s : State) : Result :=
  if !s.pwr.good || s.boot.done ≠ 6 then .next s
  else .next (enterPhase 4 7 ((List.range 14).foldl (fun s i => wantDomain (84 + i) s) s))

/-- A tier's cells after a wipe: zero, valid, not poisoned, unwritten (R417). -/
def wipeTier (dTier : Bool) (s : State) : State :=
  let t := s.tier
  { s with tier := if dTier then { t with dmem := [], dWritten := [], dBad := [], dPoison := [] }
                   else { t with nmem := [], nWritten := [], nBad := [], nPoison := [], dirty := [] } }

/-- PWR_WIPE_STATUS after a wipe. The D-tier's takes at most 0.55 s; its length is not given. -/
def noteWipe (n d : Bool) (s : State) : State :=
  let s := if n then s.wr WIPE_N 1 else s
  if d then (s.fresh.2.wr WIPE_D 1).wr WIPE_MS (s.fresh.1.toNat % 551) else s

/-- The counters that a wipe sets to zero: N-tier, D-tier and placement, serving, schedule, fabric and twin, power and
guardian, and observability, the sampling counters among them (R228, R272, R303, R395, R439, R459). -/
def wipeCounters (s : State) : State :=
  let zero := fun (s : State) (o : Nat) => s.wr32 o 0
  let s := (List.range 12).foldl (fun s u => [0x08, 0x0C, 0x10, 0x20].foldl (fun s r => zero s (unitBlock false u + r)) s) s
  let s := (List.range 2).foldl (fun s u => [0x08, 0x0C, 0x10, 0x14, 0x20].foldl (fun s r => zero s (unitBlock true u + r)) s) s
  let s := [0x201004, 0x201008, HEAT_PROMOTIONS, HEAT_DEMOTIONS, HEAT_DEMANDS, HEAT_GRANTS, HEAT_MOVE_BYTES,
    HEAT_MOVE_BYTES + 4].foldl zero s
  let s := (List.range 13).foldl (fun s i => zero s (DEV_REQ_DONE + 4 * i)) s
  let s := (List.range 4).foldl (fun s r => [0x04, 0x0C, 0x14].foldl (fun s o => zero s (cycRes r + o)) s) (zero s CYC_SWITCHES)
  let s := [FAB_ROUTE_GEN, FAB_TIMEOUTS, FAB_SLICE_DROPS, TWIN_COMMIT_MAX, TWIN_TAKEOVERS, TWIN_RESYNCS,
    TWIN_SENT, TWIN_SENT + 4, TWIN_ACKED, TWIN_ACKED + 4, TWIN_APPLIED, TWIN_APPLIED + 4].foldl zero s
  let s := (List.range 18).foldl (fun s p => (List.range 9).foldl (fun s i => zero s (portBlock p + 8 + 4 * i)) s) s
  let s := [PWR_PEAK, GRD_THROTTLE_US, EVR_SUPPRESSED, EVR_MASKED, LOG_DROPPED, TRC_DROPPED, SMP_SKIPPED, SMP_BYTES, SMP_BYTES + 4,
    SMP_SAMPLES].foldl zero s
  { s with bar := tclear s.bar (TRC_COUNT 0) (TRC_COUNT 1024) }

/-- BOOT_WIPE: both tiers are powered, trained and wiped (R400 step 8). -/
def execBootWipe (s : State) : Result :=
  if !s.pwr.good || s.boot.done ≠ 7 || !(List.range 14).all (fun i => domainIsOn s (84 + i)) then .next s
  else .next (enterPhase 5 8 (wipeCounters (noteWipe true true (wipeTier true (wipeTier false s)))))

/-- The archived tensors, in archive-ID order and archive order (R239). -/
def registerArchives (s : State) : State :=
  (s.flash.archives.filter (fun a => a.2.live)).foldl (fun s a => a.2.members.foldl (fun s f =>
    match registerFTensor f a.1 s with
    | some x => x.2
    | none => s) s) s

/-- TENSOR_REGISTRATION (R239, R400 step 9). -/
def execTensorRegistration (s : State) : Result :=
  if !s.pwr.good || s.boot.done ≠ 8 then .next s
  else
    let s := if s.rdB FT_BASE_VALID then (registerBase s.flash.base s).2 else s
    .next (enterPhase 6 9 (refreshHeat (registerArchives s)))

/-- BOOT_READY (R400 step 10, R411, R418). -/
def execBootReady (s : State) : Result :=
  if !s.pwr.good || s.boot.done ≠ 9 then .next s
  else
    let n := s.rd BOOT_SLOT
    let s := s.setImage n { s.image n with failures := 0 }
    let ms := min 65535 ((s.counter.toNat - s.boot.since) / 1000000)
    let s := enterPhase 7 10 ((s.wr BOOT_READY 1).wr ⟨PWR_BOOT_TIME, 0, 16⟩ ms)
    .next (if s.pwr.secondTrip then s.wr BOOT_PHASE 8 else s)

end Sys2Proof.Machine
end

