-- ==== Sys2Proof/Machine/Lifecycle.lean ====
section
/-! DEFINITION. The power, life-cycle, wipe and firmware commands (R356, R357, R403, R406, R413–R417, R423, R428, R431). -/

namespace Sys2Proof.Machine

/-! ### POWER_POLICY and RAMP_SET (R356, R423, R426, R431) -/

/-- POWER_POLICY: PWR_POLICY takes the parameters; the cap never raises the guardian's limit (R357). -/
def execPowerPolicy (ring : Nat) (s : State) : Result :=
  hostCommand 0x70 ring (fun c s =>
    c.done ST_OK 0 0 (((s.wr PWR_POD_IDLE (c.p 12 1)).wr PWR_IDLE_MS (c.p 16 4)).wr PWR_CAP (c.p 20 4))) s

/-- RAMP_SET (R431). -/
def execRampSet (ring : Nat) (s : State) : Result :=
  hostCommand 0x71 ring (fun c s =>
    c.done ST_OK 0 0 (changeCeiling (fun s => (s.wr PWR_CEILING (c.p 12 4)).wr PWR_LOW_CEILING (c.p 16 4)) s)) s

/-! ### Hulls and pairs as a bar -/

/-- Whether a hull exists on the device: live, or in creation. -/
def anyHull (s : State) : Bool := s.srv.hulls.any (fun h => h.2.live || h.2.pods ≠ [])

/-- Whether the device is paired (R384). -/
def paired (s : State) : Bool := 2 ≤ s.rd TWIN_STATE

/-! ### LIFECYCLE_ADVANCE (R413, R415) -/

/-- The transitions of R413. -/
def transitionAllowed (a b : Nat) : Bool :=
  (a = 0 && b = 1) || (a = 1 && (b = 2 || b = 4)) || (a = 2 && (b = 3 || b = 4)) || (a = 3 && (b = 2 || b = 1 || b = 4))

/-- LIFECYCLE_ADVANCE: the target is recorded as PENDING, the completion is written, and the device resets with cause 5. -/
def execLifecycleAdvance (ring : Nat) (s : State) : Result :=
  hostCommand 0x72 ring (fun c s =>
    let lc := s.rd LC_STATE
    let goal := c.p 12 1
    if c.p 16 4 ≠ 0x4C435943 then c.done ST_BAD_PARAM 0 16 s
    else if !transitionAllowed lc goal then c.done ST_DEVICE_STATE 0 lc s
    else if anyHull s then c.done ST_HULL_BUSY 0 0 s
    else if paired s then c.done ST_DEVICE_STATE 0 lc s
    else
      let s := { s.wr LC_PENDING 1 with boot := { s.boot with lcTarget := goal } }
      resetDevice CAUSE_LIFECYCLE (c.done ST_OK 0 0 s)) s

/-! ### WIPE (R357, R417) -/

/-- Every tensor and region freed; an F-origin registration keeps its handle and loses its DRAM copies (R357). -/
def freeAllTensors (s : State) : State :=
  (handles s).foldl (fun s h =>
    let t := s.tensor h
    if t.origin = 2 then
      let s := setMoves (s.tier.moves.filter (·.handle ≠ h)) s
      let s := freeRuns (fun a => a.who == .copy h) s
      s.setTensor h { t with inN := false, inD := false, nBase := 0, dBase := 0, move := 0, moveUp := false }
    else freeTensor h s) s

/-- A running WIPE completes once every pod is off. -/
def advanceWipe (s : State) : State :=
  if (List.range 80).any (domainIsOn s) then s
  else (s.host.running.filter (fun r => r.kind == .wiping)).foldl (fun s r => finishRun r ST_OK 0 0 (s.wr WIPE_ACTIVE 0)) s

/-- WIPE: the tiers in MASK at once; with bit 0 every pod is powered off through the ramp governor. -/
def execWipe (ring : Nat) (s : State) : Result :=
  hostCommand 0x73 ring (fun c s =>
    let m := c.p 12 1
    if anyHull s then c.done ST_HULL_BUSY 0 0 s
    else
      let s2 := freeAllTensors s
      let s2 := if bit m 1 then wipeTier false s2 else s2
      let s2 := if bit m 2 then wipeTier true s2 else s2
      let s2 := wipeCounters (noteWipe (bit m 1) (bit m 2) (refreshHeat s2))
      commandEpoch s (if bit m 0 && (List.range 80).any (domainIsOn s2) then
        let s2 := (List.range 80).foldl (fun s p => if domainIsOn s p then requestRamp (.domainOff p) s else s) s2
        startRun (c.run .wiping) (s2.wr WIPE_ACTIVE 1)
      else c.done ST_OK 0 0 s2)) s

/-! ### Firmware (R403, R405, R406) -/

/-- Bytes of an image as a number, little-endian, and as a big-endian number of a digest or a signature. -/
def imgNat (b : List Byte) (o n : Nat) : Nat := leNat ((b.drop o).take n)
def imgBig (b : List Byte) (o n : Nat) : Nat := leNat ((b.drop o).take n).reverse

/-- Whether header bytes not listed are zero (R403). -/
def headerZeros (b : List Byte) : Bool :=
  imgNat b 15 1 = 0 && imgNat b 20 44 = 0 && imgNat b 112 272 = 0 && imgNat b 480 32 = 0 && imgNat b 7 1 < 16
    && imgNat b 6 1 < 4 && imgNat b 14 1 < 64

/-- Whether an image as read verifies (R403). -/
def headerVerifies (s : State) (b : List Byte) : Bool :=
  let n := imgNat b 16 4
  let body := (b.drop 512).take n
  let k := imgNat b 6 1
  512 ≤ b.length && imgNat b 0 4 = 0x4B535548 && imgNat b 4 2 = 1 && headerZeros b && 1 ≤ n && n ≤ 33553920
    && 512 + n ≤ b.length && bit (s.rd KEY_PRESENT) k && !bit (s.rd KEY_REVOKED) k
    && Config.sha384 (Config.keyBlock body) == Config.fusedKeyDigest k
    && Config.ecdsaValid (Config.sha384 (b.take 384)) (BitVec.ofNat 768 (imgBig b 384 96)) (Config.keyBlock body)
    && Config.sha384 body == BitVec.ofNat 384 (imgBig b 64 48) && s.rd MIN_SVN ≤ imgNat b 14 1

/-- The slot that does not run. In recovery nothing runs: FIRMWARE_STAGE takes the first slot that does not verify, and
FIRMWARE_ACTIVATE the first that does. -/
def inactiveSlot (s : State) (stage : Bool) : Nat :=
  if !s.boot.recovery then 1 - s.rd BOOT_SLOT
  else if imageVerifies s 0 = stage then 1 else 0

/-- PREFERRED moves to a slot. -/
def prefer (n : Nat) (s : State) : State := (s.wr (FW_PREFERRED n) 1).wr (FW_PREFERRED (1 - n)) 0

/-- FIRMWARE_STAGE: a running TRIAL image keeps its fallback; else the slot becomes invalid, a pending activation is
cancelled, and the image is read (R406). -/
def execFirmwareStage (ring : Nat) (s : State) : Result :=
  hostCommand 0x74 ring (fun c s =>
    let len := c.p 20 4
    if s.rdB BOOT_TRIAL then c.done ST_DEVICE_STATE 0 (s.rd LC_STATE) s
    else
      let n := inactiveSlot s true
      let s := s.wr (FW_VALID n) 0
      let s := if s.boot.recovery then s else prefer (s.rd BOOT_SLOT) s
      if len = 0 then c.done ST_FIRMWARE_INVALID 0 0 s
      else dmaIn c.fn (c.p 12 8) len (.command c.seqNo) (startRun (c.run (.imageRead len)) s)) s

/-- The image has arrived: it is verified, and written to the slot as VALID and TRIAL (R403, R406). -/
def arriveImage (r : Running) (data : List Byte) (s : State) : State :=
  match r.kind with
  | .imageRead len =>
    let b := data.take len
    let n := inactiveSlot s true
    if !headerVerifies s b then finishRun r ST_FIRMWARE_INVALID 0 0 s
    else
      let size := 512 + imgNat b 16 4
      let s := s.wr32 (fwSlot n) (imgNat b 8 4)
      let s := s.wr (FW_VERSION n) (imgNat b 12 2)
      let s := ((s.wr (FW_SVN n) (imgNat b 14 1)).wr (FW_VALID n) 1).wr (FW_CONFIRMED n) 0
      let s := s.setImage n { keyIndex := imgNat b 6 1, revoke := imgNat b 7 1, digest := some (Config.sha384 (b.take size)) }
      finishRun r ST_OK 0 0 (firmwareEvent false s)
  | _ => s

/-- FIRMWARE_ACTIVATE: the inactive slot becomes the preferred one; WHEN 1 resets the device with cause 4 after the
completion (R357, R406). -/
def execFirmwareActivate (ring : Nat) (s : State) : Result :=
  hostCommand 0x75 ring (fun c s =>
    let n := inactiveSlot s false
    let now := c.p 12 1 = 1
    if now && paired s && s.rdB TWIN_ACTIVE then c.done ST_DEVICE_STATE 0 (s.rd LC_STATE) s
    else if !s.rdB (FW_VALID n) || s.rd (FW_SVN n) < s.rd MIN_SVN then c.done ST_FIRMWARE_INVALID 0 0 s
    else
      let s := c.done ST_OK 0 0 (firmwareEvent false (prefer n s))
      if now then resetDevice CAUSE_ACTIVATE s else s) s

end Sys2Proof.Machine
end

