-- ==== Sys2Proof/Machine/Dma.lean ====
section
/-! DEFINITION. The return of a device-issued DMA read (R335, R353): the command or the step that waits for it goes on. -/

namespace Sys2Proof.Machine

/-! ### Commands -/

/-- The data of a command's read. -/
def arriveCommand (r : Running) (data : List Byte) (s : State) : State :=
  match r.kind with
  | .tensorWrite _ _ _ _ _ => arriveWrite r data s
  | .variantList _ => arriveVariantList r data s
  | .variantPull _ _ _ => arriveVariant r data s
  | .archiveList _ => arriveArchiveList r data s
  | .baseManifest _ => arriveBaseManifest r data s
  | .cycleSource _ _ _ => arriveCycleSource r data s
  | .imageRead _ => arriveImage r data s
  | _ => s

/-- A command's read ends in error: ST_DMA_ERROR, with the bytes moved in order before it, of this read `got` (R335). A
VARIANT_LOAD frees what it defined. -/
def failCommand (r : Running) (addr got : Nat) (s : State) : State :=
  match r.kind with
  | .tensorWrite _ _ _ _ done => finishDmaError r (done + got) addr s
  | .variantPull _ done all => failVariant r all ST_DMA_ERROR (done + got) addr (dmaErrorEvent addr r.fn 0 s)
  | _ => finishDmaError r got addr s

/-! ### Input staging (R353) -/

/-- One read fewer to wait for; the step is armed after the last. -/
def stagedOne (h : Nat) (s : State) : State :=
  let s := setStep h (fun st => { st with staging := st.staging - 1 }) s
  if ((s.hull h).step.map (·.staging)) = some 0 then armStart h s else s

/-- The rows of a segment from the bytes read: a token ID of 4 B, or 65,536 B, to a row. -/
def stageData (h req row rows : Nat) (data : List Byte) (s : State) : State :=
  let w := if (s.request req).gen then 4 else 65536
  (List.range rows).foldl (fun s i => stageRow h (row + i) ((data.drop (w * i)).take w) s) s

/-- A request whose input cannot be read leaves the step before it starts and ends FAILED. A step with nothing left is not
run. -/
def dropStaged (h req addr : Nat) (fn : Nat) (s : State) : State :=
  let s := dmaErrorEvent addr fn 0 s
  let gone : List Seg := match (s.hull h).step with
    | some st => st.segs.filter (fun g => g.req = req)
    | none => []
  let s := gone.foldl (fun s g => releaseSeg g s) s
  let s := setStep h (fun st => { st with segs := st.segs.filter (fun g => g.req ≠ req) }) s
  let s := if isLive (s.request req) then
      finishRuns (fun r => r.kind == .cancelling req) ST_NOTHING_TO_CANCEL 0 (failRequest req ST_DMA_ERROR (some addr) s)
    else s
  let s := stagedOne h s
  match (s.hull h).step with
  | some st => if st.segs = [] && st.staging = 0 then afterBoundary h (s.setHull h { s.hull h with step := none }) else s
  | none => s

/-! ### HOST_DMA_COMPLETION -/

/-- A piece of a read has come that is not its last: the next one goes onto the link (R305). -/
def nextPiece (d : DmaRead) (b : List Byte) (s : State) : State :=
  let e := { d with got := d.got ++ b }
  { s with host := { s.host with dma := s.host.dma.map (fun (x : DmaRead) => if x.tag = d.tag then e else x) } }.emit
    (.dmaRead d.tag d.fn (d.addr + e.got.length) e.piece)

/-- HOST_DMA_COMPLETION: the present piece of a tag's read returns its data, all of it, or ends in error. The read's user goes
on with its last piece. -/
def execHostDmaCompletion (tag : Nat) (r : HostRead) (s : State) : Result :=
  match s.host.dma.find? (fun d => d.tag = tag && d.issued) with
  | none => .next s
  | some d =>
    let fits : Bool := match r with | .data b => b.length = d.piece | .failed _ => true
    let more : Bool := match r with | .data b => d.got.length + b.length < d.len | .failed _ => false
    if !fits then .next s
    else if more then .next (match r with | .data b => nextPiece d b s | .failed _ => s)
    else
    let t := dropReads (fun d => d.tag = tag) s
    let t := match d.use with
      | .command n =>
        match findRun t (fun x => x.seqNo = n), r with
        | some x, .data b => arriveCommand x (d.got ++ b) t
        | some x, .failed a => failCommand x a d.got.length t
        | none, _ => t
      | .staging h req row rows =>
        match r with
        | .data b => stagedOne h (stageData h req row rows (d.got ++ b) t)
        | .failed a => dropStaged h req a d.fn t
    .next (advanceAll (pumpFences t))

end Sys2Proof.Machine
end

