-- ==== Sys2Proof/Machine/Frame.lean ====
section
/-! DEFINITION. The frame boundary and the end of a move, with all that waits for them (R213, R215, R218, R239, R257, R261,
R262, R267, R268, R288, R291). -/

namespace Sys2Proof.Machine

/-! ### MOVE_COMPLETE (R215) -/

/-- A transfer by DMA that waits for a tensor goes on (R218, R329). -/
def pumpTransfer (mine : Nat → Bool) (r : Running) (s : State) : State :=
  match r.kind with
  | .tensorWrite x _ _ _ _ => if mine x then pumpWrite r s else s
  | .tensorRead x _ _ _ _ => if mine x then pumpRead r s else s
  | _ => s

/-- Whatever waits for moves goes on: transfers of the tensors named, staging, pins, fences and hulls. -/
def afterMoves (mine : Nat → Bool) (s : State) : State :=
  let s := s.host.running.foldl (fun s r => pumpTransfer mine r s) s
  let s := kickAll s
  advanceMirrored (pumpFences (pumpCycles (pumpBaseStages s)))

/-- Whatever waits for the moves of one tensor. -/
def afterMove (h : Nat) (s : State) : State := afterMoves (· = h) s

/-- The metered units that a move uses, with the part of its service that each bears: the stacks of the N-tier, the half of
its D-tier copy, the F-tier (R258). -/
def moveUnits (s : State) (m : Move) (service : Nat) : List (Nat × Nat × Nat) :=
  let n := (List.range 12).map (fun u => (0, u, service / 12))
  let d := (1, (s.tensor m.handle).dBase / D_HALF, service)
  if m.kind = MOVE_STAGE then [d, (2, 0, service)] else d :: n

/-- The rank of a class at a resource in the present slot, the lowest first (R265). -/
def classRank (s : State) (r cls : Nat) : Nat :=
  if cycKind (slotEntry s r) = 2 then (if cls = 2 then 3 else if cls = 3 then 2 else cls) else cls

/-- Whether a request of a higher class than a move's waits at a unit that the move uses (R264, R265). -/
def higherWaits (s : State) (m : Move) (r u : Nat) : Bool :=
  s.tier.queue.any (fun a => !a.granted && !a.recover && (match arbiterFor s a with
    | some (r2, unit, _) => r2 = r && meterUnit r unit = u
        && classRank s r (classOf s r a.hull a.req.cls) < classRank s r (if m.bg then 3 else m.cls)
    | none => false))

/-- Whether a move's accesses are granted: in class 3, whose meter stands below its cap at every unit that it uses (R265,
R267), or in the class of the traffic that waits for it (R218, R264). DEDUCED (log 213): the last of its accesses at a unit is
not granted while a request of a higher class waits there. -/
def moveGranted (s : State) (m : Move) : Bool :=
  (moveUnits s m 0).all (fun u => !higherWaits s m u.1 u.2.1
    && (!m.bg || bgMeter s u.1 u.2.1 < bgCap s u.1 u.2.1))

/-- A background move's service counts in class 3 (R267). -/
def chargeMove (m : Move) (service : Nat) (s : State) : State :=
  if !m.bg then s
  else (moveUnits s m service).foldl (fun s u =>
    let k := meterKey u.1 u.2.1
    { s with sched := { s.sched with bg := tput s.sched.bg k (tget s.sched.bg k 0 + u.2.2) 0
                                     c3 := tput s.sched.c3 k (tget s.sched.c3 k 0 + u.2.2) 0 } }) s

/-- What waits for a raised move that is abandoned ends with the move's error (R225): halted descriptors, waiting transfers, a
BASE_STAGE that stages the tensor (R237) and the accesses of channels. DESIGN CHOICE (log 209): PROGRESS of that BASE_STAGE
counts the tensors that it has staged whole. -/
def failWaiting (h : Nat) (addr : DWord) (s : State) : State :=
  let s := (List.range 80).foldl (fun s p => (List.range 4).foldl (fun s e =>
    ((s.engine p e).queue.filter (fun d => d.halted.isSome && d.handle = h)).foldl (fun s d =>
      failDesc p e d RSP_LATE addr s) s) s) s
  let s := s.host.running.foldl (fun s r =>
    if readPending s r.seqNo || accessOut s r.seqNo then s
    else match r.kind with
      | .tensorWrite x _ _ _ done => if x = h then finishRun r ST_TIER_LATE done addr.toNat s else s
      | .tensorRead x _ _ _ done => if x = h then finishRun r ST_TIER_LATE done addr.toNat s else s
      | .baseStaging _ left done _ => if left.contains h then finishRun r ST_TIER_LATE done addr.toNat s else s
      | _ => s) s
  (List.range 64).foldl (fun s c => match bdpQueue s c with
    | w :: rest =>
      if w.mode1 && w.sent.isNone && bits w.cursor.toNat 0 20 = h then
        kick c (endItem c w rest RSP_LATE 0 addr (zeros (w.read.getD 0)) s)
      else s
    | [] => s) s

/-- MOVE_COMPLETE: a started move ends; the tensor's entry and the space change (R215). One that met a late access is
abandoned, and with a raised one what waits for it ends (R225). -/
def execMoveComplete (fate : MoveEnd) (s : State) : Result :=
  let handle := match fate with | .done h _ => h | .late h _ => h
  match findMove s handle with
  | none => .next s
  | some m =>
    if !m.started || !placementOn s then .next s
    else match fate with
      | .done _ service => if moveGranted s m then .next (afterMove handle (finishMove m (chargeMove m service s))) else .next s
      | .late _ off =>
        let addr := lateAddr s m off
        let t := abandonMove m off s
        .next (afterMove handle (if m.bg then t else failWaiting handle addr t))

/-- PROMOTION_START: an admitted promotion whose victims have left the N-tier takes its space and starts (R213). One that
finds no run for its copy is given up until the next evaluation, and what waits for it goes on (R329). -/
def execPromotionStart (handle : Nat) (s : State) : Result :=
  match findMove s handle with
  | none => .next s
  | some m =>
    if m.started || !placementOn s || m.victims.any (fun v => (s.tensor v).inN) then .next s
    else match moveSpace handle m.kind s with
      | none => .next (afterMove handle (dropMove handle s))
      | some s => .next (refreshHeat (setMoves (s.tier.moves.map (fun x =>
          if x.handle = handle then { x with started := true, victims := [] } else x)) s))

/-! ### FRAME_BOUNDARY (R257) -/

/-- The routes of a domain have settled 500 µs after a change of slice, and its SLICE_SET completes (R373, R379). -/
def settleSlices (s : State) : State :=
  s.host.running.foldl (fun s r => match r.kind with
    | .slicing t => if t + 500000 ≤ s.counter.toNat then finishRun r ST_OK 0 0 s else s
    | _ => s) s

/-- SLOT_BOUNDARY: the next slot of the frame begins (R257). -/
def execSlotBoundary (s : State) : Result :=
  if 511 ≤ s.sched.slot then .next s
  else
    let n := s.sched.slot + 1
    let s := advanceTo (slotStart s.sched.frame n) { s with sched := { s.sched with slot := n } }
    .next (settleSlices (s.wr CYC_SLOT n))

/-- What observation counts by the frame or the second starts again (R426, R442, R453). -/
def clearFrameCounts (f : Nat) (s : State) : State :=
  { s with
    obs := { s.obs with perCode := [], traceRate := if f % 1000 = 0 then 0 else s.obs.traceRate }
    pwr := { s.pwr with throttled := [] } }

/-- The frame counter moves to `f`, its slot 0 begins. -/
def enterFrame (f : Nat) (s : State) : State :=
  let s := advanceTo (slotStart f 0) { s with sched := { s.sched with frame := f, slot := 0 } }
  (s.wr CYC_SLOT 0).wr64 CYC_FRAME f

/-- The frame that begins at the next boundary: one that the step counter has passed, or the next one, to whose start the
counter moves (R257). -/
def nextFrame (s : State) : Nat × State :=
  if s.sched.due = 0 then (s.sched.frame + 1, enterFrame (s.sched.frame + 1) (rollMeters s))
  else (s.sched.frame + 1 - s.sched.due, rollMeters { s with sched := { s.sched with due := s.sched.due - 1 } })

/-- FRAME_BOUNDARY: meters and shares of the frame that ends, then the armed table, the floor tests, the refill, the heat
evaluation and the plan of moves where the placement engine serves (R22), then the steps that have become possible. -/
def execFrameBoundary (s : State) : Result :=
  let x := nextFrame s
  let s := clearFrameCounts x.1 x.2
  let s := refill (floorTests x.1 (switchAt x.1 s))
  let s := if placementOn s then planMoves (evaluateHeat s) else s
  .next (formAll (advanceMirrored (settleSlices s)))

end Sys2Proof.Machine
end

