-- ==== Sys2Proof/Machine/Guardian.lean ====
section
/-! DEFINITION. The guardian, the ramp governor's grants, the power domains' and pod clocks' changes, and the power inputs
(R420–R432, R438, R439). Temperatures are in 1/16 °C. -/

namespace Sys2Proof.Machine

/-! ### Limits (R424, R426) -/

/-- THROTTLE_ACTIVE and THERM_ALERT# follow the limits. -/
def refreshThrottle (s : State) : State :=
  driveAlert (s.wrB GRD_ACTIVE ((List.range 80).any (fun p => s.rd (POD_LIMIT_POINT p) < 9)))

/-- A GUARDIAN_THROTTLE event, at most one per domain and frame (R426). Cause: 0 = temperature, 1 = power, 2 = current,
3 = peak, 4 = undervoltage. -/
def throttleEvent (d limit cause : Nat) (s : State) : State :=
  if s.pwr.throttled.contains d then s
  else recordEvent 0x0701 none none (payload [(32, 1, d), (33, 1, limit), (34, 1, cause), (36, 4, s.rd32 PWR_INPUT)])
    { s with pwr := { s.pwr with throttled := s.pwr.throttled ++ [d] } }

/-- A pod's limit is set to a lower point: it acts at once, unpaced (R426, R429). -/
def limitPod (cause : Nat) (p limit : Nat) (s : State) : State :=
  if s.rd (POD_LIMIT_POINT p) ≤ limit then s
  else
    let pd := s.pod p
    let s := s.setPod p { pd with hot := pd.hot || cause = 0, drawn := pd.drawn || cause ≠ 0 }
    retarget p (throttleEvent p limit cause (s.wr (POD_LIMIT_POINT p) limit))

/-- A pod falls `n` points below where it runs, for the input. -/
def cutPod (cause n p : Nat) (s : State) : State :=
  limitPod cause p (min (s.rd (POD_LIMIT_POINT p)) (s.rd (POD_EFF_POINT p)) - n) s

/-- A guardian action on a hull's pods is a cause of its tenants' shortfalls (R291). -/
def guardCauses (s : State) : State :=
  (tkeys s.srv.hulls).foldl (fun s h =>
    if (s.hull h).pods.any (guardHeld s) then ((hullRequests s h).map (fun i => (s.request i).tenant)).foldl (fun s t => noteCause t 1 0 s) s
    else s) s

/-- The breach of a real-time reservation, once per named hull and frame, with its mark on whatever runs meanwhile (R269, R270);
and what any hull's hold-back causes. -/
def guardBreaches (s : State) : State :=
  let s := guardCauses s
  markBreaches ((tkeys s.srv.hulls).foldl (fun s h =>
    if s.sched.breaches.contains (PARTY_GUARDIAN, 0, PARTY_HULL, h) || !heldBreach s h
    then s else breach 1 PARTY_GUARDIAN 0 3 PARTY_HULL h s) s)

/-! ### Domains going off (R421, R427, R432) -/

/-- Domains with what cannot stand without them: the pods of a die whose mesh goes off (R25). -/
def withPods (ds : List Nat) : List Nat :=
  ds.flatMap (fun d => if 80 ≤ d && d < 84 then (List.range 20).map (fun i => (d - 80) * 20 + i) ++ [d] else [d])

/-- Domains go off at once. Without the fabric, packets that wait there are lost and the paths are found again. -/
def domainsOff (ds0 : List Nat) (s : State) : State :=
  let ds := withPods ds0
  let s := ds.foldl (fun s d => domainOffNow d s) s
  let s := { s with pwr := { s.pwr with ramp := s.pwr.ramp.filter (fun a => match a with
    | .pointUp p => !ds.contains p
    | .pointDown p => !ds.contains p
    | _ => true) } }
  let s := if ds.contains 99 then
      let s := { s with fab := { s.fab with ports := tclear s.fab.ports 0 16 } }
      if s.rdB FAB_VALID then recompute s else s
    else s
  refreshHeat (advanceWipe s)

/-- Every switchable domain. -/
def allDomains : List Nat := List.range 100

/-- A trip (R427): every switchable domain off, THERM_ALERT# low, the record and the event. A second one within 10 minutes
is kept in mind. -/
def trip (sensor : Nat) (temp : Nat) (s : State) : State :=
  if s.pwr.tripped then s
  else
    let c := s.counter.toNat
    let second := match s.pwr.lastTrip with
      | some t => c - t ≤ 600000000000
      | none => false
    let info := sensor % 256 + temp % 65536 * 2 ^ 8 + c % 2 ^ 40 * 2 ^ 24
    let s := domainsOff allDomains { s with pwr := { s.pwr with
      ramp := [], rising := [], tripped := true, lastTrip := some c, secondTrip := s.pwr.secondTrip || second } }
    let s := (s.wr64 GRD_TRIP_INFO info).addWrap GRD_TRIPS 1
    driveAlert (recordEvent 0x0702 none none (payload [(32, 8, info)]) s)

/-! ### GUARDIAN_SAMPLE (R426, R427, R432) -/

/-- A reading's 16 bits. -/
def tempBits (t : Int) : Nat := wrap t 16

/-- Set bits of a mask of 6 pins. -/
def pinCount (m : Nat) : Nat := ((List.range 6).filter (bit m)).length

/-- The readings go to the sensor table, POD_TEMP and the currents (R428, R438, R455). -/
def noteReadings (g : GuardSample) (s : State) : State :=
  let s := g.sensors.foldl (fun s r =>
    let s := { s with pwr := { s.pwr with
      temps := tput s.pwr.temps r.sensor (tempBits r.temp) 0
      currents := if 128 ≤ r.sensor then tput s.pwr.currents r.sensor r.current 0 else s.pwr.currents } }
    if r.sensor < 80 && domainIsOn s r.sensor then s.wr ⟨POD_TEMP r.sensor, 0, 16⟩ (tempBits r.temp) else s) s
  (List.range 80).foldl (fun s p =>
    if domainIsOn s p then s.fresh.2.wr ⟨POD_POWER p, 0, 16⟩ (s.fresh.1.toNat) else s) s

/-- PWR_INPUT, PWR_PEAK and the pins (R439). POWER is the average of 1 ms, AVG_W the highest average of 10 ms. -/
def noteInput (g : GuardSample) (s : State) : State :=
  let rec_ := (g.power :: s.pwr.recent).take 1000
  let ms := rec_.take 100
  let avg := fun (l : List Nat) => l.foldl (· + ·) 0 / l.length
  let s := { s with pwr := { s.pwr with recent := rec_ } }
  let s := s.wr32 PWR_INPUT (min 65535 g.volts + min 65535 (avg ms) * 2 ^ 16)
  let s := s.wr ⟨PWR_PEAK, 0, 16⟩ (max (s.rd ⟨PWR_PEAK, 0, 16⟩) (min 65535 g.power))
  let s := if rec_.length = 1000 then
      s.wr ⟨PWR_PEAK, 16, 16⟩ (max (s.rd ⟨PWR_PEAK, 16, 16⟩) (min 65535 (avg rec_)))
    else s
  let p := pinCount g.p54
  let r := pinCount g.rtn
  let lost := p < s.rd PWR_P54 || r < s.rd PWR_RTN || ((s.rd PWR_P54 = 0 || s.rd PWR_RTN = 0) && (p < 6 || r < 6))
  let s := if lost then s.raise PWR_SB_STATUS 0 else s
  (s.wr PWR_P54 p).wr PWR_RTN r

/-- A reading outside −40 °C to 150 °C. -/
def outOfRange (r : Reading) : Bool := r.temp < -640 || 2400 < r.temp

/-- A pod at its lowest rate while its sensor's reading is out of range; no temperature marks it. -/
def holdPod (p : Nat) (s : State) : State :=
  let hot := (s.pod p).hot
  let s := limitPod 0 p 0 s
  s.setPod p { s.pod p with hot }

/-- Sensor faults: the sensor's domain at its lowest rate (R426). A mesh, the base die and the F-tier have one rate. -/
def sensorFaults (g : GuardSample) (s : State) : State :=
  let bad := (g.sensors.filter outOfRange).map (·.sensor)
  let seen := g.sensors.map (·.sensor)
  let now := bad ++ s.pwr.badSensors.filter (fun n => !seen.contains n)
  let fresh := bad.filter (fun n => !s.pwr.badSensors.contains n)
  let s := { s with pwr := { s.pwr with badSensors := now } }
  let s := if fresh = [] then s else s.raise GRD_STATUS 3
  bad.foldl (fun s n => if n < 80 then holdPod n s else s) s

/-- The pods that a thermal sensor governs: its own, its die's, or all (R51, R426, R428). -/
def sensorPods (n : Nat) : List Nat :=
  if n < 80 then [n]
  else if n < 96 then (List.range 20).map (fun i => (n - 80) / 4 * 20 + i)
  else if n < 104 then List.range 80
  else []

/-- Whether every thermal sensor of a pod reads below a temperature. -/
def podCooler (s : State) (p : Nat) (t : Int) : Bool :=
  (p :: (List.range 4).map (fun i => 80 + p / 20 * 4 + i) ++ (List.range 8).map (· + 96)).all (fun n =>
    signed (tget s.pwr.temps n 0) 16 < t)

/-- Pods over the throttle temperature fall one point per 100 µs (10 samples); the others' cooling is counted. -/
def thermalPods (g : GuardSample) (s : State) : State :=
  let hotAt : Int := (s.rd GRD_THROTTLE_C * 16 : Nat)
  let hotter := g.sensors.filter (fun r => r.sensor < 104 && hotAt ≤ r.temp)
  let s := if hotter = [] then s else s.raise GRD_STATUS 0
  (List.range 80).foldl (fun s p =>
    let pd := s.pod p
    let s := s.setPod p { pd with sinceStep := min 20 (pd.sinceStep + 1),
                                  coolFor := if podCooler s p (hotAt - 48) then min 100 (pd.coolFor + 1) else 0 }
    if hotter.any (fun r => (sensorPods r.sensor).contains p) && 10 ≤ (s.pod p).sinceStep && s.rd (POD_LIMIT_POINT p) ≠ 0 then
      let s := limitPod 0 p (s.rd (POD_LIMIT_POINT p) - 1) s
      s.setPod p { s.pod p with sinceStep := 0 }
    else s) s

/-- Whether a stack's grants stand at half rate: it has been hot, or its sensor's reading is out of range, which ends with a
reading in range (R426). -/
def stackSlow (s : State) (k : Nat) : Bool := s.pwr.halfRate.contains k || s.pwr.badSensors.contains (104 + k)

/-- Stacks from 95 °C grant at half rate, until below 92 °C for 1 ms; a stack whose sensor is out of range is held so as long
as it is (R426). -/
def thermalStacks (g : GuardSample) (s : State) : State :=
  (g.sensors.filter (fun r => 104 ≤ r.sensor && r.sensor < 116)).foldl (fun s r =>
    let k := r.sensor - 104
    let half := s.pwr.halfRate.contains k
    if outOfRange r then throttleEvent (84 + k) 0 0 s
    else if 1520 ≤ r.temp then
      let s := { s with pwr := { s.pwr with coolFor := tdel s.pwr.coolFor k,
                                            halfRate := if half then s.pwr.halfRate else s.pwr.halfRate ++ [k] } }
      throttleEvent (84 + k) 0 0 (s.raise GRD_STATUS 0)
    else if half then
      let n := if r.temp < 1472 then tget s.pwr.coolFor k 0 + 1 else 0
      if 100 ≤ n then
        { s with pwr := { s.pwr with coolFor := tdel s.pwr.coolFor k, halfRate := s.pwr.halfRate.filter (· ≠ k) } }
      else { s with pwr := { s.pwr with coolFor := tput s.pwr.coolFor k n 0 } }
    else s) s

/-- The power limit: 2,800 W, or the cap when that is lower (R426). -/
def powerLimit (s : State) : Nat := if s.rd PWR_CAP = 0 then 2800 else min 2800 (s.rd PWR_CAP)

/-- The next pod for the power action: round-robin by pod ID, those of hulls not named by the active table first; the
others only once all of these stand at point 0. -/
def nextCut (s : State) : Option Nat :=
  let order := (List.range 80).map (fun i => (s.pwr.nextPod + i) % 80)
  let runs := order.filter (fun p => 0 < s.rd (POD_EFF_POINT p) && 0 < s.rd (POD_LIMIT_POINT p))
  let free := runs.filter (fun p => match s.podOwner p with
    | some h => !namedHull s h
    | none => true)
  if free = [] then runs.head? else free.head?

/-- One pod falls one point, at most one per 50 µs (5 samples). -/
def cutForInput (cause : Nat) (s : State) : State :=
  let s := s.raise GRD_STATUS 1
  if s.pwr.sinceCut < 5 then s
  else match nextCut s with
    | none => s
    | some p => cutPod cause 1 p { s with pwr := { s.pwr with nextPod := (p + 1) % 80, sinceCut := 0 } }

/-- Peak, power limit and current (R426, R432). -/
def inputLimits (g : GuardSample) (s : State) : State :=
  let limit := powerLimit s
  let s := { s with pwr := { s.pwr with
    overFor := if limit < g.power then min 800 (s.pwr.overFor + 1) else 0
    underFor := if g.power < 2700 then min 100 (s.pwr.underFor + 1) else 0
    sinceCut := min 5 (s.pwr.sinceCut + 1) } }
  let s := if 3200 < g.power then
      (List.range 80).foldl (fun s p => if 0 < s.rd (POD_EFF_POINT p) then cutPod 3 2 p s else s) (s.raise GRD_STATUS 1)
    else s
  if 16 * min (pinCount g.p54) (pinCount g.rtn) < g.current then cutForInput 2 s
  else if 800 ≤ s.pwr.overFor then cutForInput 1 s
  else s

/-- The event of a rail's action on a domain. R445 gives it no cause of its own, so the cause is open (log 215). -/
def railEvent (s : State) (d : Nat) : State :=
  let l := if d < 80 then s.rd (POD_LIMIT_POINT d) else 0
  let f := s.fresh
  throttleEvent d l (f.1.toNat % 5) f.2

/-- Rails over their fused maxima for 2 µs: their domains power off, each with its event (R426). A trip for an always-on rail
names no sensor, so its record is open. -/
def railFaults (g : GuardSample) (s : State) : State :=
  let ds := g.rails.filter (· < 100)
  let s := if g.rails = [] then s else s.raise GRD_STATUS 2
  let s := if ds = [] then s else (withPods ds).foldl railEvent (domainsOff ds s)
  if g.rails.any (100 ≤ ·) then trip (s.fresh.1.toNat % 256) (s.fresh.1.toNat / 256) s.fresh.2 else s

/-- The sensor that trips (R426). -/
def tripSensor (g : GuardSample) (s : State) : Option Reading :=
  g.sensors.find? (fun r => (s.rd GRD_TRIP_C * 16 : Nat) ≤ r.temp)

/-- GUARDIAN_SAMPLE. A trip leaves the slower actions without an object. -/
def execGuardianSample (g : GuardSample) (s : State) : Result :=
  if !s.pwr.good then .next s
  else
    let s := railFaults g (noteInput g (noteReadings g s))
    let s := match tripSensor g s with
      | some r => trip r.sensor (tempBits r.temp) s
      | none => s
    let s := if s.pwr.tripped then s
      else inputLimits g (thermalStacks g (thermalPods g (sensorFaults g s)))
    let s := refreshThrottle (guardBreaches s)
    .next (if s.rdB GRD_ACTIVE then s.addSat GRD_THROTTLE_US 10 else s)

/-- INPUT_UNDERVOLTAGE: below 46 V for 20 µs, every pod to point 0 (R420). -/
def execInputUndervoltage (s : State) : Result :=
  if !s.pwr.good then .next s
  else .next (refreshThrottle (guardBreaches ((List.range 80).foldl (fun s p => limitPod 4 p 0 s) s)))

/-- GUARDIAN_RESTORE: the conditions that lowered a pod have cleared, and the rise of one point goes to the governor (R426,
R429). -/
def execGuardianRestore (pod : Nat) (s : State) : Result :=
  let pd := s.pod pod
  if 80 ≤ pod || !s.pwr.good || 9 ≤ s.rd (POD_LIMIT_POINT pod) || s.pwr.badSensors.contains pod || pd.sinceStep < 20
    || (pd.hot && pd.coolFor < 100) || (pd.drawn && s.pwr.underFor < 100) || s.pwr.ramp.contains (.restore pod) then .next s
  else .next (requestRamp (.restore pod) s)

/-! ### The ramp governor (R422, R424, R429) -/

/-- Whether a domain is to stay on (R422). -/
def domainNeeded (s : State) (d : Nat) : Bool :=
  if d < 80 then s.srv.hulls.any (fun h => h.2.pods.contains d)
  else if d < 84 then (List.range 20).any (fun i => domainIsOn s ((d - 80) * 20 + i) || s.pwr.rising.contains ((d - 80) * 20 + i))
    || s.srv.hulls.any (fun h => h.2.pods ≠ [] && (diesBetween h.2.pods).contains (d - 80))
    || (List.range 20).any (fun i => s.pwr.ramp.contains (.domainOn ((d - 80) * 20 + i)))
  else if d < 98 then s.tier.allocs.any (fun a => a.dTier = decide (96 ≤ d))
  else if d = 98 then true
  else s.srv.hulls.any (fun h => h.2.live && h.2.multi) || paired s

/-- Whether a request still has something to do. -/
def rampUseful (s : State) : RampAct → Bool
  | .domainOn d => !domainIsOn s d && !s.pwr.rising.contains d
  | .domainOff d => domainIsOn s d && !domainNeeded s d
  | .pointUp p => domainIsOn s p && (s.pod p).rampPoint < 9
  | .pointDown p => domainIsOn s p && 0 < (s.pod p).rampPoint
  | .restore p => s.rd (POD_LIMIT_POINT p) < 9

/-- Husk lets a die's mesh follow its last pod down (R25, R422). DESIGN CHOICE (log 155): no rule says when Husk switches a
mesh off; the model asks for it once a pod has gone off for having been idle, with no pod of the die on or wanted. -/
def meshFollows (d : Nat) (s : State) : State :=
  let m := meshDomain d
  if d < 80 && s.rdB PWR_POD_IDLE && domainIsOn s m && !domainNeeded s m && !s.pwr.ramp.contains (.domainOff m) then
    requestRamp (.domainOff m) s
  else s

/-- The effect of a grant. -/
def rampStart (a : RampAct) (s : State) : State :=
  match a with
  | .domainOn d => { s with pwr := { s.pwr with rising := s.pwr.rising ++ [d] } }
  | .domainOff d => meshFollows d (advanceMirrored (domainsOff [d] s))
  | .pointUp p => retarget p (s.setPod p { s.pod p with rampPoint := (s.pod p).rampPoint + 1 })
  | .pointDown p => retarget p (s.setPod p { s.pod p with rampPoint := (s.pod p).rampPoint - 1 })
  | .restore p =>
    let l := s.rd (POD_LIMIT_POINT p) + 1
    let pd := s.pod p
    let s := s.setPod p { pd with sinceStep := 0, hot := pd.hot && l < 9, drawn := pd.drawn && l < 9 }
    refreshThrottle (retarget p (s.wr (POD_LIMIT_POINT p) l))

/-- The first request that still has something to do, and those after it. -/
def rampHead (s : State) : Option (RampAct × List RampAct) :=
  match s.pwr.ramp.dropWhile (fun a => !rampUseful s a) with
  | [] => none
  | a :: as => some (a, as)

/-- Whether a pod's domain must wait for its die's mesh (R25, R422). -/
def waitsMesh (s : State) : RampAct → Bool
  | .domainOn d => d < 80 && !domainIsOn s (meshDomain d)
  | _ => false

/-- RAMP_GRANT: the oldest request starts once the budget has reached its step, or the depth (R429). A pod whose mesh is off
waits for it; where nothing brings the mesh up, that is asked for first. -/
def execRampGrant (s : State) : Result :=
  if !s.pwr.good || s.pwr.tripped || !s.pwr.present then .next s
  else
    let s := accrue s
    match rampHead s with
    | none => .next { s with pwr := { s.pwr with ramp := [] } }
    | some (a, as) =>
      let dp := rampStep a * 100000
      if waitsMesh s a then
        let m := match a with | .domainOn d => meshDomain d | _ => 0
        if s.pwr.rising.contains m then .next { s with pwr := { s.pwr with ramp := a :: as } }
        else .next { s with pwr := { s.pwr with ramp := .domainOn m :: a :: as } }
      else if s.pwr.budget < (min dp (rampDepth s) : Nat) then .next { s with pwr := { s.pwr with ramp := a :: as } }
      else .next (rampStart a { s with pwr := { s.pwr with ramp := as, budget := s.pwr.budget - dp } })

/-- DOMAIN_POWER_UP_DONE: a rising domain is on; a pod has wiped its tiles and stands IDLE at point 0, a stack or half is
trained, the fabric's ports detect (R402, R421, R362). -/
def execDomainPowerUpDone (domain : Nat) (s : State) : Result :=
  if !s.pwr.rising.contains domain then .next s
  else
    let s := { s with pwr := { s.pwr with rising := s.pwr.rising.filter (· ≠ domain) } }.wr (PWR_DOMAIN domain) 1
    let s :=
      if domain < 80 then (resetPodWindow domain (wipeTiles domain s)).wr (POD_STATE domain) POD_IDLE
      else if domain < 84 then s
      else if domain < 96 then s.wr ⟨unitBlock false (domain - 84), 0, 2⟩ 3
      else if domain < 98 then s.wr ⟨unitBlock true (domain - 96), 0, 2⟩ 3
      else if domain = 98 then s.wr ⟨FT_STATUS, 0, 1⟩ 1
      else (List.range 16).foldl (fun s p => if s.rd (PORT_STATE p) = 0 then enterPort p 1 s else s) s
    let s := refreshHeat s
    .next (formAll (advanceMirrored (if 84 ≤ domain && domain < 99 && placementOn s then afterMoves (fun _ => true) s else s)))

/-- POD_POINT_CHANGE_DONE: a change of one point is complete; the next one begins (R425). -/
def execPodPointChangeDone (pod : Nat) (s : State) : Result :=
  if 80 ≤ pod || !(s.pod pod).changing then .next s
  else
    let e := s.rd (POD_EFF_POINT pod)
    let t := targetPoint s pod
    let s := s.setPod pod { s.pod pod with changing := false }
    let s := s.wr (POD_EFF_POINT pod) (if e < t then e + 1 else if t < e then e - 1 else e)
    .next (retarget pod (risersResume pod (s.wr (POD_RELOCK pod) 0)))

/-- POD_IDLE_TIMEOUT (R423). -/
def execPodIdleTimeout (pod : Nat) (s : State) : Result :=
  if 80 ≤ pod || !s.rdB PWR_POD_IDLE || s.rd (POD_STATE pod) ≠ POD_IDLE || !podFree s pod || domainNeeded s pod
    || s.pwr.ramp.contains (.domainOff pod) then .next s
  else .next (requestRamp (.domainOff pod) s)

/-! ### Blade and shelf inputs (R431, R432, R435) -/

/-- PRSNT_BREAK: every switchable domain goes off, and the input is disabled until the blade is mated again (R432). -/
def execPrsntBreak (s : State) : Result :=
  if !s.pwr.good then .next { s with pwr := { s.pwr with present := false } }
  else .next (domainsOff allDomains { s with pwr := { s.pwr with present := false, ramp := [], rising := [] } })

/-- STORAGE_LOW_ASSERT: LOW_CEILING governs, and the budget is cut to its depth at once (R431). -/
def execStorageLowAssert (s : State) : Result :=
  if !s.pwr.good || s.pwr.reversed || s.rdB PWR_STORAGE_LOW then .next s
  else .next ((changeCeiling (fun s => (s.wr PWR_STORAGE_LOW 1).wr PWR_LOW_ACTIVE 1) s).raise PWR_SB_STATUS 3)

/-- STORAGE_LOW_RELEASE: the input has been high for 1 ms, and CEILING governs again (R431). -/
def execStorageLowRelease (s : State) : Result :=
  if !s.pwr.good || s.pwr.reversed || !s.rdB PWR_STORAGE_LOW then .next s
  else .next (changeCeiling (fun s => (s.wr PWR_STORAGE_LOW 0).wr PWR_LOW_ACTIVE 0) s)

/-- SIDEBAND_REVERSED: outputs at high impedance and inputs ignored from here on (R435). -/
def execSidebandReversed (s : State) : Result :=
  if !s.pwr.good || s.pwr.reversed then .next s
  else .next ({ s with pwr := { s.pwr with reversed := true } }.raise PWR_SB_STATUS 1)

end Sys2Proof.Machine
end

