-- ==== Sys2Proof/Machine/Sideband.lean ====
section
/-! DEFINITION. Attestation over the PF's DOE mailbox, and the sideband header's I3C target and boundary scan (R408, R435,
R437). -/

namespace Sys2Proof.Machine

/-! ### SPDM (R408) -/

/-- A digest's 48 bytes, most significant first. -/
def digestBytes (d : BitVec 384) : List Byte := (leBytes d.toNat 48).reverse

/-- The digest of a slot's image. -/
def slotDigest (s : State) (n : Nat) : BitVec 384 := (s.image n).digest.getD Config.shippedDigest

/-- The base manifest as the device holds it. -/
def manifestNats (s : State) : List Nat := s.flash.base.flatMap (fun f => [f.format, f.cls, f.elem, f.scale, f.fBase])

/-- A measurement block (R408). -/
def measurement (s : State) (i : Nat) : List Byte :=
  let n := s.rd BOOT_SLOT
  if i = 1 then digestBytes Config.romDigest
  else if i = 2 then digestBytes (slotDigest s n)
  else if i = 3 then
    leBytes (s.rd32 (fwSlot n)) 4 ++ leBytes (bits (s.rd (FW_VERSION n)) 8 8) 1 ++ leBytes (bits (s.rd (FW_VERSION n)) 0 8) 1
      ++ leBytes (s.rd (FW_SVN n)) 2
  else if i = 4 then (if s.rdB (FW_VALID (1 - n)) then digestBytes (slotDigest s (1 - n)) else zeros 48)
  else if i = 5 then
    leBytes (s.rd32 PWR_SEC_FUSE) 4 ++ leBytes (s.rd32 0x0) 4 ++ leBytes (s.rd LC_STATE) 1 ++ leBytes (s.rd LC_PENDING) 1
      ++ zeros 2
  else if s.rdB FT_BASE_VALID then digestBytes (Config.manifestDigest (manifestNats s)) else zeros 48

/-- Error codes of SPDM: invalid request and unsupported request. -/
def SPDM_INVALID : Nat := 1
def SPDM_UNSUPPORTED : Nat := 7

/-- A nonce of the device: 256 open bits. -/
def freshNonce (s : State) : BitVec 256 × State :=
  let f := (List.range 8).foldl (fun (a : Nat × State) _ => (a.1 * 2 ^ 32 + a.2.fresh.1.toNat, a.2.fresh.2)) (0, s)
  (BitVec.ofNat 256 f.1, f.2)

/-- The blocks that GET_MEASUREMENTS asks for: none for the count alone, every one for 255. -/
def askedBlocks (s : State) (i : Nat) : Option (List (Nat × List Byte)) :=
  if i = 0 then some []
  else if i = 255 then some ((List.range 6).map (fun k => (k + 1, measurement s (k + 1))))
  else if i ≤ 6 then some [(i, measurement s i)]
  else none

/-- The responder's answer. -/
def spdmAnswer (req : SpdmReq) (s : State) : SpdmRsp × State :=
  match req with
  | .getVersion => (.version [0x12, 0x13], s)
  | .getCapabilities => (.capabilities true true true, s)
  | .negotiateAlgorithms => (.algorithms, s)
  | .getDigests => (.digest (Config.sha384 Config.certChain), s)
  | .getCertificate slot off len =>
    if slot ≠ 0 then (.error SPDM_INVALID, s)
    else
      let rest := Config.certChain.drop off
      (.certificate (rest.take len) (rest.length - min len rest.length), s)
  | .challenge slot nonce =>
    if slot ≠ 0 then (.error SPDM_INVALID, s)
    else
      let f := freshNonce s
      (.challengeAuth f.1 (Config.spdmSign (leBytes nonce.toNat 32 ++ leBytes f.1.toNat 32)), f.2)
  | .getMeasurements i signed nonce =>
    match askedBlocks s i with
    | none => (.error SPDM_INVALID, s)
    | some bs =>
      (.measurements 6 bs (if signed then some (Config.spdmSign (leBytes nonce.toNat 32 ++ bs.flatMap (·.2))) else none), s)
  | .other _ => (.error SPDM_UNSUPPORTED, s)

/-- SPDM_REQUEST: answered from step 5 of R400 onward, in every life-cycle state and while PARKED, not in recovery. -/
def execSpdmRequest (req : SpdmReq) (s : State) : Result :=
  if !s.pwr.good || s.boot.done < 5 || s.boot.recovery then .next s
  else
    let a := spdmAnswer req s
    .next (a.2.emit (.spdm a.1))

/-! ### I3C and boundary scan (R435, R437) -/

/-- A word of the I3C read map; an offset outside the map reads zero (R17, R437). -/
def i3cWord (off : Nat) (s : State) : Word :=
  if off = 0x00 || off = 0x04 || off = 0x08 || off = 0x0C then s.word off
  else if off = 0x10 then s.word PWR_BOOT_STATUS
  else if off = 0x14 then s.word PWR_INPUT
  else if off = 0x18 then s.word GRD_STATUS
  else if off = 0x1C then BitVec.ofNat 32 (hottest s)
  else if off = 0x20 then s.word TWIN_STATUS
  else 0

/-- I3C_READ: answered from power-good onward, unless the header is reversed. -/
def execI3cRead (off : Nat) (s : State) : Result :=
  if !s.pwr.good || s.pwr.reversed then .next s
  else .next (s.emit (.i3c (i3cWord off s)))

/-- BOUNDARY_SCAN_INSTRUCTION: the four named instructions in every state; another acts only in FACTORY, where the manual
does not say how. -/
def execBoundaryScanInstruction (i : TapInstr) (s : State) : Result :=
  if !s.pwr.good || s.pwr.reversed then .next s
  else match i with
    | .other _ => if s.rd LC_STATE = 0 then .refused .privateTapInstruction else .next s
    | i =>
      let s := { s with pwr := { s.pwr with tap := i } }
      .next (if i = .idcode then s.emit (.tdo 0x126409AF#32) else s)

end Sys2Proof.Machine
end

