-- ==== Sys2Proof/Machine/Dispatch.lean ====
section
/-! DEFINITION. The meaning of every command: one arm per row of the table, each one direct call. -/

namespace Sys2Proof.Machine

def exec (i : Instr) (s : State) : Host.Outcome State Fault Refusal :=
  match i with
  | .nop ring => Sys2Proof.Machine.execNop ring s
  | .hello ring => Sys2Proof.Machine.execHello ring s
  | .queryDevice ring => Sys2Proof.Machine.execQueryDevice ring s
  | .queryRequest ring => Sys2Proof.Machine.execQueryRequest ring s
  | .tenantBind ring => Sys2Proof.Machine.execTenantBind ring s
  | .tenantUnbind ring => Sys2Proof.Machine.execTenantUnbind ring s
  | .budgetSet ring => Sys2Proof.Machine.execBudgetSet ring s
  | .budgetQuery ring => Sys2Proof.Machine.execBudgetQuery ring s
  | .hullCreate ring => Sys2Proof.Machine.execHullCreate ring s
  | .hullResize ring => Sys2Proof.Machine.execHullResize ring s
  | .hullDestroy ring => Sys2Proof.Machine.execHullDestroy ring s
  | .hullDrain ring => Sys2Proof.Machine.execHullDrain ring s
  | .hullRestore ring => Sys2Proof.Machine.execHullRestore ring s
  | .shellLoad ring => Sys2Proof.Machine.execShellLoad ring s
  | .shellSelect ring => Sys2Proof.Machine.execShellSelect ring s
  | .tensorDefine ring => Sys2Proof.Machine.execTensorDefine ring s
  | .tensorWrite ring => Sys2Proof.Machine.execTensorWrite ring s
  | .tensorRead ring => Sys2Proof.Machine.execTensorRead ring s
  | .tensorFree ring => Sys2Proof.Machine.execTensorFree ring s
  | .tensorClass ring => Sys2Proof.Machine.execTensorClass ring s
  | .variantLoad ring => Sys2Proof.Machine.execVariantLoad ring s
  | .variantArchive ring => Sys2Proof.Machine.execVariantArchive ring s
  | .baseInstall ring => Sys2Proof.Machine.execBaseInstall ring s
  | .baseStage ring => Sys2Proof.Machine.execBaseStage ring s
  | .runGraph ring => Sys2Proof.Machine.execRunGraph ring s
  | .generate ring => Sys2Proof.Machine.execGenerate ring s
  | .cancel ring => Sys2Proof.Machine.execCancel ring s
  | .fence ring => Sys2Proof.Machine.execFence ring s
  | .cycleTableWrite ring => Sys2Proof.Machine.execCycleTableWrite ring s
  | .cycleTableArm ring => Sys2Proof.Machine.execCycleTableArm ring s
  | .prioritySet ring => Sys2Proof.Machine.execPrioritySet ring s
  | .sliceSet ring => Sys2Proof.Machine.execSliceSet ring s
  | .routeQuery ring => Sys2Proof.Machine.execRouteQuery ring s
  | .twinArm ring => Sys2Proof.Machine.execTwinArm ring s
  | .twinSwitch ring => Sys2Proof.Machine.execTwinSwitch ring s
  | .counterSync ring => Sys2Proof.Machine.execCounterSync ring s
  | .recorderArm ring => Sys2Proof.Machine.execRecorderArm ring s
  | .recorderClear ring => Sys2Proof.Machine.execRecorderClear ring s
  | .traceMask ring => Sys2Proof.Machine.execTraceMask ring s
  | .sampleStart ring => Sys2Proof.Machine.execSampleStart ring s
  | .sampleStop ring => Sys2Proof.Machine.execSampleStop ring s
  | .telemetryRead ring => Sys2Proof.Machine.execTelemetryRead ring s
  | .powerPolicy ring => Sys2Proof.Machine.execPowerPolicy ring s
  | .rampSet ring => Sys2Proof.Machine.execRampSet ring s
  | .lifecycleAdvance ring => Sys2Proof.Machine.execLifecycleAdvance ring s
  | .wipe ring => Sys2Proof.Machine.execWipe ring s
  | .firmwareStage ring => Sys2Proof.Machine.execFirmwareStage ring s
  | .firmwareActivate ring => Sys2Proof.Machine.execFirmwareActivate ring s
  | .sqDoorbell fn ring off access => Sys2Proof.Machine.execSqDoorbell fn ring off access s
  | .cqDoorbell fn ring off access => Sys2Proof.Machine.execCqDoorbell fn ring off access s
  | .ringEnable fn ring value => Sys2Proof.Machine.execRingEnable fn ring value s
  | .ringDisable fn ring value => Sys2Proof.Machine.execRingDisable fn ring value s
  | .sqFetch ring data => Sys2Proof.Machine.execSqFetch ring data s
  | .interruptCoalesceTimeout ring => Sys2Proof.Machine.execInterruptCoalesceTimeout ring s
  | .msixVectorUnmask fn vector => Sys2Proof.Machine.execMsixVectorUnmask fn vector s
  | .vfFlr fn => Sys2Proof.Machine.execVfFlr fn s
  | .pfFlr => Sys2Proof.Machine.execPfFlr s
  | .bdpWindowWrite fn chan off data poisoned => Sys2Proof.Machine.execBdpWindowWrite fn chan off data poisoned s
  | .bdpWindowRead fn chan off len => Sys2Proof.Machine.execBdpWindowRead fn chan off len s
  | .bdpBufferDrain chan => Sys2Proof.Machine.execBdpBufferDrain chan s
  | .devCtrSelWrite fn value => Sys2Proof.Machine.execDevCtrSelWrite fn value s
  | .counterClear fn sameCycle => Sys2Proof.Machine.execCounterClear fn sameCycle s
  | .counterClearAll fn => Sys2Proof.Machine.execCounterClearAll fn s
  | .cxlDecoderCommit base => Sys2Proof.Machine.execCxlDecoderCommit base s
  | .cxlDecoderDecommit => Sys2Proof.Machine.execCxlDecoderDecommit s
  | .cxlMemRead hpa len => Sys2Proof.Machine.execCxlMemRead hpa len s
  | .cxlMemWrite hpa data => Sys2Proof.Machine.execCxlMemWrite hpa data s
  | .bar0LowHalfRead fn read => Sys2Proof.Machine.execBar0LowHalfRead fn read s
  | .bar0HighHalfRead fn off => Sys2Proof.Machine.execBar0HighHalfRead fn off s
  | .bar0LowHalfWrite fn off value => Sys2Proof.Machine.execBar0LowHalfWrite fn off value s
  | .bar0HighHalfWrite fn off value => Sys2Proof.Machine.execBar0HighHalfWrite fn off value s
  | .bar0BadAccess fn off width write => Sys2Proof.Machine.execBar0BadAccess fn off width write s
  | .registerWrite agent off wide value setNow => Sys2Proof.Machine.execRegisterWrite agent off wide value setNow s
  | .heatLookupWrite fn value => Sys2Proof.Machine.execHeatLookupWrite fn value s
  | .ftBlkSelWrite fn value => Sys2Proof.Machine.execFtBlkSelWrite fn value s
  | .fabInstallCommit fn value => Sys2Proof.Machine.execFabInstallCommit fn value s
  | .evrWindowAutoRead fn => Sys2Proof.Machine.execEvrWindowAutoRead fn s
  | .logEnable fn => Sys2Proof.Machine.execLogEnable fn s
  | .logTailWrite fn value => Sys2Proof.Machine.execLogTailWrite fn value s
  | .logEntryWrite failed => Sys2Proof.Machine.execLogEntryWrite failed s
  | .spdmRequest req => Sys2Proof.Machine.execSpdmRequest req s
  | .i3cRead off => Sys2Proof.Machine.execI3cRead off s
  | .boundaryScanInstruction instr => Sys2Proof.Machine.execBoundaryScanInstruction instr s
  | .streamStop pod eng => Sys2Proof.Machine.execStreamStop pod eng s
  | .quiescenceReached hull => Sys2Proof.Machine.execQuiescenceReached hull s
  | .shellLoadDone pod => Sys2Proof.Machine.execShellLoadDone pod s
  | .scanOutDone pod => Sys2Proof.Machine.execScanOutDone pod s
  | .scanInDone pod => Sys2Proof.Machine.execScanInDone pod s
  | .endOp tile => Sys2Proof.Machine.execEndOp tile s
  | .repeatOp tile => Sys2Proof.Machine.execRepeatOp tile s
  | .waitOp tile => Sys2Proof.Machine.execWaitOp tile s
  | .inGraphFence tile => Sys2Proof.Machine.execInGraphFence tile s
  | .planeRun op => Sys2Proof.Machine.execPlaneRun op s
  | .streamOp tile => Sys2Proof.Machine.execStreamOp tile s
  | .sop tile => Sys2Proof.Machine.execSop tile s
  | .vint tile => Sys2Proof.Machine.execVint tile s
  | .vfp tile => Sys2Proof.Machine.execVfp tile s
  | .vxlane tile => Sys2Proof.Machine.execVxlane tile s
  | .vcvt tile => Sys2Proof.Machine.execVcvt tile s
  | .vload op => Sys2Proof.Machine.execVload op s
  | .vstore op => Sys2Proof.Machine.execVstore op s
  | .vpush tile => Sys2Proof.Machine.execVpush tile s
  | .vpop tile => Sys2Proof.Machine.execVpop tile s
  | .vsfu tile => Sys2Proof.Machine.execVsfu tile s
  | .hullFaultHandling hull => Sys2Proof.Machine.execHullFaultHandling hull s
  | .stepStart hull => Sys2Proof.Machine.execStepStart hull s
  | .stepBoundaryReached tile => Sys2Proof.Machine.execStepBoundaryReached tile s
  | .queueEntrySend tile q => Sys2Proof.Machine.execQueueEntrySend tile q s
  | .creditReturnSend tile q => Sys2Proof.Machine.execCreditReturnSend tile q s
  | .meshFlitForward x y port errors => Sys2Proof.Machine.execMeshFlitForward x y port errors s
  | .dataFlitArrive tile => Sys2Proof.Machine.execDataFlitArrive tile s
  | .creditFlitArrive tile => Sys2Proof.Machine.execCreditFlitArrive tile s
  | .sfuGrant pod k => Sys2Proof.Machine.execSfuGrant pod k s
  | .sfuResultWrite tile => Sys2Proof.Machine.execSfuResultWrite tile s
  | .stall hull => Sys2Proof.Machine.execStall hull s
  | .chunkIssue pod eng => Sys2Proof.Machine.execChunkIssue pod eng s
  | .streamResume engine cycles => Sys2Proof.Machine.execStreamResume engine cycles s
  | .chunkResponse pod eng => Sys2Proof.Machine.execChunkResponse pod eng s
  | .descriptorComplete pod eng => Sys2Proof.Machine.execDescriptorComplete pod eng s
  | .tierAccess src => Sys2Proof.Machine.execTierAccess src s
  | .arbiterGrant res unit waited service cause => Sys2Proof.Machine.execArbiterGrant res unit waited service cause s
  | .tierAccessEnd id => Sys2Proof.Machine.execTierAccessEnd id s
  | .ceWriteback place service => Sys2Proof.Machine.execCeWriteback place service s
  | .recoveryComplete id ok => Sys2Proof.Machine.execRecoveryComplete id ok s
  | .accessDeadlineExpiry due => Sys2Proof.Machine.execAccessDeadlineExpiry due s
  | .perBankRefresh dTier unit bank => Sys2Proof.Machine.execPerBankRefresh dTier unit bank s
  | .calibrationWindow place ns => Sys2Proof.Machine.execCalibrationWindow place ns s
  | .calOverdue dTier unit => Sys2Proof.Machine.execCalOverdue dTier unit s
  | .scrubRead place service => Sys2Proof.Machine.execScrubRead place service s
  | .frameBoundary => Sys2Proof.Machine.execFrameBoundary s
  | .slotBoundary => Sys2Proof.Machine.execSlotBoundary s
  | .promotionStart handle => Sys2Proof.Machine.execPromotionStart handle s
  | .moveComplete fate => Sys2Proof.Machine.execMoveComplete fate s
  | .ftChunkRead chunk codewords => Sys2Proof.Machine.execFtChunkRead chunk codewords s
  | .ftProgramDone failed => Sys2Proof.Machine.execFtProgramDone failed s
  | .ftEraseDone place ok service => Sys2Proof.Machine.execFtEraseDone place ok service s
  | .ftScrub place retryMean32 maxBits service => Sys2Proof.Machine.execFtScrub place retryMean32 maxBits service s
  | .blockRelocationDone work => Sys2Proof.Machine.execBlockRelocationDone work s
  | .compaction => Sys2Proof.Machine.execCompaction s
  | .staticLevelling channel => Sys2Proof.Machine.execStaticLevelling channel s
  | .ftChannelFailure channel => Sys2Proof.Machine.execFtChannelFailure channel s
  | .boundaryReport hull report => Sys2Proof.Machine.execBoundaryReport hull report s
  | .stepCommit hull => Sys2Proof.Machine.execStepCommit hull s
  | .startNotice hull plan => Sys2Proof.Machine.execStartNotice hull plan s
  | .emitEntry pod => Sys2Proof.Machine.execEmitEntry pod s
  | .servingPortEntry pod port => Sys2Proof.Machine.execServingPortEntry pod port s
  | .expertDispatch hull halfB => Sys2Proof.Machine.execExpertDispatch hull halfB s
  | .kvAdmission hull => Sys2Proof.Machine.execKvAdmission hull s
  | .fabricFlitReceive port flit => Sys2Proof.Machine.execFabricFlitReceive port flit s
  | .ackTimer port => Sys2Proof.Machine.execAckTimer port s
  | .laneLockLoss port lane => Sys2Proof.Machine.execLaneLockLoss port lane s
  | .laneRetrain port lane clean => Sys2Proof.Machine.execLaneRetrain port lane clean s
  | .portDetect port seen => Sys2Proof.Machine.execPortDetect port seen s
  | .portTrainingDone port result => Sys2Proof.Machine.execPortTrainingDone port result s
  | .peerCheck port peer => Sys2Proof.Machine.execPeerCheck port peer s
  | .linkRetrainTimer port => Sys2Proof.Machine.execLinkRetrainTimer port s
  | .crossedRecheck port gone => Sys2Proof.Machine.execCrossedRecheck port gone s
  | .cableRemoved port => Sys2Proof.Machine.execCableRemoved port s
  | .linkDownDetect port => Sys2Proof.Machine.execLinkDownDetect port s
  | .routeUpdate u => Sys2Proof.Machine.execRouteUpdate u s
  | .pathChangeRelease dest => Sys2Proof.Machine.execPathChangeRelease dest s
  | .remoteRequest hdr who g op => Sys2Proof.Machine.execRemoteRequest hdr who g op s
  | .remoteResponse hdr rsp => Sys2Proof.Machine.execRemoteResponse hdr rsp s
  | .fabricTimeout tag => Sys2Proof.Machine.execFabricTimeout tag s
  | .queueOpen hdr x y q => Sys2Proof.Machine.execQueueOpen hdr x y q s
  | .queueGrant hdr credits => Sys2Proof.Machine.execQueueGrant hdr credits s
  | .queueEntry hdr x y q data => Sys2Proof.Machine.execQueueEntry hdr x y q data s
  | .queueCredit hdr pod route credits => Sys2Proof.Machine.execQueueCredit hdr pod route credits s
  | .faultNotice n => Sys2Proof.Machine.execFaultNotice n s
  | .timestampExchange x => Sys2Proof.Machine.execTimestampExchange x s
  | .twinHeartbeatSend => Sys2Proof.Machine.execTwinHeartbeatSend s
  | .twinHeartbeatTimeout => Sys2Proof.Machine.execTwinHeartbeatTimeout s
  | .takingOverAnnounce => Sys2Proof.Machine.execTakingOverAnnounce s
  | .epochReceive hdr body => Sys2Proof.Machine.execEpochReceive hdr body s
  | .epochMarkerReceive epoch abort crc => Sys2Proof.Machine.execEpochMarkerReceive epoch abort crc s
  | .epochAckReceive epoch => Sys2Proof.Machine.execEpochAckReceive epoch s
  | .snapshotApplied => Sys2Proof.Machine.execSnapshotApplied s
  | .twinArmTimeout => Sys2Proof.Machine.execTwinArmTimeout s
  | .twaFault code => Sys2Proof.Machine.execTwaFault code s
  | .hullPeerLoss dev => Sys2Proof.Machine.execHullPeerLoss dev s
  | .powerGood => Sys2Proof.Machine.execPowerGood s
  | .inputUndervoltage => Sys2Proof.Machine.execInputUndervoltage s
  | .inputOutOfRange => Sys2Proof.Machine.execInputOutOfRange s
  | .perstAssert => Sys2Proof.Machine.execPerstAssert s
  | .hotReset => Sys2Proof.Machine.execHotReset s
  | .pcieLinkDown => Sys2Proof.Machine.execPcieLinkDown s
  | .mgmtWatchdogExpiry => Sys2Proof.Machine.execMgmtWatchdogExpiry s
  | .resetReq => Sys2Proof.Machine.execResetReq s
  | .tripRecovery => Sys2Proof.Machine.execTripRecovery s
  | .imageVerify => Sys2Proof.Machine.execImageVerify s
  | .huskStart => Sys2Proof.Machine.execHuskStart s
  | .systemLoad => Sys2Proof.Machine.execSystemLoad s
  | .dramTrain => Sys2Proof.Machine.execDramTrain s
  | .bootWipe => Sys2Proof.Machine.execBootWipe s
  | .tensorRegistration => Sys2Proof.Machine.execTensorRegistration s
  | .bootReady => Sys2Proof.Machine.execBootReady s
  | .guardianSample g => Sys2Proof.Machine.execGuardianSample g s
  | .guardianRestore pod => Sys2Proof.Machine.execGuardianRestore pod s
  | .rampGrant => Sys2Proof.Machine.execRampGrant s
  | .podPointChangeDone pod => Sys2Proof.Machine.execPodPointChangeDone pod s
  | .domainPowerUpDone domain => Sys2Proof.Machine.execDomainPowerUpDone domain s
  | .podIdleTimeout pod => Sys2Proof.Machine.execPodIdleTimeout pod s
  | .inputShort => Sys2Proof.Machine.execInputShort s
  | .prsntBreak => Sys2Proof.Machine.execPrsntBreak s
  | .storageLowAssert => Sys2Proof.Machine.execStorageLowAssert s
  | .storageLowRelease => Sys2Proof.Machine.execStorageLowRelease s
  | .sidebandReversed => Sys2Proof.Machine.execSidebandReversed s
  | .eventPersist => Sys2Proof.Machine.execEventPersist s
  | .sampleCapture fate => Sys2Proof.Machine.execSampleCapture fate s
  | .pcieLinkTrained speed width flit cxl => Sys2Proof.Machine.execPcieLinkTrained speed width flit cxl s
  | .vfEnableWrite enable numVfs => Sys2Proof.Machine.execVfEnableWrite enable numVfs s
  | .hostDmaCompletion tag r => Sys2Proof.Machine.execHostDmaCompletion tag r s
  | .complementaryArm action role ifMajor ifMinor => Sys2Proof.Machine.execComplementaryArm action role ifMajor ifMinor s
  | .newSnapshotRequest epoch cause => Sys2Proof.Machine.execNewSnapshotRequest epoch cause s
  | .twinSwitchSaveBlocks blocks => Sys2Proof.Machine.execTwinSwitchSaveBlocks blocks s

end Sys2Proof.Machine
end

