-- ==== Sys2Proof/Safety.lean ====
section
/-! DEFINITION. The terms that claims use: an outcome that is a next state, a run of such outcomes, the host command of a row,
and when Husk takes and accepts one. -/

namespace Sys2Proof.Machine

/-- An outcome that is a next state. -/
def isNext (r : Result) : Bool :=
  match r with
  | .next _ => true
  | _ => false

/-- `n` steps from `s` end in a next state each time. -/
def safeFor : Nat → State → Bool
  | 0, _ => true
  | n + 1, s =>
    match step s with
    | .next t => safeFor n t
    | _ => false

/-- The memories that the spec gives an address space, in their canonical form: the N-tier, the D-tier and the F-tier. -/
def memoriesWf (s : State) : Bool := Memory.wf s.tier.nmem && Memory.wf s.tier.dmem && Memory.wf s.flash.fmem

/-- The opcode and the ring of a host command's row (R340, R343, R346, R348, R350, R351, R354, R356); none for an event. -/
def hostOp : Instr → Option (Nat × Nat)
  | .nop ring => some (0x00, ring)
  | .hello ring => some (0x01, ring)
  | .queryDevice ring => some (0x02, ring)
  | .queryRequest ring => some (0x03, ring)
  | .tenantBind ring => some (0x04, ring)
  | .tenantUnbind ring => some (0x05, ring)
  | .budgetSet ring => some (0x06, ring)
  | .budgetQuery ring => some (0x07, ring)
  | .hullCreate ring => some (0x10, ring)
  | .hullResize ring => some (0x11, ring)
  | .hullDestroy ring => some (0x12, ring)
  | .hullDrain ring => some (0x13, ring)
  | .hullRestore ring => some (0x14, ring)
  | .shellLoad ring => some (0x15, ring)
  | .shellSelect ring => some (0x16, ring)
  | .tensorDefine ring => some (0x20, ring)
  | .tensorWrite ring => some (0x21, ring)
  | .tensorRead ring => some (0x22, ring)
  | .tensorFree ring => some (0x23, ring)
  | .tensorClass ring => some (0x24, ring)
  | .variantLoad ring => some (0x25, ring)
  | .variantArchive ring => some (0x26, ring)
  | .baseInstall ring => some (0x27, ring)
  | .baseStage ring => some (0x28, ring)
  | .runGraph ring => some (0x30, ring)
  | .generate ring => some (0x31, ring)
  | .cancel ring => some (0x32, ring)
  | .fence ring => some (0x33, ring)
  | .cycleTableWrite ring => some (0x40, ring)
  | .cycleTableArm ring => some (0x41, ring)
  | .prioritySet ring => some (0x42, ring)
  | .sliceSet ring => some (0x50, ring)
  | .routeQuery ring => some (0x51, ring)
  | .twinArm ring => some (0x52, ring)
  | .twinSwitch ring => some (0x53, ring)
  | .counterSync ring => some (0x54, ring)
  | .recorderArm ring => some (0x60, ring)
  | .recorderClear ring => some (0x61, ring)
  | .traceMask ring => some (0x62, ring)
  | .sampleStart ring => some (0x63, ring)
  | .sampleStop ring => some (0x64, ring)
  | .telemetryRead ring => some (0x65, ring)
  | .powerPolicy ring => some (0x70, ring)
  | .rampSet ring => some (0x71, ring)
  | .lifecycleAdvance ring => some (0x72, ring)
  | .wipe ring => some (0x73, ring)
  | .firmwareStage ring => some (0x74, ring)
  | .firmwareActivate ring => some (0x75, ring)
  | _ => none

/-- The command of opcode `op` on `ring` that Husk carries out next: the held one whose turn in its group has come, else the
next of all rings where its group is free; and the state without its entry (R250, R332, R337). -/
def taken (op ring : Nat) (s : State) : Option (Cmd × State) :=
  match startHeld op ring s with
  | some x => some x
  | none => match takeCmd op ring s with
    | none => none
    | some (f, t) => if groupWaits t op then none else some (cmdOf s f, t)

/-- Husk carries out the command `c` of opcode `op` on `ring` next, once it has answered the undefined opcodes before it, and
`c` passes the checks of R336; `t` is the state without its entry. -/
def ready (op ring : Nat) (s : State) (c : Cmd) (t : State) : Prop :=
  taken op ring (rejectUndefined s) = some (c, t) ∧ accept c t = none

end Sys2Proof.Machine
end

