-- ==== Sys2Proof/Certificates/Slice0/Obligations.lean ====
section
/-! DEFINITION. The statements of this model, for the provers: each formalises rules of spec/ or properties of the whole
machine. -/

open Sys2Proof Sys2Proof.Machine

/-- One step runs exactly the command at the front of the queue (each row is whole and indivisible). -/
def Obligations.StepRunsFrontCommand : Prop :=
  ∀ (c : Instr) (rest : List Instr) (s : State),
    step { s with pending := c :: rest } = exec c { s with pending := rest }

/-- The model's choice (log entry 1): with nothing waiting the block idles. -/
def Obligations.EmptyQueueIdles : Prop :=
  ∀ s : State, s.pending = [] → step s = .next s

/-- No command faults, and the one refusal is a private boundary-scan instruction in FACTORY, whose effect R437 does not give. -/
def Obligations.EveryCommandAnswers : Prop :=
  ∀ (c : Instr) (s : State),
    isNext (exec c s) = true ∨
      ∃ code, c = .boundaryScanInstruction (.other code) ∧ s.rd LC_STATE = 0 ∧ s.pwr.good = true ∧ s.pwr.reversed = false
        ∧ exec c s = .refused .privateTapInstruction

/-- Husk takes a ring's commands in ring order and the rings by priority (R337); a command of a group in which another
runs is taken and waits for its turn (R250). A row whose command is not carried out answers only the undefined
opcodes that stand next, each with ST_BAD_OPCODE (R336). The model's choices in it: log entry 102 (that a command of
a waiting group is taken and held in the order taken). -/
def Obligations.HostCommandWaitsItsTurn : Prop :=
  (∀ (i : Instr) (op ring : Nat) (s : State), hostOp i = some (op, ring) →
    startHeld op ring (rejectUndefined s) = none → takeCmd op ring (rejectUndefined s) = none →
      exec i s = .next (rejectUndefined s)) ∧
  (∀ (i : Instr) (op ring : Nat) (s t : State) (f : Fetched), hostOp i = some (op, ring) →
    startHeld op ring (rejectUndefined s) = none → takeCmd op ring (rejectUndefined s) = some (f, t) → groupWaits t op = true →
      exec i s = .next { t with host := { t.host with held := t.host.held ++ [f] } }) ∧
  (∀ s f, huskNext s = some f → opSpec (entryOpcode f.entry) = none →
    rejectNext s = (cmdOf s f).done ST_BAD_OPCODE 0 (entryOpcode f.entry) (takeFetched f s)) ∧
  (∀ s, (∀ f, huskNext s = some f → (opSpec (entryOpcode f.entry)).isSome = true) → rejectUndefined s = s)

/-- R336: Husk completes a command with the status of the first check that fails, and such a command changes nothing.
The model's choices in it: log entry 102 (when a held command is checked). -/
def Obligations.RejectedCommandChangesNothing : Prop :=
  ∀ (i : Instr) (op ring : Nat) (s t : State) (c : Cmd) (f : Nat × Nat),
    hostOp i = some (op, ring) → taken op ring (rejectUndefined s) = some (c, t) → accept c t = some f →
      exec i s = .next (c.done f.1 0 f.2 t)

/-- The first six checks of R336 in the order in which Husk makes them. The model's choices in it: log entry 104 (the
HULL field of QUERY_DEVICE among the fields checked). -/
def Obligations.AcceptanceOrder : Prop :=
  (∀ c s, opSpec (entryOpcode c.e) = none → accept c s = some (ST_BAD_OPCODE, entryOpcode c.e)) ∧
  (∀ c s o, opSpec (entryOpcode c.e) = some o → s.rdB BOOT_PARKED = true → parkedOp (entryOpcode c.e) = false →
    accept c s = some (ST_DEVICE_PARKED, 0)) ∧
  (∀ c s o f, opSpec (entryOpcode c.e) = some o → (s.rdB BOOT_PARKED = false ∨ parkedOp (entryOpcode c.e) = true) →
    deniedField s c (entryOpcode c.e) o = some f → accept c s = some (ST_ACCESS_DENIED, f)) ∧
  (∀ c s o, opSpec (entryOpcode c.e) = some o → (s.rdB BOOT_PARKED = false ∨ parkedOp (entryOpcode c.e) = true) →
    deniedField s c (entryOpcode c.e) o = none →
    (lifeAccepts (s.rd LC_STATE) (entryOpcode c.e) = false ∨
      (parkedOp (entryOpcode c.e) = false ∧ (tget s.host.hello c.fn {}).done = false)) →
    accept c s = some (ST_DEVICE_STATE, s.rd LC_STATE)) ∧
  (∀ c s o, opSpec (entryOpcode c.e) = some o → (s.rdB BOOT_PARKED = false ∨ parkedOp (entryOpcode c.e) = true) →
    deniedField s c (entryOpcode c.e) o = none → lifeAccepts (s.rd LC_STATE) (entryOpcode c.e) = true →
    (parkedOp (entryOpcode c.e) = true ∨ (tget s.host.hello c.fn {}).done = true) →
    isStandby s = true → standbyAdmits c (entryOpcode c.e) = false → accept c s = some (ST_TWIN_STANDBY, 0)) ∧
  (∀ c s o f, opSpec (entryOpcode c.e) = some o → (s.rdB BOOT_PARKED = false ∨ parkedOp (entryOpcode c.e) = true) →
    deniedField s c (entryOpcode c.e) o = none → lifeAccepts (s.rd LC_STATE) (entryOpcode c.e) = true →
    (parkedOp (entryOpcode c.e) = true ∨ (tget s.host.hello c.fn {}).done = true) →
    (isStandby s = false ∨ standbyAdmits c (entryOpcode c.e) = true) → badField c (entryOpcode c.e) o = some f →
    accept c s = some (ST_BAD_PARAM, f))

/-- Completion of the device, tenant and budget commands, each with the effect of its rule (R341). The model's choices
in it: log entries 104, 115, 135, 175 (the hull of WHAT 2 from the HULL field, ST_HULL_NOT_LEAD by what the device
remembers, the log entry of HELLO, the reserved bits of an HREF). -/
def Obligations.DeviceCommandsComplete : Prop :=
  (∀ ring s c t, ready 0x00 ring s c t → exec (.nop ring) s = .next (c.done ST_OK 0 0 t)) ∧
  (∀ ring s c t u, ready 0x01 ring s c t →
    u = logGenerate 3 0 0 (BitVec.ofNat 384 (packBytes [(0, 1, c.fn), (1, 2, c.p 12 2), (8, 8, c.p 16 8)])) t →
    u.boot.recovery = false → u.boot.helloPark = false → (c.fn = 0 ∨ (tget u.host.hello 0 {}).done = true) →
    bits (c.p 12 2) 8 8 = bits (u.rd32 DEV_IFVER) 8 8 →
    exec (.hello ring) s =
      .next (c.done ST_OK 0 (helloDetail u (bits (c.p 12 2) 0 8)) (helloOk c.fn (bits (c.p 12 2) 0 8) u))) ∧
  (∀ ring s c t, ready 0x02 ring s c t → c.p 24 1 = 0 →
    exec (.queryDevice ring) s =
      .next (c.done ST_OK (deviceBlock t).length 0 (dmaOut c.fn (c.p 12 8) (deviceBlock t) t))) ∧
  (∀ ring s c t b, ready 0x02 ring s c t → c.p 24 1 = 1 → hrefBad t (c.p 28 8) 28 = none →
    b = leBytes (tensorRaw (t.tensor (hrefHandle (c.p 28 8)))).toNat 64 →
    exec (.queryDevice ring) s = .next (c.done ST_OK b.length 0 (dmaOut c.fn (c.p 12 8) b t))) ∧
  (∀ ring s c t, ready 0x02 ring s c t → c.p 24 1 = 2 → (t.hull c.hull).live = true → (t.hull c.hull).destroying = false →
    exec (.queryDevice ring) s =
      .next (c.done ST_OK (hullBlock t c.hull).length 0 (dmaOut c.fn (c.p 12 8) (hullBlock t c.hull) t))) ∧
  (∀ ring s c t i, ready 0x03 ring s c t → t.srv.elsewhere.contains (c.p 12 2, c.p 14 2) = false →
    findRequest t (c.p 12 2) (c.p 14 2) = some i →
    exec (.queryRequest ring) s =
      .next (completeAt c.ring c.e ST_OK (t.request i).progress (t.request i).stepVal.toNat
        (requestDetail (t.request i) + (t.request i).state * 2 ^ 8 + b2n (t.request i).paused * 2 ^ 11)
        (if c.p 16 8 = 0 then t else dmaOut c.fn (c.p 16 8)
          (if isLive (t.request i) then zeros 32 else leBytes (t.request i).finalRaw.toNat 32) t))) ∧
  (∀ ring s c t, ready 0x03 ring s c t → t.srv.elsewhere.contains (c.p 12 2, c.p 14 2) = true →
    exec (.queryRequest ring) s = .next (c.done ST_HULL_NOT_LEAD 0 0 t)) ∧
  (∀ ring s c t k, ready 0x04 ring s c t →
    (boundSlots t).find? (fun n => (t.slot n).identity = c.p 12 4) = none → freeSlot t = some k →
    exec (.tenantBind ring) s =
      .next (commandEpoch t (c.done ST_OK 0 k
        (t.setSlot k { bound := true, identity := c.p 12 4, owner := c.fn, since := t.sched.frame })))) ∧
  (∀ ring s c t, ready 0x05 ring s c t → (t.slot c.tenant).bound = true → (slotRequests t c.tenant).length = 0 →
    (handles t).any (fun h => (t.tensor h).bound && (t.tensor h).tenant = c.tenant) = false →
    exec (.tenantUnbind ring) s = .next (commandEpoch t (c.done ST_OK 0 0 (t.setSlot c.tenant {})))) ∧
  (∀ ring s c t, ready 0x06 ring s c t → (t.slot c.tenant).bound = true →
    exec (.budgetSet ring) s =
      .next (commandEpoch t (formAll (c.done ST_OK 0 0 (t.setSlot c.tenant
        (budgetSlot (t.slot c.tenant) (c.p 12 4) (c.p 16 4) (c.p 20 4) t.sched.frame)))))) ∧
  (∀ ring s c t, ready 0x07 ring s c t → (t.slot c.tenant).bound = true → c.p 12 8 ≠ 0 →
    exec (.budgetQuery ring) s =
      .next (c.done ST_OK (levelShown (t.slot c.tenant)) (t.slot c.tenant).reserved
        (dmaOut c.fn (c.p 12 8) (budgetBlock (t.slot c.tenant)) t)))

/-- The tensor commands of R346 and R348, each with the effect of its rule. The model's choices in it: log entries
81–83, 175 (the order of the tests of TENSOR_WRITE and TENSOR_DEFINE, buffers read in pieces, the reserved bits of
an HREF). -/
def Obligations.TensorCommandsComplete : Prop :=
  (∀ ring s c t h u v, ready 0x20 ring s c t →
    (bit (c.p 13 1) 2 = false ∨ (t.slot c.tenant).bound = true) → (freeHandle t).isNone = false →
    (bit (c.p 13 1) 3 = true ∨ shapeOk (c.p 12 1) (c.p 16 8) (c.p 24 8) = true) →
    (if bit (c.p 13 1) 3 then definePlainRegion (bit (c.p 13 1) 4) (c.p 16 8) t
      else defineTensor { cls := bits (c.p 13 1) 0 2, format := c.p 12 1, elem := c.p 16 8, scale := c.p 24 8 } t)
        = .inr (h, u) →
    v = (if bit (c.p 13 1) 2 then u.setTensor h { u.tensor h with bound := true, tenant := c.tenant } else u) →
    exec (.tensorDefine ring) s = .next (commandEpoch t (c.done ST_OK 0 (hrefOf v h) v))) ∧
  (∀ ring s c t, ready 0x21 ring s c t → transferBad c true t = none → c.p 21 1 = 0 →
    exec (.tensorWrite ring) s =
      .next (pumpWrite (c.run (.tensorWrite (hrefHandle (c.p 12 8)) (bit (c.p 20 1) 0) (c.p 24 8) (c.p 40 8) 0))
        (startRun (c.run (.tensorWrite (hrefHandle (c.p 12 8)) (bit (c.p 20 1) 0) (c.p 24 8) (c.p 40 8) 0)) t))) ∧
  (∀ ring s c t, ready 0x22 ring s c t → transferBad c false t = none → c.p 21 1 = 0 →
    exec (.tensorRead ring) s =
      .next (pumpRead (c.run (.tensorRead (hrefHandle (c.p 12 8)) (bit (c.p 20 1) 0) (c.p 24 8) (c.p 40 8) 0))
        (startRun (c.run (.tensorRead (hrefHandle (c.p 12 8)) (bit (c.p 20 1) 0) (c.p 24 8) (c.p 40 8) 0)) t))) ∧
  (∀ ring s c t, ready 0x21 ring s c t → transferBad c true t = none → c.p 21 1 = 1 →
    exec (.tensorWrite ring) s = .next (takeChannel c true t)) ∧
  (∀ ring s c t, ready 0x22 ring s c t → transferBad c false t = none → c.p 21 1 = 1 →
    exec (.tensorRead ring) s = .next (takeChannel c false t)) ∧
  (∀ ring s c t, ready 0x23 ring s c t → hrefBad t (c.p 12 8) 12 = none → (t.tensor (hrefHandle (c.p 12 8))).binds = 0 →
    tensorInUse t (hrefHandle (c.p 12 8)) = false →
    exec (.tensorFree ring) s =
      .next (commandEpoch t (pumpBaseStages (kickAll (c.done ST_OK 0 0 (freeTensor (hrefHandle (c.p 12 8)) t)))))) ∧
  (∀ ring s c t, ready 0x24 ring s c t → hrefBad t (c.p 12 8) 12 = none →
    (c.fn = 0 ∨ (t.tensor (hrefHandle (c.p 12 8))).readOnly = false) →
    exec (.tensorClass ring) s =
      .next (commandEpoch t (c.done ST_OK 0 0 (t.setTensor (hrefHandle (c.p 12 8))
        { t.tensor (hrefHandle (c.p 12 8)) with cls := c.p 20 1 })))) ∧
  (∀ ring s c t, ready 0x25 ring s c t → (bit (c.p 32 1) 0 = false ∨ (t.slot c.tenant).bound = true) →
    exec (.variantLoad ring) s =
      .next (dmaIn c.fn (c.p 12 8) (32 * c.p 20 4) (.command c.seqNo) (startRun (c.run (.variantList (c.p 20 4))) t)))

/-- The commands that write the F-tier and stage from it (R349). The model's choices in it: log entries 83, 86, 87, 90,
209, 210 (lists read in pieces, REMOVE while the F-tier is write-restricted, PROGRESS, a LATE staging and the DETAIL
of BASE_STAGE). -/
def Obligations.FlashCommandsComplete : Prop :=
  (∀ ring s c t, ready 0x26 ring s c t → bit (c.p 24 1) 0 = false → t.rdB FT_RESTRICTED = false →
    exec (.variantArchive ring) s =
      .next (dmaIn c.fn (c.p 12 8) (8 * c.p 20 4) (.command c.seqNo) (startRun (c.run (.archiveList (c.p 20 4))) t))) ∧
  (∀ ring s c t, ready 0x26 ring s c t → bit (c.p 24 1) 0 = true → (tget t.flash.archives (c.p 26 2) {}).live = true →
    archiveInUse t (c.p 26 2) = none →
    exec (.variantArchive ring) s =
      .next (commandEpoch t (c.done ST_OK 0 (c.p 26 2) (removeArchive (c.p 26 2) t)))) ∧
  (∀ ring s c t, ready 0x27 ring s c t → (baseHandles t).any (fun h => (t.tensor h).binds ≠ 0) = false →
    sourceBad t (c.p 12 8) 12 = none → (c.p 20 8 = 0 ∨ sourceBad t (c.p 20 8) 20 = none) → t.rdB FT_RESTRICTED = false →
    exec (.baseInstall ring) s =
      .next (dmaIn c.fn (c.p 28 8) (32 * c.p 36 4) (.command c.seqNo) (startRun (c.run (.baseManifest (c.p 36 4))) t))) ∧
  (∀ ring s c t hs, ready 0x28 ring s c t →
    hs = (baseHandles t).filter (fun h => !(t.tensor h).inN && !(t.tensor h).inD) →
    exec (.baseStage ring) s =
      .next (pumpBaseStage (c.run (.baseStaging hs [] 0 none)) (startRun (c.run (.baseStaging hs [] 0 none)) t))) ∧
  (∀ r fresh left done short s left' short' u, r.kind = .baseStaging fresh left done short → placementOn s = true →
    fresh.foldl stageOne (left, short, s) = (left', short', u) →
    (∀ h ∈ left', ((u.tensor h).valid && (u.tensor h).move = MOVE_STAGE) = false) →
    pumpBaseStage r s = finishRun r (if short' = none then ST_OK else ST_NO_ROOM)
      (done + (left'.filter (fun h => (u.tensor h).valid && (u.tensor h).inD)).foldl
        (fun n h => n + scaleOff (u.tensor h) + (u.tensor h).scale) 0) (short'.getD 0) u)

/-- The request commands of R350 and R351. The model's choices in it: log entries 113, 115, 122 (the entry of a request,
ST_HULL_NOT_LEAD by what the device remembers, what FENCE waits for). -/
def Obligations.RequestCommandsComplete : Prop :=
  (∀ ring s c t i, ready 0x30 ring s c t → admitBad c t = none → freeEntry t = some i →
    exec (.runGraph ring) s = .next (commandEpoch t (enterRequest c i t))) ∧
  (∀ ring s c t i, ready 0x31 ring s c t → admitBad c t = none → freeEntry t = some i →
    exec (.generate ring) s = .next (commandEpoch t (enterRequest c i t))) ∧
  (∀ ring s c t i, ready 0x32 ring s c t → t.srv.elsewhere.contains (c.p 12 2, c.p 14 2) = false →
    findRequest t (c.p 12 2) (c.p 14 2) = some i → isLive (t.request i) = true →
    inStep t i = false →
    exec (.cancel ring) s =
      .next (commandEpoch t (formStep (t.request i).hull (admitAll (t.request i).hull
        (c.done ST_OK 0 0 (cancelRequest i t)))))) ∧
  (∀ ring s c t i, ready 0x32 ring s c t → t.srv.elsewhere.contains (c.p 12 2, c.p 14 2) = false →
    findRequest t (c.p 12 2) (c.p 14 2) = some i → isLive (t.request i) = true →
    inStep t i = true →
    exec (.cancel ring) s =
      .next (startRun (c.run (.cancelling i)) (t.setRequest i { t.request i with cancel := true }))) ∧
  (∀ ring s c t, ready 0x32 ring s c t → t.srv.elsewhere.contains (c.p 12 2, c.p 14 2) = true →
    exec (.cancel ring) s = .next (c.done ST_HULL_NOT_LEAD 0 0 t)) ∧
  (∀ ring s c t, ready 0x33 ring s c t →
    exec (.fence ring) s =
      .next (pumpFence (c.run (.fencing c.seqNo (c.p 12 1 = 1)))
        (startRun (c.run (.fencing c.seqNo (c.p 12 1 = 1))) t)))

/-- The hull and shell commands of R343 and R345. The model's choices in it: log entries 91, 98, 99, 101, 163, 164, 175,
185, 196 (the package read as one read with its unwritten pages noted, the state of a hull between, loads one after
another, which hull is busy). -/
def Obligations.HullCommandsComplete : Prop :=
  (∀ ring s c t u un pkg, ready 0x10 ring s c t → createRefs c t = none → pkg = hrefHandle (c.p 12 8) →
    look (frontRanges (pkgRead t pkg) pkg ++ [(hrefHandle (c.p 20 8), 0, 8 * c.p 28 4)]) t = (none, un, u) →
    createBad c u = none →
    exec (.hullCreate ring) s =
      .next (commandEpoch t (advanceAll (createHull { c.run (.creating 0 0) with unwritten := un } pkg u)))) ∧
  (∀ ring s c t u un pkg, ready 0x11 ring s c t → hullBad t c.hull false false true = none →
    (runOf t c.hull).isSome = false → hrefBad t (c.p 12 8) 12 = none → pkg = hrefHandle (c.p 12 8) →
    look (frontRanges (pkgRead t pkg) pkg) t = (none, un, u) →
    exec (.hullResize ring) s =
      .next (commandEpoch t (if pkGraph (pkgRead u pkg) = (u.hull c.hull).graph.toNat && !(u.hull c.hull).awaiting
        then startRelocation c c.hull (pkgRead u pkg) un u else startRepackaging c c.hull pkg un u))) ∧
  (∀ ring s c t u, ready 0x12 ring s c t → hullBad t c.hull true true true = none →
    u = finishRuns (drainRun c.hull) ST_NO_SUCH_HULL 0 t →
    exec (.hullDestroy ring) s =
      .next (commandEpoch t (advanceHull c.hull (discardHalted c.hull (beginHalt c.hull
        (startRun (c.run (.destroying c.hull)) (u.setHull c.hull { u.hull c.hull with destroying := true }))))))) ∧
  (∀ ring s c t, ready 0x13 ring s c t → hullBad t c.hull true true false = none → (runOf t c.hull).isSome = false →
    exec (.hullDrain ring) s =
      .next (advanceHull c.hull (beginHalt c.hull (startRun (c.run (.draining c.hull))
        (t.setHull c.hull { t.hull c.hull with drained := false }))))) ∧
  (∀ ring s c t u, ready 0x14 ring s c t → hullBad t c.hull false true false = none → (t.hull c.hull).drained = true →
    (runOf t c.hull).isSome = false → (t.hull c.hull).pods.any (fun p => t.rd (POD_STATE p) ≠ POD_HALTED) = false →
    beginRestore c.hull (startRun (c.run (.restoring c.hull)) t) = .inr u →
    exec (.hullRestore ring) s = .next u) ∧
  (∀ ring s c t u un pkg, ready 0x15 ring s c t → hullBad t c.hull false false false = none → hrefBad t (c.p 12 8) 12 = none →
    pkg = hrefHandle (c.p 12 8) → look [(pkg, 0, 64)] t = (none, un, u) →
    (runOf u c.hull).isSome = false → slotBusy u c.hull (c.p 21 1) = false →
    pkGraph (pkgRead u pkg) = (u.hull c.hull).graph.toNat → pkPods (pkgRead u pkg) = (u.hull c.hull).pods.length →
    pkMulti (pkgRead u pkg) = (u.hull c.hull).multi → c.p 20 1 < pkConfigs (pkgRead u pkg) →
    exec (.shellLoad ring) s =
      .next (nextLoad c.hull (startRun { c.run (.loading c.hull (c.p 21 1) (c.p 20 1) pkg) with unwritten := un } u))) ∧
  (∀ ring s c t, ready 0x16 ring s c t → hullBad t c.hull false false false = none →
    (t.hull c.hull).pods.any (fun p => t.rd (POD_STATE p) ≠ POD_LOADED) = false → hullRuns t c.hull = false →
    activePersists t c.hull = false →
    (t.hull c.hull).pods.any (fun p => (reachableSlots t c.hull (c.p 12 1)).any (fun n => t.rd (SHL_SLOT p n) < 2)) = false →
    exec (.shellSelect ring) s =
      .next (commandEpoch t (c.done ST_OK 0 (c.p 12 1) ((t.hull c.hull).pods.foldl (fun s p => (List.range 160).foldl
        (fun s i => s.setTile (p * 160 + i) { s.tile (p * 160 + i) with pend := some (c.p 12 1) }) s)
        (t.setHull c.hull { t.hull c.hull with select := some (c.p 12 1) })))))

/-- The cyclic-schedule commands and PRIORITY_SET (R355). The model's choices in it: log entries 83, 119–121 (the
entries read in pieces, the tests of the arm, the pins). -/
def Obligations.ScheduleCommandsComplete : Prop :=
  (∀ ring s c t, ready 0x40 ring s c t → armPending t = false →
    exec (.cycleTableWrite ring) s =
      .next (dmaIn c.fn (c.p 24 8) (16 * c.p 14 2) (.command c.seqNo)
        (startRun (c.run (.cycleSource (c.p 12 2) (c.p 14 2) (c.p 16 1))) t))) ∧
  (∀ ring s c t hulls hs u, ready 0x41 ring s c t → armPending t = false → shadowBad t = none →
    hulls = (namedOnly t (shadowBank t) (activeBank t)).filter (fun h => (t.hull h).pinned = []) →
    hs = (hulls.flatMap (declaredSet t)).eraseDups → canPin hs t = true →
    u = hulls.foldl (fun s h => s.setHull h { s.hull h with pinned := declaredSet s h }) t →
    exec (.cycleTableArm ring) s =
      .next (pumpCycle (c.run (.cyclePinning (c.p 16 8) hulls hs)) (startRun (c.run (.cyclePinning (c.p 16 8) hulls hs)) u))) ∧
  (∀ ring s c t, ready 0x42 ring s c t →
    exec (.prioritySet ring) s =
      .next (c.done ST_OK 0 0 (t.setRingAux (c.p 12 2) { t.ringAux (c.p 12 2) with priority := c.p 14 1 })))

/-- The power, life-cycle, wipe and firmware commands (R357). The model's choices in it: log entries 21, 22, 24, 31,
33–36 (the slot and the event of the firmware commands, WIPE by MASK, its duration and its paced power-off, the
tests of LIFECYCLE_ADVANCE). -/
def Obligations.PowerCommandsComplete : Prop :=
  (∀ ring s c t, ready 0x70 ring s c t →
    exec (.powerPolicy ring) s =
      .next (c.done ST_OK 0 0 (((t.wr PWR_POD_IDLE (c.p 12 1)).wr PWR_IDLE_MS (c.p 16 4)).wr PWR_CAP (c.p 20 4)))) ∧
  (∀ ring s c t, ready 0x71 ring s c t →
    exec (.rampSet ring) s =
      .next (c.done ST_OK 0 0 (changeCeiling (fun s => (s.wr PWR_CEILING (c.p 12 4)).wr PWR_LOW_CEILING (c.p 16 4)) t))) ∧
  (∀ ring s c t, ready 0x72 ring s c t → c.p 16 4 = 0x4C435943 → transitionAllowed (t.rd LC_STATE) (c.p 12 1) = true →
    anyHull t = false → paired t = false →
    exec (.lifecycleAdvance ring) s =
      .next (resetDevice CAUSE_LIFECYCLE (c.done ST_OK 0 0
        { t.wr LC_PENDING 1 with boot := { t.boot with lcTarget := c.p 12 1 } }))) ∧
  (∀ ring s c t m d n u, ready 0x73 ring s c t → anyHull t = false → m = c.p 12 1 →
    n = (if bit m 1 then wipeTier false (freeAllTensors t) else freeAllTensors t) →
    d = (if bit m 2 then wipeTier true n else n) → u = wipeCounters (noteWipe (bit m 1) (bit m 2) (refreshHeat d)) →
    (bit m 0 = false ∨ (∀ p < 80, domainIsOn u p = false) → exec (.wipe ring) s = .next (commandEpoch t (c.done ST_OK 0 0 u))) ∧
    (bit m 0 = true → (∃ p < 80, domainIsOn u p = true) → exec (.wipe ring) s =
      .next (commandEpoch t (startRun (c.run .wiping) (((List.range 80).foldl
        (fun s p => if domainIsOn s p then requestRamp (.domainOff p) s else s) u).wr WIPE_ACTIVE 1))))) ∧
  (∀ ring s c t u v, ready 0x74 ring s c t → t.rdB BOOT_TRIAL = false → u = t.wr (FW_VALID (inactiveSlot t true)) 0 →
    v = (if u.boot.recovery then u else prefer (u.rd BOOT_SLOT) u) → c.p 20 4 ≠ 0 →
    exec (.firmwareStage ring) s =
      .next (dmaIn c.fn (c.p 12 8) (c.p 20 4) (.command c.seqNo) (startRun (c.run (.imageRead (c.p 20 4))) v))) ∧
  (∀ ring s c t, ready 0x75 ring s c t →
    t.rdB (FW_VALID (inactiveSlot t false)) = true → t.rd MIN_SVN ≤ t.rd (FW_SVN (inactiveSlot t false)) →
    (c.p 12 1 ≠ 1 → exec (.firmwareActivate ring) s =
      .next (c.done ST_OK 0 0 (firmwareEvent false (prefer (inactiveSlot t false) t)))) ∧
    (c.p 12 1 = 1 → (paired t = false ∨ t.rdB TWIN_ACTIVE = false) → exec (.firmwareActivate ring) s =
      .next (resetDevice CAUSE_ACTIVATE (c.done ST_OK 0 0 (firmwareEvent false (prefer (inactiveSlot t false) t))))))

/-- R396: the events that reset the device, each with the cause that PWR_RESET_CAUSE records. The model's choices in it:
log entries 25, 26, 52, 53 (when RESET_REQ# may have risen, PERST# at power-good, PRSNT and the short at power-good,
the reversed header). -/
def Obligations.ResetEventsComplete : Prop :=
  (∀ s t, s.pwr.good = false → s.pwr.reversed = false →
    t = resetDevice CAUSE_POWER_ON { s with pwr := { s.pwr with
      good := true, shorted := false, present := true, budget := 20000000, budgetAt := 0, secondTrip := false,
      lastTrip := none, resetLow := none } } →
    exec .powerGood s = .next (State.emit { t with boot := { t.boot with prevTime := s.boot.prevTime } } (.pwrOk true))) ∧
  (∀ s, s.pwr.good = true → exec .inputOutOfRange s = .next (losePower s)) ∧
  (∀ s, s.pwr.good = true → ∃ t, exec .inputShort s = .next t ∧ t.pwr.shorted = true ∧ t.pwr.good = false ∧
    t.bar = (losePower s).bar ∧ t.tiles = [] ∧ t.pods = []) ∧
  (∀ s, s.pwr.good = true → exec .perstAssert s = .next (resetDevice 1 s)) ∧
  (∀ s, s.pwr.good = true → s.host.linkUp = true → exec .hotReset s = .next (resetDevice 2 s)) ∧
  (∀ s, s.pwr.good = true → s.host.linkUp = true → exec .pcieLinkDown s = .next (resetDevice 3 s)) ∧
  (∀ s, s.pwr.good = true → 5 ≤ s.boot.done → s.boot.recovery = false →
    exec .mgmtWatchdogExpiry s = .next (resetDevice 6 s)) ∧
  (∀ s, s.pwr.good = true → s.pwr.reversed = false → s.pwr.resetLow = none →
    exec .resetReq s = .next (resetDevice 7 { s with pwr := { s.pwr with resetLow := some s.counter.toNat } })) ∧
  (∀ s t, s.pwr.good = true → s.pwr.reversed = false → s.pwr.resetLow = some t → s.counter.toNat < t + 110000000 →
    exec .resetReq s = .next (State.raise { s with pwr := { s.pwr with resetLow := some s.counter.toNat } } PWR_SB_STATUS 2)) ∧
  (∀ s, s.pwr.good = true → s.pwr.tripped = true → s.pwr.temps.all (fun x => signed x.2 16 ≤ 85 * 16) = true →
    exec .tripRecovery s = .next (resetDevice 8 s))

/-- R398 and R416: what every reset clears, and the counter that only power-on sets to 0. The model's choices in it: log
entries 4, 30 (what the cleared fields hold, the tensor table built anew). -/
def Obligations.ResetClearsAndKeeps : Prop :=
  ∀ (cause : Nat) (s : State),
    (resetDevice cause s).tiles = [] ∧ (resetDevice cause s).pods = [] ∧ (resetDevice cause s).routers = [] ∧
    (resetDevice cause s).srv = {} ∧ (resetDevice cause s).tier.tensors = [] ∧ (resetDevice cause s).tier.nmem = [] ∧
    (resetDevice cause s).host.running = [] ∧ (resetDevice cause s).host.husk = [] ∧
    (resetDevice cause s).counter = (if cause = 0 then 0 else s.counter) ∧
    (resetDevice cause s).flash.fmem = s.flash.fmem ∧ (resetDevice cause s).boot.images = s.boot.images ∧
    (resetDevice cause s).boot.done = 1 ∧ (resetDevice cause s).pending = s.pending

/-- R396: the device records the cause in PWR_RESET_CAUSE. -/
def Obligations.ResetCauseRecorded : Prop :=
  ∀ (cause : Nat) (s : State), cause ≤ 8 → (resetDevice cause s).rd PWR_RESET_CAUSE = cause

/-- R400: the steps of the power-up sequence, each with its effect. The model's choices in it: log entries 16–20, 24,
28–32, 35 (the PHASE at each event, their order, the F-tier at IMAGE_VERIFY, the counts of failed boots, the choice
in sequence, the twin ports at SYSTEM_LOAD, the recorder after a transition). -/
def Obligations.BootStepsComplete : Prop :=
  (∀ s u c v t, s.pwr.good = true → s.boot.done = 1 → s.pwr.present = true → u = accrue s → rampReady (.domainOn 98) u = true →
    c = chooseImage u →
    v = (if c.fallback then traceIn 16 64 [((flashOn u).counter.toNat - (flashOn u).boot.since) / 1000]
      ((flashOn u).raise PWR_BOOT_STATUS 13) else flashOn u) →
    t = (if c.rejected then v.raise PWR_BOOT_STATUS 14 else v) →
    (∀ n, c.slot = some n → exec .imageVerify s = .next (enterPhase 1 4 (((t.setImage n { t.image n with
      failures := (t.image n).failures + 1, tried := (t.image n).tried || !t.rdB (FW_CONFIRMED n) }).wr BOOT_SLOT n).wrB
      BOOT_TRIAL (!t.rdB (FW_CONFIRMED n))))) ∧
    (c.slot = none → exec .imageVerify s = .next (enterPhase 9 4
      (State.wr { t with boot := { t.boot with recovery := true } } BOOT_PARKED 1)))) ∧
  (∀ s t, s.pwr.good = true → s.boot.done = 4 → s.boot.recovery = false →
    t = recordEvent 0x0801 none none
      (payload [(32, 1, (enterPhase 2 5 (s.wr32 DEV_IFVER (s.rd (FW_VERSION (s.rd BOOT_SLOT))))).rd PWR_RESET_CAUSE),
        (34, 2, (enterPhase 2 5 (s.wr32 DEV_IFVER (s.rd (FW_VERSION (s.rd BOOT_SLOT))))).boot.prevTime)])
      (enterPhase 2 5 (s.wr32 DEV_IFVER (s.rd (FW_VERSION (s.rd BOOT_SLOT))))) →
    bits (t.rd32 PWR_BOOT_STATUS) 13 2 = 0 → exec .huskStart s = .next t) ∧
  (∀ s t, s.pwr.good = true → s.boot.done = 5 → t = finishTransition s →
    exec .systemLoad s = .next (enterPhase 3 6 (wantDomain 99 (enterPort 17 1 (enterPort 16 1
      (reloadRecorder (loadInstall (t.wrB FT_BASE_VALID (t.flash.base ≠ [])))))))))  ∧
  (∀ s, s.pwr.good = true → s.boot.done = 6 →
    exec .dramTrain s = .next (enterPhase 4 7 ((List.range 14).foldl (fun s i => wantDomain (84 + i) s) s))) ∧
  (∀ s, s.pwr.good = true → s.boot.done = 7 → (List.range 14).all (fun i => domainIsOn s (84 + i)) = true →
    exec .bootWipe s = .next (enterPhase 5 8 (wipeCounters (noteWipe true true (wipeTier true (wipeTier false s)))))) ∧
  (∀ s, s.pwr.good = true → s.boot.done = 8 → s.rdB FT_BASE_VALID = true →
    exec .tensorRegistration s =
      .next (enterPhase 6 9 (refreshHeat (registerArchives (registerBase s.flash.base s).2)))) ∧
  (∀ s t, s.pwr.good = true → s.boot.done = 9 → s.pwr.secondTrip = false →
    t = s.setImage (s.rd BOOT_SLOT) { s.image (s.rd BOOT_SLOT) with failures := 0 } →
    exec .bootReady s = .next (enterPhase 7 10 ((t.wr BOOT_READY 1).wr ⟨PWR_BOOT_TIME, 0, 16⟩
      (min 65535 ((s.counter.toNat - s.boot.since) / 1000000))))) ∧
  (∀ s, s.rdB BOOT_TRIAL = true → (confirmImage s).rd MIN_SVN = max (s.rd MIN_SVN) (s.rd (FW_SVN (s.rd BOOT_SLOT)))) ∧
  (∀ s, s.rdB BOOT_TRIAL = false → confirmImage s = s)

/-- The events of chapter 15 other than the guardian's sample, each with the effect of its rule. The model's choices in
it: log entries 39, 44, 50–54, 155 (when a pod rises again, what hangs on a mesh, the governor's order, PRSNT, the
reversed header, changes point by point). -/
def Obligations.PowerEventsComplete : Prop :=
  (∀ s, s.pwr.good = true →
    exec .inputUndervoltage s =
      .next (refreshThrottle (guardBreaches ((List.range 80).foldl (fun s p => limitPod 4 p 0 s) s)))) ∧
  (∀ s p, p < 80 → s.pwr.good = true → s.rd (POD_LIMIT_POINT p) < 9 → s.pwr.badSensors.contains p = false →
    20 ≤ (s.pod p).sinceStep → ((s.pod p).hot = false ∨ 100 ≤ (s.pod p).coolFor) →
    ((s.pod p).drawn = false ∨ 100 ≤ s.pwr.underFor) → s.pwr.ramp.contains (.restore p) = false →
    exec (.guardianRestore p) s = .next (requestRamp (.restore p) s)) ∧
  (∀ s a as, s.pwr.good = true → s.pwr.tripped = false → s.pwr.present = true → rampHead (accrue s) = some (a, as) →
    waitsMesh (accrue s) a = false → (min (rampStep a * 100000) (rampDepth (accrue s)) : Nat) ≤ (accrue s).pwr.budget →
    exec .rampGrant s = .next (rampStart a { accrue s with
      pwr := { (accrue s).pwr with ramp := as, budget := (accrue s).pwr.budget - (rampStep a * 100000 : Nat) } })) ∧
  (∀ s d t, s.pwr.rising.contains d = true → d < 80 →
    t = { s with pwr := { s.pwr with rising := s.pwr.rising.filter (· ≠ d) } }.wr (PWR_DOMAIN d) 1 →
    exec (.domainPowerUpDone d) s =
      .next (formAll (advanceMirrored (refreshHeat ((resetPodWindow d (wipeTiles d t)).wr (POD_STATE d) POD_IDLE))))) ∧
  (∀ s p t e g, p < 80 → (s.pod p).changing = true → e = s.rd (POD_EFF_POINT p) → g = targetPoint s p →
    t = s.setPod p { s.pod p with changing := false } →
    exec (.podPointChangeDone p) s = .next (retarget p (risersResume p
      ((t.wr (POD_EFF_POINT p) (if e < g then e + 1 else if g < e then e - 1 else e)).wr (POD_RELOCK p) 0)))) ∧
  (∀ s p, p < 80 → s.rdB PWR_POD_IDLE = true → s.rd (POD_STATE p) = POD_IDLE → podFree s p = true →
    domainNeeded s p = false → s.pwr.ramp.contains (.domainOff p) = false →
    exec (.podIdleTimeout p) s = .next (requestRamp (.domainOff p) s)) ∧
  (∀ s, s.pwr.good = true →
    exec .prsntBreak s = .next (domainsOff (List.range 100) { s with
      pwr := { s.pwr with present := false, ramp := [], rising := [] } })) ∧
  (∀ s, s.pwr.good = true → s.pwr.reversed = false → s.rdB PWR_STORAGE_LOW = false →
    exec .storageLowAssert s =
      .next ((changeCeiling (fun s => (s.wr PWR_STORAGE_LOW 1).wr PWR_LOW_ACTIVE 1) s).raise PWR_SB_STATUS 3)) ∧
  (∀ s, s.pwr.good = true → s.pwr.reversed = false → s.rdB PWR_STORAGE_LOW = true →
    exec .storageLowRelease s =
      .next (changeCeiling (fun s => (s.wr PWR_STORAGE_LOW 0).wr PWR_LOW_ACTIVE 0) s)) ∧
  (∀ s, s.pwr.good = true → s.pwr.reversed = false → ∃ t, exec .sidebandReversed s = .next t ∧ t.pwr.reversed = true ∧
    t = { s with pwr := { s.pwr with reversed := true } }.raise PWR_SB_STATUS 1)

/-- R426: the actions of one sample, in their order. The model's choices in it: log entries 37–43, 46–50, 215 (the
numbers of the sensors, the averages, the pins, and the order and depth of the actions). -/
def Obligations.GuardianSampleCompletes : Prop :=
  ∀ (g : GuardSample) (s t u v : State), s.pwr.good = true →
    t = railFaults g (noteInput g (noteReadings g s)) →
    ((tripSensor g t = none ∧ u = t) ∨ (∃ r, tripSensor g t = some r ∧ u = trip r.sensor (tempBits r.temp) t)) →
    v = refreshThrottle (guardBreaches (if u.pwr.tripped then u
      else inputLimits g (thermalStacks g (thermalPods g (sensorFaults g u))))) →
    exec (.guardianSample g) s = .next (if v.rdB GRD_ACTIVE then v.addSat GRD_THROTTLE_US 10 else v)

/-- R408 and R437: the responders of the sideband and of the DOE mailbox. The model's choices in it: log entries 11,
13–15, 53 (SPDM's codes and nonces, what 0x1C holds and the TAP). -/
def Obligations.SidebandCompletes : Prop :=
  (∀ req s, s.pwr.good = true → 5 ≤ s.boot.done → s.boot.recovery = false →
    exec (.spdmRequest req) s = .next ((spdmAnswer req s).2.emit (.spdm (spdmAnswer req s).1))) ∧
  (∀ s, s.pwr.good = true → s.pwr.reversed = false →
    exec (.i3cRead 0x00) s = .next (s.emit (.i3c (s.word 0x0))) ∧
    exec (.i3cRead 0x04) s = .next (s.emit (.i3c (s.word DEV_IFVER))) ∧
    exec (.i3cRead 0x08) s = .next (s.emit (.i3c (s.word 0x8))) ∧
    exec (.i3cRead 0x1C) s = .next (s.emit (.i3c (BitVec.ofNat 32 (hottest s)))) ∧
    exec (.i3cRead 0x10) s = .next (s.emit (.i3c (s.word PWR_BOOT_STATUS))) ∧
    exec (.i3cRead 0x14) s = .next (s.emit (.i3c (s.word PWR_INPUT))) ∧
    exec (.i3cRead 0x18) s = .next (s.emit (.i3c (s.word GRD_STATUS))) ∧
    exec (.i3cRead 0x20) s = .next (s.emit (.i3c (s.word TWIN_STATUS)))) ∧
  (∀ s, s.pwr.good = true → s.pwr.reversed = false →
    exec (.boundaryScanInstruction .idcode) s =
      .next ({ s with pwr := { s.pwr with tap := .idcode } }.emit (.tdo 0x126409AF#32)) ∧
    exec (.boundaryScanInstruction .extest) s = .next { s with pwr := { s.pwr with tap := .extest } } ∧
    exec (.boundaryScanInstruction .samplePreload) s = .next { s with pwr := { s.pwr with tap := .samplePreload } } ∧
    exec (.boundaryScanInstruction .bypass) s = .next { s with pwr := { s.pwr with tap := .bypass } }) ∧
  (∀ s code, s.pwr.good = true → s.pwr.reversed = false → s.rd LC_STATE = 0 →
    exec (.boundaryScanInstruction (.other code)) s = .refused .privateTapInstruction) ∧
  (∀ s code, s.rd LC_STATE ≠ 0 → exec (.boundaryScanInstruction (.other code)) s = .next s)

/-- R335 and R353: what the data of a device-issued read does. The model's choices in it: log entries 83, 114, 189
(reads in pieces, a failed input read, reads beyond 1,024). -/
def Obligations.DmaCompletionCompletes : Prop :=
  (∀ s t d x n tag b, s.host.dma.find? (fun d => d.tag = tag && d.issued) = some d → b.length = d.piece →
    d.len ≤ d.got.length + b.length → d.use = .command n →
    t = dropReads (fun d => d.tag = tag) s →
    findRun t (fun x => x.seqNo = n) = some x →
    exec (.hostDmaCompletion tag (.data b)) s = .next (advanceAll (pumpFences (arriveCommand x (d.got ++ b) t)))) ∧
  (∀ s d tag b, s.host.dma.find? (fun d => d.tag = tag && d.issued) = some d → b.length = d.piece →
    d.got.length + b.length < d.len → exec (.hostDmaCompletion tag (.data b)) s = .next (nextPiece d b s)) ∧
  (∀ s t d x n tag a, s.host.dma.find? (fun d => d.tag = tag && d.issued) = some d → d.use = .command n →
    t = dropReads (fun d => d.tag = tag) s →
    findRun t (fun x => x.seqNo = n) = some x →
    exec (.hostDmaCompletion tag (.failed a)) s = .next (advanceAll (pumpFences (failCommand x a d.got.length t)))) ∧
  (∀ s t d h req row rows tag b, s.host.dma.find? (fun d => d.tag = tag && d.issued) = some d → b.length = d.piece →
    d.len ≤ d.got.length + b.length → d.use = .staging h req row rows → t = dropReads (fun d => d.tag = tag) s →
    exec (.hostDmaCompletion tag (.data b)) s =
      .next (advanceAll (pumpFences (stagedOne h (stageData h req row rows (d.got ++ b) t))))) ∧
  (∀ s t d h req row rows tag a, s.host.dma.find? (fun d => d.tag = tag && d.issued) = some d →
    d.use = .staging h req row rows → t = dropReads (fun d => d.tag = tag) s →
    exec (.hostDmaCompletion tag (.failed a)) s = .next (advanceAll (pumpFences (dropStaged h req a d.fn t))))

/-- R18 for reads, and the advancing read of the recorder's window (R446). The model's choices in it: log entries 124,
214 (which accesses are plain, no access without a link). -/
def Obligations.RegisterReadsComplete : Prop :=
  (∀ fn off s, linkLive s = true → off % 4 = 0 → isLow off = true → visible s fn off = true → off ≠ 0x601FFC →
    exec (.bar0LowHalfRead fn (.half off)) s =
      .next ((s.setLatch fn { held := true, off, high := barWord s fn (off + 4) }).emit
        (.readData fn off ((barWord s fn off).zeroExtend 64)))) ∧
  (∀ fn off s, linkLive s = true → isLow off = true →
    exec (.bar0LowHalfRead fn (.whole off)) s = .next (s.emit (.readData fn off (barWord s fn (off + 4) ++ barWord s fn off)))) ∧
  (∀ fn off s, exec (.bar0HighHalfRead fn off) s = exec (.bar0LowHalfRead fn (.half off)) s) ∧
  (∀ fn off s, linkLive s = true → off % 4 = 0 → isLow off = false → isHigh off = true → (s.latch fn).held = true → (s.latch fn).off + 4 = off →
    exec (.bar0HighHalfRead fn off) s =
      .next ((s.setLatch fn {}).emit (.readData fn off ((s.latch fn).high.zeroExtend 64)))) ∧
  (∀ fn off s, linkLive s = true → off % 4 = 0 → off ≠ 0x601FFC → isLow off = false →
    (isHigh off = false ∨ (s.latch fn).held = false ∨ (s.latch fn).off + 4 ≠ off) →
    exec (.bar0HighHalfRead fn off) s = .next (s.emit (.readData fn off ((barWord s fn off).zeroExtend 64)))) ∧
  (∀ s, linkLive s = true → exec (.evrWindowAutoRead 0) s =
      .next ((advanceCursor s).emit (.readData 0 0x601FFC ((windowWord s 0xFFC).zeroExtend 64))))

/-- R18 for writes, and plain writes by the PF and by Husk over the register bus. The model's choices in it: log entries
124, 214 (which accesses are plain, no access without a link). -/
def Obligations.HalfWritesComplete : Prop :=
  (∀ fn off v s, linkLive s = true → off % 4 = 0 → isLow off = true → visible s fn off = true → isPodWindow off = false →
    exec (.bar0LowHalfWrite fn off v) s = .next (s.setBuffer fn { held := true, off, high := v })) ∧
  (∀ fn off v s, linkLive s = true → off % 4 = 0 → isHigh off = true → visible s fn off = true → isPodWindow off = false →
    (s.buffer fn).held = true → (s.buffer fn).off + 4 = off →
    exec (.bar0HighHalfWrite fn off v) s =
      .next (barWrite64 fn (s.buffer fn).off ((s.buffer fn).high.toNat + 2 ^ 32 * v.toNat) (s.setBuffer fn {}))) ∧
  (∀ fn off v s, linkLive s = true → off % 4 = 0 → isHigh off = true → visible s fn off = true → isPodWindow off = false →
    ((s.buffer fn).held = false ∨ (s.buffer fn).off + 4 ≠ off) →
    exec (.bar0HighHalfWrite fn off v) s =
      .next (barWrite64 fn (off - 4) (s.rd32 (off - 4) + 2 ^ 32 * v.toNat) s)) ∧
  (∀ off v s, linkLive s = true → isLow off = true → exec (.registerWrite (.pcie 0) off true v []) s = .next (barWrite64 0 off v.toNat s)) ∧
  (∀ fn off v s, isLow off = true →
    exec (.registerWrite (.pcie fn) off false v []) s = exec (.bar0LowHalfWrite fn off (v.truncate 32)) s) ∧
  (∀ fn off v s, isHigh off = true → isLow off = false →
    exec (.registerWrite (.pcie fn) off false v []) s = exec (.bar0HighHalfWrite fn off (v.truncate 32)) s) ∧
  (∀ off v s, linkLive s = true → off % 4 = 0 → isLow off = false → isHigh off = false →
    exec (.registerWrite (.pcie 0) off false v []) s = .next (barWrite 0 off (v.truncate 32) s)) ∧
  (∀ off v s, isPodWindow off = false → off ≠ 0x501008 →
    exec (.registerWrite .husk off false v []) s = .next (s.swWrite off (v.truncate 32) []))

/-- R19: the access is recorded, a write has no effect, a read returns zeros. The model's choices in it: log entry 214
(no access without a link). -/
def Obligations.BadAccessesComplete : Prop :=
  (∀ fn off width s, linkLive s = true → goodAccess off width = false →
    exec (.bar0BadAccess fn off width true) s = .next (accessViolation fn 0 width off true s)) ∧
  (∀ fn off width s, linkLive s = true → goodAccess off width = false → exec (.bar0BadAccess fn off width false) s =
    .next ((accessViolation fn 0 width off false s).emit (.readData fn off 0))) ∧
  (∀ fn off width w s, goodAccess off width = true → exec (.bar0BadAccess fn off width w) s = .next s) ∧
  (∀ off width, goodAccess off width = true ↔ (width = 4 ∧ off % 4 = 0) ∨ (width = 8 ∧ isLow off = true))

/-- R330, R228, R247, R371, R320: what these writes do. The model's choices in it: log entries 10, 214 (MSI-X as PCIe
has it, no access without a link). -/
def Obligations.RegisterRowsComplete : Prop :=
  (∀ fn v s, linkLive s = true → exec (.devCtrSelWrite fn v) s = .next (latchCounter fn { s with host := { s.host with
    ctrSel := tput s.host.ctrSel fn (BitVec.ofNat 32 (bits v.toNat 0 29)) 0#32 } })) ∧
  (∀ fn s, linkLive s = true → bit (tget s.host.ctrVal fn 0#32).toNat 31 = true →
    exec (.counterClear fn false) s = .next (latchCounter fn (s.setCompanion (ctrOff s fn) (ctrBit s fn) 0))) ∧
  (∀ fn s t o b, linkLive s = true → bit (tget s.host.ctrVal fn 0#32).toNat 31 = true → o = ctrOff s fn → b = ctrBit s fn →
    t = (s.setCompanion o b 0).raise o b → exec (.counterClear fn true) s = .next (latchCounter fn t) ∧
    (t.companionOf o b).toNat = 1 ∧ (ctrValid t fn = true → (tget (latchCounter fn t).host.ctrVal fn 0#32).toNat = 2 ^ 31 + 1)) ∧
  (∀ s, linkLive s = true → exec (.counterClearAll 0) s = .next { s with host := { s.host with companion := [] } }) ∧
  (∀ v s, linkLive s = true → ∃ t, exec (.heatLookupWrite 0 v) s = .next t ∧ t = heatLookup v s) ∧
  (∀ v s, linkLive s = true → exec (.ftBlkSelWrite 0 v) s = .next (selectBlock v s)) ∧
  (∀ v s, linkLive s = true → (s.rd LC_STATE = 1 ∨ s.rd LC_STATE = 3) → bit v.toNat 6 = true →
    exec (.fabInstallCommit 0 v) s =
      .next (commitInstall (s.swWrite FAB_INSTALL (BitVec.ofNat 32 (setBits v.toNat 6 1 1)) []))) ∧
  (∀ fn n s, linkLive s = true → n < 2048 → exec (.msixVectorUnmask fn n) s =
    .next (sendPending fn n { s with host := { s.host with msix := tput s.host.msix (fn * 8192 + n * 4 + 3) 0#32 1 } }))

/-- The ring events of R313 to R320, each with its effect. The model's choices in it: log entries 10, 125–127, 134, 214
(MSI-X, writes of RING_CFG, the coalescing rule tested again, the fetch turn, trace points, no access without a
link). -/
def Obligations.DoorbellsAndRingsComplete : Prop :=
  (∀ fn ring off v s n x d e (i : Instr), (i = .sqDoorbell fn ring off (.write 4 v) ∨ i = .cqDoorbell fn ring off (.write 4 v)) →
    linkLive s = true → ring < 4096 → doorbellOk s fn ring 4 = true → off = 0 → n = ringSize s ring → x = bits v.toNat 0 17 →
    d = (x + 2 * n - s.rd (RING_SQ_TAIL ring)) % (2 * n) → e = (x + 2 * n - s.rd (RING_SQ_HEAD ring)) % (2 * n) →
    (2 * n ≤ x → exec i s = .next (s.raise (RING_STATUS ring) 4)) ∧
    (x < 2 * n → (d = 0 ∨ n < d) → exec i s = .next s) ∧
    (x < 2 * n → d ≠ 0 → d ≤ n → e ≤ n → exec i s = .next (s.wr (RING_SQ_TAIL ring) x)) ∧
    (x < 2 * n → d ≠ 0 → d ≤ n → n < e → exec i s = .next (s.raise (RING_STATUS ring) 4))) ∧
  (∀ fn ring off v s n x d e (i : Instr), (i = .sqDoorbell fn ring off (.write 4 v) ∨ i = .cqDoorbell fn ring off (.write 4 v)) →
    linkLive s = true → ring < 4096 → doorbellOk s fn ring 4 = true → off = 4 → n = ringSize s ring → x = bits v.toNat 0 17 →
    d = (x + 2 * n - s.rd (RING_CQ_HEAD ring)) % (2 * n) →
    e = (s.rd (RING_CQ_TAIL ring) + 2 * n - s.rd (RING_CQ_HEAD ring)) % (2 * n) →
    (2 * n ≤ x → exec i s = .next (s.raise (RING_STATUS ring) 5)) ∧
    (x < 2 * n → d ≤ e → exec i s = .next (s.wr (RING_CQ_HEAD ring) x)) ∧
    (x < 2 * n → e < d → n < d → exec i s = .next s) ∧
    (x < 2 * n → e < d → d ≤ n → exec i s = .next (s.raise (RING_STATUS ring) 5))) ∧
  (∀ fn ring off w v s (i : Instr), (i = .sqDoorbell fn ring off (.write w v) ∨ i = .cqDoorbell fn ring off (.write w v)) →
    linkLive s = true → ring < 4096 → ((off ≠ 0 ∧ off ≠ 4) ∨ doorbellOk s fn ring w = false) →
    exec i s = .next (badDoorbell fn ring w off s)) ∧
  (∀ fn ring off w s, linkLive s = true → ring < 4096 →
    exec (.sqDoorbell fn ring off (.read w)) s = .next (s.emit (.readData fn (ring * 0x1000 + off) 0)) ∧
    exec (.cqDoorbell fn ring off (.read w)) s = .next (s.emit (.readData fn (ring * 0x1000 + off) 0))) ∧
  (∀ fn ring v s x, linkLive s = true → ring < 4096 → visible s fn (RING_CFG ring) = true → s.rdB (RING_ENABLE ring) = false →
    s.rdB (RING_QUIESCENT ring) = true → x = BitVec.ofNat 32 (setBits v.toNat 8 1 1) →
    4 ≤ bits x.toNat 0 5 → bits x.toNat 0 5 ≤ 16 → bit x.toNat 8 = true →
    s.rd64 (RING_SQ_BASE ring) % 4096 = 0 → s.rd64 (RING_CQ_BASE ring) % 4096 = 0 →
    exec (.ringEnable fn ring v) s =
      .next (recheckInterrupt ring (startRing ring (s.swWrite (RING_CFG ring) x [])))) ∧
  (∀ fn ring v s x, linkLive s = true → ring < 4096 → visible s fn (RING_CFG ring) = true →
    x = BitVec.ofNat 32 (setBits v.toNat 8 1 0) → bits x.toNat 0 5 = s.rd (RING_SIZE ring) → bit x.toNat 8 = false →
    exec (.ringDisable fn ring v) s =
      .next (recheckInterrupt ring ((s.swWrite (RING_CFG ring) x []).wrB (RING_ENABLED ring) false))) ∧
  (∀ ring es s, ring < 4096 → (s.rdB BOOT_READY = true ∨ s.boot.recovery = true) → fetchTurn s ring = true →
    es ≠ [] → es.length ≤ fetchable s ring →
    exec (.sqFetch ring (.entries es)) s = .next (rejectUndefined (acceptEntries ring es s))) ∧
  (∀ ring s, ring < 4096 → (s.rdB BOOT_READY = true ∨ s.boot.recovery = true) → fetchable s ring ≠ 0 →
    fetchTurn s ring = true → exec (.sqFetch ring .failed) s = .next (fetchFails ring s)) ∧
  (∀ ring s, (s.ringAux ring).coalTimer = true → s.rd (RING_COAL_TIME ring) ≠ 0 → s.rdB (RING_INT_EN ring) = true →
    exec (.interruptCoalesceTimeout ring) s =
      .next (clearCoalescing (s.rd (RING_OWNER ring)) (s.rd (RING_VECTOR ring))
        (s.signalMsi (s.rd (RING_OWNER ring)) (s.rd (RING_VECTOR ring))))) ∧
  (∀ (c : Cmd) st p d s, s.boot.mute = false → c.done st p d s =
    writeCompletion c.ring (entryNoInt c.e) (completionRaw st (entrySeq c.e) (entryTag c.e) p s.counter.toNat d)
      (trace (320 + entryOpcode c.e) [c.ring, entrySeq c.e, st, p] s)) ∧
  (∀ ring raw s n k u, ring < 4096 → n = ringSize s ring → k = (s.ringAux ring).written →
    u = writeCompletion ring true raw s →
    u.out = s.out ++ [.completion (s.rd (RING_OWNER ring)) ring (k % n) (s.rd64 (RING_CQ_BASE ring) + 32 * (k % n))
      (raw (decide (1 - k / n % 2 = 1)))] ∧
    (u.ringAux ring).written = k + 1 ∧ u.rd (RING_CQ_TAIL ring) = (s.rd (RING_CQ_TAIL ring) + 1) % (2 * n) % 2 ^ 17 ∧
    u.rd (RING_INFLIGHT ring) = s.rd (RING_INFLIGHT ring) - 1 ∧
    u.rdB (RING_QUIESCENT ring) = decide (u.rd (RING_INFLIGHT ring) = 0) ∧
    writeCompletion ring false raw s = coalesce ring u) ∧
  (∀ st seq tag p step d ph, (completionRaw st seq tag p step d ph).toNat = st % 2 ^ 16 + 2 ^ 16 * (seq % 2 ^ 16) +
    2 ^ 32 * (tag % 2 ^ 32) + 2 ^ 64 * (p % 2 ^ 64) + 2 ^ 128 * (step % 2 ^ 63) + (if ph then 2 ^ 191 else 0) +
    2 ^ 192 * (d % 2 ^ 64))

/-- R304 to R310: the events of the functions, of the link and of the CXL window. The model's choices in it: log entries
10, 26, 71, 128, 129 (PCIe's own layer, PERST# until the link trains, where a window lies, what an FLR drops, a
window of size 0). -/
def Obligations.FunctionAndLinkEventsComplete : Prop :=
  (∀ fn s, fn ≠ 0 → s.rdB VF_ENABLE = true → fn ≤ s.rd NUM_VFS → exec (.vfFlr fn) s = .next (resetFunction fn s)) ∧
  (∀ s, exec .pfFlr s = .next (((resetFunction 0 (disableVfs s)).wr LOG_ENABLE 0).endSampling)) ∧
  (∀ n s, s.rdB VF_ENABLE = false → n ≤ s.host.cfg.totalVfs →
    exec (.vfEnableWrite true n) s = .next ((s.wr NUM_VFS n).wr VF_ENABLE 1)) ∧
  (∀ n s, s.rdB VF_ENABLE = true → exec (.vfEnableWrite false n) s = .next (disableVfs s)) ∧
  (∀ speed width flit cxl s, 3 ≤ speed → speed ≤ 6 → (width = 4 ∨ width = 8 ∨ width = 16) → s.pwr.good = true →
    exec (.pcieLinkTrained speed width flit cxl) s =
      .next ((((({ s with host := { s.host with linkUp := true, perstLow := false } }.wr ⟨0x10, 0, 4⟩ speed).wr
        ⟨0x10, 4, 5⟩ width).wrB ⟨0x10, 9, 1⟩ (flit || speed = 6))).wrB ⟨0x10, 10, 1⟩ cxl)) ∧
  (∀ base s off t, cxlOn s = true → s.rdB CXL_COMMITTED = false → s.rd CXL_SIZE ≠ 0 →
    allocD (s.rd CXL_SIZE * 2 ^ 30) .cxl s = some (off, t) →
    exec (.cxlDecoderCommit base) s = .next (refreshHeat
      (({ t with host := { t.host with cxlBase := base } }.wr CXL_COMMITTED 1).wr64 DEV_CXL_BASE off))) ∧
  (∀ s, s.rdB CXL_COMMITTED = true → exec .cxlDecoderDecommit s = .next (freeWindow s)) ∧
  (∀ hpa len s g, cxlAddr s hpa len = some g →
    exec (.cxlMemRead hpa len) s =
      .next (present .cxl { who := .cxl, target := .addr g, op := .read len, cls := 2 } s)) ∧
  (∀ hpa b s g, cxlAddr s hpa b.length = some g →
    exec (.cxlMemWrite hpa b) s =
      .next (present .cxl { who := .cxl, target := .addr g, op := .write b, cls := 2 } s))

/-- R325 to R328: what a channel's window does. The model's choices in it: log entries 74, 80, 130, 214 (the queues at
the tiers, host accesses by handle, the port's corners, no access without a link). -/
def Obligations.BulkPortCompletes : Prop :=
  (∀ fn c off b s, linkLive s = true → c < 64 → b ≠ [] → b.length ≤ 4096 → ownsChannel s fn c = true → orderOk s c off = true →
    (b.length ≤ s.rd32 (BDP_FREE c) → exec (.bdpWindowWrite fn c off b false) s =
      .next ((setBdpQueue c (bdpQueue s c ++ [atCursor s fn c b none]) (moveCursor c b.length s)).wr32 (BDP_FREE c)
        (s.rd32 (BDP_FREE c) - b.length))) ∧
    (s.rd32 (BDP_FREE c) < b.length → exec (.bdpWindowWrite fn c off b false) s =
      .next ((moveCursor c b.length s).raise (BDP_STATUS c) 2)) ∧
    exec (.bdpWindowWrite fn c off b true) s = .next ((moveCursor c b.length s).raise (BDP_STATUS c) 5)) ∧
  (∀ fn c off b p s, linkLive s = true → c < 64 → b ≠ [] → b.length ≤ 4096 → ownsChannel s fn c = true → orderOk s c off = false →
    exec (.bdpWindowWrite fn c off b p) s = .next (s.raise (BDP_STATUS c) 1)) ∧
  (∀ fn c off len s, linkLive s = true → c < 64 → len ≠ 0 → len ≤ 4096 → ownsChannel s fn c = true → orderOk s c off = true →
    exec (.bdpWindowRead fn c off len) s = .next (pumpFences (kick c
      (setBdpQueue c (bdpQueue s c ++ [atCursor s fn c [] (some len)]) (moveCursor c len s))))) ∧
  (∀ fn c off len s, linkLive s = true → c < 64 → len ≠ 0 → len ≤ 4096 → ownsChannel s fn c = true → orderOk s c off = false →
    exec (.bdpWindowRead fn c off len) s = .next ((s.raise (BDP_STATUS c) 1).emit (.bdpData fn c (zeros len)))) ∧
  (∀ c w rest s, c < 64 → bdpQueue s c = w :: rest → w.sent = none → bdpRemote s c = false → w.mode1 = false → w.fn = 0 →
    s.isHere (gDevice w.cursor) = true →
    exec (.bdpBufferDrain c) s = .next (pumpFences (kick c (setBdpQueue c ({ w with sent := some s.tier.nextId } :: rest)
      (present (.channel c) { who := .fn (w.fn), target := w.target, op := w.op, cls := 2 } s))))) ∧
  (∀ c w rest s, c < 64 → bdpQueue s c = w :: rest → w.sent = none → bdpRemote s c = false → w.mode1 = false → w.fn = 0 →
    s.isHere (gDevice w.cursor) = false → reachable s (gDevice w.cursor) = true →
    exec (.bdpBufferDrain c) s = .next (pumpFences (kick c (sendRequest (gDevice w.cursor) none
      (.bdp c (w.fn) (w.read.getD w.data.length) w.read.isSome) (fun p => .request p .pf w.cursor w.op)
      (popAccess c w rest s))))) ∧
  (∀ c w rest s, c < 64 → bdpQueue s c = w :: rest → w.sent = none → bdpRemote s c = false → w.mode1 = false → w.fn ≠ 0 →
    exec (.bdpBufferDrain c) s = .next (pumpFences (kick c
      (endItem c w rest RSP_DENIED 0 w.cursor (zeros (w.read.getD 0)) s)))) ∧
  (∀ c w rest code s, c < 64 → bdpQueue s c = w :: rest → w.sent = none → bdpRemote s c = false → w.mode1 = true →
    locate s (.fn (w.fn)) w.target (opWrites w.op) = .fail code →
    exec (.bdpBufferDrain c) s = .next (pumpFences (kick c
      (endItem c w rest code 0 (handleAddr s w code) (zeros (w.read.getD 0)) s)))) ∧
  (∀ c w rest s t h, c < 64 → bdpQueue s c = w :: rest → w.sent = none → bdpRemote s c = false → w.mode1 = true →
    (∀ code, locate s (.fn (w.fn)) w.target (opWrites w.op) ≠ .fail code) → h = bits w.cursor.toNat 0 20 →
    awaitsMove s h = false → hostGo h s = (.go, t) →
    exec (.bdpBufferDrain c) s = .next (pumpFences (kick c (setBdpQueue c ({ w with sent := some t.tier.nextId } :: rest)
      (present (.channel c) { who := .fn (w.fn), target := w.target, op := w.op, cls := 2 } t)))))

/-- The commands and events of chapter 16, each with the effect of its rule. The model's choices in it: log entries 32,
131–133, 214 (the saved copy at a clear, sampling, telemetry pages, the log ring, no access without a link). -/
def Obligations.ObservationCompletes : Prop :=
  (∀ ring s c t, ready 0x60 ring s c t → exec (.recorderArm ring) s = .next (c.done ST_OK 0 0 (t.wr64 EVR_MASK (c.p 12 8)))) ∧
  (∀ ring s c t, ready 0x61 ring s c t → exec (.recorderClear ring) s = .next (c.done ST_OK 0 0 (clearRecords t))) ∧
  (∀ s, s.obs.loaded = true → exec .eventPersist s = .next { s with obs := { s.obs with
    copy := s.obs.records, savedLost := s.rd32 EVR_LOST, savedFirst := BitVec.ofNat 64 (s.rd64 EVR_FIRST_LOST)
    savedGen := s.rd32 EVR_GEN } }) ∧
  (∀ ring s c t, ready 0x62 ring s c t → exec (.traceMask ring) s = .next (c.done ST_OK 0 0
    ((List.range (c.p 14 2)).foldl (fun s i => s.wr (TRC_ENABLE (c.p 12 2 + i)) (c.p 16 1)) t))) ∧
  (∀ s, linkLive s = true → s.rdB LOG_ENABLE = false →
    exec (.logEnable 0) s = .next (((s.wr LOG_HEAD 0).wr LOG_TAIL 0).wr LOG_ENABLE 1)) ∧
  (∀ v s, linkLive s = true → (bits v.toNat 0 11 + 2048 - s.rd LOG_TAIL) % 2048 ≤ (s.rd LOG_HEAD + 2048 - s.rd LOG_TAIL) % 2048 →
    exec (.logTailWrite 0 v) s = .next (s.wr LOG_TAIL (bits v.toNat 0 11))) ∧
  (∀ s e u, s.rdB LOG_ENABLE = true → (s.rd LOG_HEAD + 2048 - s.rd LOG_TAIL) % 2048 < 1024 → nextLog s = some (e, u) →
    exec (.logEntryWrite false) s = .next (dmaOut 0 (s.rd64 LOG_BASE + 64 * (s.rd LOG_HEAD % 1024))
      (logBytes e (bits u.fresh.1.toNat 0 2) (s.rd LOG_HEAD < 1024)) (u.fresh.2.wr LOG_HEAD ((s.rd LOG_HEAD + 1) % 2048)))) ∧
  (∀ ring s c t size n body, ready 0x65 ring s c t → telemetryPage t (c.p 24 1) = some (size, n, body) → size ≤ c.p 20 4 →
    exec (.telemetryRead ring) s = .next (c.done ST_OK size 0 (dmaOut c.fn (c.p 12 8)
      ((fieldBytes 64 [(0, 8, t.counter.toNat), (8, 1, c.p 24 1), (12, 4, n)] ++ body ++ zeros size).take size) t))) ∧
  (∀ ring s c t, ready 0x63 ring s c t →
    exec (.sampleStart ring) s = .next (c.done ST_OK (if t.rdB SMP_RUNNING then t.obs.sample.pos else 0) 0 ((({ t with obs := { t.obs with
      sample := { buf := c.p 12 8, len := c.p 20 4, mask := c.p 28 10, period := c.p 24 4 } } }.wr64 SMP_BYTES 0).wr32
        SMP_SAMPLES 0).wr SMP_RUNNING 1))) ∧
  (∀ ring s c t, ready 0x64 ring s c t → t.rdB SMP_RUNNING = true →
    exec (.sampleStop ring) s = .next (c.done ST_OK t.obs.sample.pos 0 t.endSampling)) ∧
  (∀ ring s c t, ready 0x64 ring s c t → t.rdB SMP_RUNNING = false →
    exec (.sampleStop ring) s = .next (c.done ST_OK 0 0 t)) ∧
  (∀ s m ps u, s.rdB SMP_RUNNING = true → m = s.obs.sample → ps = (List.range 80).filter (fun p => bit m.mask p) →
    (m.pos + 4096 * ps.length ≤ m.len →
      u = (ps.zip (List.range ps.length)).foldl (fun t (x : Nat × Nat) =>
        dmaOut 0 (m.buf + m.pos + 4096 * x.2) (podSample t x.1 m.taken) t) s →
      exec (.sampleCapture .written) s = .next ((State.wr64 { u with obs := { u.obs with
        sample := { m with pos := m.pos + 4096 * ps.length, taken := m.taken + 1 } } } SMP_BYTES
          (u.rd64 SMP_BYTES + 4096 * ps.length)).addSat SMP_SAMPLES 1)) ∧
    (m.len < m.pos + 4096 * ps.length → exec (.sampleCapture .written) s = .next (s.endSampling.raise SMP_STATUS 1)) ∧
    (m.pos + 4096 * ps.length ≤ m.len → exec (.sampleCapture .writeError) s =
      .next (dmaErrorEvent (m.buf + m.pos) 0 2 (s.endSampling.raise SMP_STATUS 2))) ∧
    (m.taken ≠ 0 → exec (.sampleCapture .skipped) s = .next (s.addSat SMP_SKIPPED 1))) ∧
  (∀ code h te pl s, s.obs.loaded = true → recordEvent code h te pl s = recordAt s.counter code h te pl s) ∧
  (∀ st code h te pl s,
    (bit (s.rd64 EVR_MASK) (code / 256) = false → recordAt st code h te pl s = s.addSat EVR_MASKED 1) ∧
    (bit (s.rd64 EVR_MASK) (code / 256) = true → 16 ≤ tget s.obs.perCode code 0 →
      recordAt st code h te pl s = s.addSat EVR_SUPPRESSED 1) ∧
    (bit (s.rd64 EVR_MASK) (code / 256) = true → tget s.obs.perCode code 0 < 16 → 4096 ≤ s.rd EVR_COUNT →
      recordAt st code h te pl s = (if s.rd32 EVR_LOST = 0 then
        s.wr64 EVR_FIRST_LOST (code + 65536 * (st.toNat % 2 ^ 48)) else s).addSat EVR_LOST 1)) ∧
  (∀ st code h te pl s u, bit (s.rd64 EVR_MASK) (code / 256) = true → tget s.obs.perCode code 0 < 16 →
    s.rd EVR_COUNT < 4096 → u = recordAt st code h te pl s →
    u.obs.records = s.obs.records ++ [⟨st, code, s.rd EVR_COUNT, h, te, s.deviceByte, s.rd32 EVR_GEN, pl⟩] ∧
    tget u.obs.perCode code 0 = tget s.obs.perCode code 0 + 1 ∧ u.rd EVR_COUNT = s.rd EVR_COUNT + 1 ∧
    (s.rd EVR_COUNT = 4095 → u.rdB EVR_STOPPED = true)) ∧
  (∀ s u, s.rd EVR_COUNT = s.obs.records.length → s.obs.records.length ≤ 4096 →
    ((∃ st code h te pl, u = recordAt st code h te pl s) ∨ u = clearRecords s) →
    u.rd EVR_COUNT = u.obs.records.length ∧ u.obs.records.length ≤ 4096) ∧
  (∀ s u, s.obs.loaded = true → u = clearRecords s → u.obs.records = [] ∧ u.obs.copy = [] ∧ u.rd EVR_COUNT = 0 ∧
    u.rdB EVR_STOPPED = false ∧ u.rd32 EVR_LOST = 0 ∧ u.rd64 EVR_FIRST_LOST = 0 ∧
    u.rd32 EVR_GEN = (s.rd32 EVR_GEN + 1) % 2 ^ 32)

/-- R257 and R213 to R215: what a frame boundary does, in its order, and how moves start and end. The model's choices in
it: log entries 73, 77, 78, 117, 118, 180, 209, 213, 221 (the order at a boundary, the heat plan, and how moves
end). -/
def Obligations.FrameAndPlacementComplete : Prop :=
  (∀ s t u f, s.sched.due = 0 → f = s.sched.frame + 1 → t = clearFrameCounts f (enterFrame f (rollMeters s)) →
    u = refill (floorTests f (switchAt f t)) →
    exec .frameBoundary s = .next (formAll (advanceMirrored (settleSlices (if placementOn u then planMoves (evaluateHeat u) else u))))) ∧
  (∀ s t u f, s.sched.due ≠ 0 → f = s.sched.frame + 1 - s.sched.due →
    t = clearFrameCounts f (rollMeters { s with sched := { s.sched with due := s.sched.due - 1 } }) →
    u = refill (floorTests f (switchAt f t)) →
    exec .frameBoundary s = .next (formAll (advanceMirrored (settleSlices (if placementOn u then planMoves (evaluateHeat u) else u))))) ∧
  (∀ h n s m, findMove s h = some m → m.started = true → placementOn s = true → moveGranted s m = true →
    exec (.moveComplete (.done h n)) s = .next (afterMove h (finishMove m (chargeMove m n s)))) ∧
  (∀ h off s m, findMove s h = some m → m.started = true → placementOn s = true →
    exec (.moveComplete (.late h off)) s = .next (afterMove h (if m.bg then abandonMove m off s
      else failWaiting h (lateAddr s m off) (abandonMove m off s)))) ∧
  (∀ h s m t, findMove s h = some m → m.started = false → placementOn s = true →
    m.victims.any (fun v => (s.tensor v).inN) = false → moveSpace h m.kind s = some t →
    exec (.promotionStart h) s = .next (refreshHeat (setMoves (t.tier.moves.map (fun x =>
      if x.handle = h then { x with started := true, victims := [] } else x)) t))) ∧
  (∀ h s m, findMove s h = some m → m.started = false → placementOn s = true →
    m.victims.any (fun v => (s.tensor v).inN) = false → moveSpace h m.kind s = none →
    exec (.promotionStart h) s = .next (afterMove h (dropMove h s)))

/-- The events of chapter 8, each with the effect of its rule. The model's choices in it: log entries 84, 87–89, 173,
174, 183, 191, 211, 212, 216 (the block map, the counts, relocation and compaction, the codewords, ages). -/
def Obligations.FlashEventsComplete : Prop :=
  (∀ k ws s p b v u, p = ftPlace k → b = blockOf s p.channel p.extent → ws.length = 16 → p.extent < EXTENTS →
    extUse s p.extent ≠ 0 → bit (s.rd32 FT_STATUS) 0 = true → s.rdB (FT_FAILED p.channel) = false →
    (∀ i, i < 16 → tget s.flash.lost (16 * k + i) false = false) → (∀ w, w ∈ ws → ∃ n, w = .hard n ∧ n < 72) →
    u = markLost k ws (countReads ws s) → v = u.block p.channel b →
    exec (.ftChunkRead k ws) s = .next (u.setBlock p.channel b { v with reads := v.reads + 4 })) ∧
  (∀ failed s w rest r bad t u v, s.flash.rows = w :: rest → bit (s.rd32 FT_STATUS) 0 = true →
    awaitsErase s w.row 1 = false → bad = (failed.filter (· < 256)).eraseDups →
    t = bad.foldl (fun (s : State) c => retireBlock c (blockOf s c (w.row / 512)) 2 s) s →
    u = { t with flash := { t.flash with
      rows := rest,
      fmem := w.data.foldl (fun m (x : Nat × Byte) => tput m (w.row * ROW + x.1) x.2 0#8) (tclear t.flash.fmem (w.row * ROW) (w.row * ROW + ROW)),
      lost := tclear t.flash.lost (w.row * ROW / 4096) ((w.row * ROW + ROW) / 4096) } } →
    v = programmed w.row 1 u →
    v.host.running.find? (fun r => r.seqNo = w.seqNo) = some r →
    exec (.ftProgramDone failed) s =
      .next (rowDone w.bytes r ((v.add64 0x220048 w.bytes).add64 0x220050 (256 * 65536 + 65536 * bad.length)))) ∧
  (∀ c b n s u, wearGranted s = true → s.flash.erasing.contains (c, b) = true →
    u = noteWear n { s with flash := { s.flash with erasing := s.flash.erasing.filter (· ≠ (c, b)) } } →
    exec (.ftEraseDone ⟨c, b⟩ true n) s = .next (refreshChannel c (raiseBand c b (eraseBand ((u.block c b).erases + 1)) false
      (u.setBlock c b { u.block c b with erases := (u.block c b).erases + 1, reads := 0 }))) ∧
    exec (.ftEraseDone ⟨c, b⟩ false n) s = .next (retireBlock c b 2 u)) ∧
  (∀ c b r m n s u band, c < 256 → b < GOOD_BLOCKS → (s.block c b).retired = false → wearGranted s = true → scrubDue s c b = true →
    u = (noteWear n s).setBlock c b
      { s.block c b with reads := 0, since := s.counter.toNat, retry := min 255 r, bits := min 255 m } →
    band = (if 100 ≤ m then 3 else if 32 ≤ r ∨ 72 ≤ m then 2 else if 8 ≤ r then 1 else 0) →
    exec (.ftScrub ⟨c, b⟩ r m n) s = .next (if 64 ≤ r ∨ 72 ≤ m then relocateBlock c b (raiseBand c b band true u)
      else raiseBand c b band true u)) ∧
  (∀ c n old named new e s u, wearGranted s = true → s.flash.relocs.find? (fun r => r.1 = c) = some (c, old, named) →
    extOf s c old = some e → relocGoal s c named = some new → extUse s e ≠ 0 →
    u = mapExtent c e new old (dropReloc (c, old, named) (noteWear n s)) →
    exec (.blockRelocationDone ⟨c, n⟩) s = .next (refreshChannel c (freeBlock c old
      ((u.setBlock c new { u.block c new with reads := 0, since := u.counter.toNat }).add64 0x220050 (2 ^ 25))))) ∧
  (∀ s e rs t, emptiest s = some e → s.rd32 0x220014 < 8 → wearGranted s = true → flashReadOut s = false →
    rowsWait s e (membersIn s e) = false → (s.rdB FT_RESTRICTED = false ∨ s.rd32 0x220014 = 0 ∨ membersIn s e = []) →
    takeAll ((membersIn s e).map (rowsOfMember s)) s = some (rs, t) →
    (∀ x ∈ (membersIn s e).zip rs, awaitsErase t x.2 (rowsOfMember s x.1) = false) →
    exec .compaction s = .next (freeExtent e (((membersIn s e).zip rs).foldl
      (fun s (x : (Nat × Nat) × Nat) => moveMember x.1.1 x.1.2 x.2 s)
      (traceIn 768 832 [0, 0, e] (noteWear t.fresh.1.toNat t.fresh.2))))) ∧
  (∀ c s, c < 256 → s.rdB (FT_FAILED c) = false →
    exec (.ftChannelFailure c) s = .next (restrict 2 (recordEvent 0x0305 none none (payload [(40, 1, c)])
      ((s.wr (FT_FAILED c) 1).raise FT_STATUS 10)))) ∧
  (∀ c b s, levelLow s c = some b → exec (.staticLevelling c) s = .next (beginRelocation c b (levelHigh s c) s))

/-- The events of chapter 9, each with the effect of its rule. The model's choices in it: log entries 76, 139, 152, 170,
187, 219, 221 (what a window blocks, flits, the counter at boundaries, the round-robins). -/
def Obligations.ScheduleEventsComplete : Prop :=
  (∀ res unit waited service cause s cs c x r u v, r = resourceNo res → cs = (if r = 3 then portCands s unit else tierCands s r unit) →
    grantClass s r unit cs = some c →
    (if r = 3 then grantVc (tget s.sched.lastHull ((r * 4096 + unit) * 4 + c) 0) c cs
      else grantWithin (tget s.sched.lastHull ((r * 4096 + unit) * 4 + c) 0) c cs) = some x →
    u = noteGrant r unit service x (cs.any (fun y => y.cls = 1)) (endBlocks r unit s) →
    v = (if c = 1 then observeWait r x.hull waited cause (((cs.filter (fun y => y.cls = 2 && y.hull < NO_HULL
        && y.hull ≠ x.hull)).flatMap (fun y => tenantsIn u y.hull)).foldl (fun s t => noteCause t 3 x.hull s) u) else u) →
    (r ≠ 3 → exec (.arbiterGrant res unit waited service cause) s = .next { v with tier := { v.tier with
      queue := v.tier.queue.map (fun a => if a.id = x.id then { a with granted := true } else a) } }) ∧
    (r = 3 → exec (.arbiterGrant res unit waited service cause) s = .next (sendFlit unit x.id c v))) ∧
  (∀ s n, s.sched.slot < 511 → n = s.sched.slot + 1 →
    exec .slotBoundary s = .next (settleSlices ((advanceTo (slotStart s.sched.frame n)
      { s with sched := { s.sched with slot := n } }).wr CYC_SLOT n))) ∧
  (∀ d u n s t r, u < (if d then 2 else 12) → r = (if d then 1 else 0) → cycKind (slotEntry s r) ≠ 1 →
    (∀ e, s.sched.calLast.find? (fun e => e.1 = r * 16 + u) = some e → e.2 + (if d then 100 else 50) ≤ s.sched.frame) →
    bit (s.rd32 (unitBlock d u)) 1 = true →
    t = noteMaint r u (meterArbiters r * 10 * min n (if d then 2000 else 1500)) { s with
      sched := { s.sched with calLast := tput s.sched.calLast (r * 16 + u) s.sched.frame (2 ^ 64) },
      tier := { s.tier with blocked := s.tier.blocked ++ [(d, u, 1000)] } } →
    exec (.calibrationWindow ⟨d, u⟩ n) s =
      .next ((t.wr ⟨unitBlock d u, 2, 1⟩ 1).addSat (unitBlock d u + 0x20) 1)) ∧
  (∀ d u s, u < (if d then 2 else 12) → exec (.calOverdue d u) s = .next (s.raise (unitBlock d u) 6))

/-- The controllers' events of chapter 7, each with the effect of its rule. The model's choices in it: log entries
73–76, 79, 181, 184 (LATE writes, which requests queue, scrub passes, who asks remotely). -/
def Obligations.TierEventsComplete : Prop :=
  (∀ id s a, s.tier.xbar.find? (fun x => x.id = id) = some a → (firstAcross s a).map (fun x => x.id) = some a.id →
    exec (.tierAccess (.xbar id)) s = .next { s with
      tier := { s.tier with xbar := s.tier.xbar.filter (fun x => x.id ≠ id), queue := s.tier.queue ++ [a] } }) ∧
  (∀ id s a, s.tier.xbar.find? (fun x => x.id = id) = some a → (firstAcross s a).map (fun x => x.id) ≠ some a.id →
    exec (.tierAccess (.xbar id)) s = .next s) ∧
  (∀ q s, awayFrom s q = none → exec (.tierAccess (.direct q)) s = .next { s with tier := { s.tier with
    nextId := s.tier.nextId + 1,
    queue := s.tier.queue ++ [{ id := s.tier.nextId, req := q, hull := reqHull s q.who, use := directUse q }] } }) ∧
  (∀ q s d g, awayFrom s q = some d → q.target = .addr g →
    (reachable s d = true → exec (.tierAccess (.direct q)) s =
      .next (sendRequest d (reqHull s q.who) (.direct q) (fun h => .request h (remoteWho q.who) g q.op) s)) ∧
    (reachable s d = false → exec (.tierAccess (.direct q)) s = .next { s with tier := { s.tier with
      nextId := s.tier.nextId + 1,
      ended := s.tier.ended ++ [⟨s.tier.nextId, q, RSP_UNREACHABLE, BitVec.ofNat 64 d, failData q.op⟩] } })) ∧
  (∀ id s a, s.tier.queue.find? (fun x => x.id = id) = some a → a.recover = false → controllerOn s a = true →
    (a.granted = true ∨ arbiterFor s a = none) → awaitsRecovery s a = none →
    exec (.tierAccessEnd id) s = .next (finishAccess a s)) ∧
  (∀ id s a g, s.tier.queue.find? (fun x => x.id = id) = some a → a.recover = false → controllerOn s a = true →
    (a.granted = true ∨ arbiterFor s a = none) → awaitsRecovery s a = some g →
    exec (.tierAccessEnd id) s = .next { s with tier := { s.tier with
      queue := s.tier.queue.map (fun b => if b.id = id then { b with recover := true } else b) } }) ∧
  (∀ id ok s a d g x u, s.tier.queue.find? (fun x => x.id = id) = some a → a.recover = true → controllerOn s a = true →
    awaitsRecovery s a = some (d, g) → readGranule d ok 0 g s = (x, u) →
    (x = RSP_UNCORRECTABLE → exec (.recoveryComplete id ok) s = .next (endUnrecovered a d g u)) ∧
    (x ≠ RSP_UNCORRECTABLE → awaitsRecovery u a = none → exec (.recoveryComplete id ok) s = .next (finishAccess a u)) ∧
    (∀ y, x ≠ RSP_UNCORRECTABLE → awaitsRecovery u a = some y → exec (.recoveryComplete id ok) s = .next u)) ∧
  (∀ d g n s u, s.tier.writeback.contains (d, g) = true → backPasses s d g = true →
    (backGrant d g n s).badSyms d g = 1 → u = (backGrant d g n s).setBadSyms d g 0 →
    exec (.ceWriteback ⟨d, g⟩ n) s = .next { u with tier := { u.tier with
      writeback := u.tier.writeback.filter (· ≠ (d, g)) } }) ∧
  (∀ id s a p r, s.tier.queue.find? (fun x => x.id = id) = some a → a.recover = false →
    spaceOf s a.req.who a.req.target a.req.op = some p → (p.space = 1 ∨ p.space = 2) → r = lateAnswer p a.req.op s →
    exec (.accessDeadlineExpiry (.queued id)) s = .next (endAccess a RSP_LATE 0 (spotAddr s p 0) (failData a.req.op) r.s)) ∧
  (∀ s, exec (.accessDeadlineExpiry .next) s = .next { s with tier := { s.tier with overdue := true } }) ∧
  (∀ d u b s t, s.tier.blocked.contains (d, u, b) = false → t = noteMaint (if d then 1 else 0) u (if d then 3800 else 3500) s →
    exec (.perBankRefresh d u b) s = .next { t with tier := { t.tier with blocked := t.tier.blocked ++ [(d, u, b)] } }) ∧
  (∀ d g n s r, s.written d (g * 64 / PAGE) = true →
    ((allocAt s d (g * 64)).isSome = true ∨ (d = false ∧ g * 64 < N_SYSTEM)) → backPasses s d g = true →
    r = readGranule d true 2 g (backGrant d g n s) →
    exec (.scrubRead ⟨d, g⟩ n) s =
      .next (if d = false ∧ lastGranule s false = some g then r.2.addSat 0x201004 1 else r.2))

/-- R162: what the scalar, vector, conversion, memory and queue words do when they issue. The model's choices in it: log
entries 57, 58, 60, 62, 65, 153, 190 (addresses, the two pushes, overlapping VCVT registers, signed compares,
rounding to INT32, bank conflicts as operands). -/
def Obligations.VectorOperationsComplete : Prop :=
  (∀ k w s t, issueGate OP_SOP k s = .inr w → t = s.tile k →
    exec (.sop k) s = .next (s.setTile k (advance (t.setS (wDst w)
      (intFn (wFn w) (t.s (wA w)) (scalarB t w) (t.s (wC w))))))) ∧
  (∀ k w s t, issueGate OP_VINT k s = .inr w → t = s.tile k →
    exec (.vint k) s = .next (s.setTile k (advance (t.setV (wDst w) 0
      (lanes3 (intFn (wFn w)) (t.v (wA w)) (vectorB t w) (t.v (wC w))))))) ∧
  (∀ k w s t, issueGate OP_VFP k s = .inr w → t = s.tile k →
    exec (.vfp k) s = .next (s.setTile k (advance (t.setV (wDst w) 0
      (lanes3 (fpFn (wFn w)) (t.v (wA w)) (vectorB t w) (t.v (wC w))))))) ∧
  (∀ k w s t, issueGate OP_VXLANE k s = .inr w → t = s.tile k →
    exec (.vxlane k) s = .next (s.setTile k (advance (t.setV (wDst w) 0 (xlaneResult t w))))) ∧
  (∀ a b, (xlaneFn 1 true a b).toInt = max a.toInt b.toInt ∧ (xlaneFn 2 true a b).toInt = min a.toInt b.toInt) ∧
  (∀ k w s t, issueGate OP_VCVT k s = .inr w → t = s.tile k → bit (wImm w) 4 = true →
    exec (.vcvt k) s = .next (s.setTile k (advance (t.setV (wDst w) 0 (cvtBack t w))))) ∧
  (∀ k w s t c, issueGate OP_VCVT k s = .inr w → t = s.tile k → bit (wImm w) 4 = false →
    c = cvtOf (s.rdB (SFU_COMPAT (podOf k))) t w →
    cvtConflict c.scale.isSome (wB w) (bits (wImm w) 8 6) (bits (wImm w) 14 6) = none →
    exec (.vcvt k) s = .next (cvtCount (podOf k) c (s.setTile k (advance (cvtTile t w c))))) ∧
  (∀ k waits w s t r, issueGate OP_VLOAD k s = .inr w → t = s.tile k → sramTrap t false (memOffset t w) 128 = none →
    r = sramRead t (memOffset t w) 128 →
    exec (.vload ⟨k, waits⟩) s = .next (withWaits k waits s (countCorrected (podOf k) r.2.2 (s.setTile k
      (advance (r.2.1.setV (wDst w) 0 (bytesWords r.1 32))))))) ∧
  (∀ k waits w s t r, issueGate OP_VSTORE k s = .inr w → t = s.tile k → sramTrap t true (memOffset t w) 128 = none →
    r = sramWrite t (memOffset t w) (wordBytes (t.v (wB w))) →
    exec (.vstore ⟨k, waits⟩) s = .next (withWaits k waits s (countCorrected (podOf k) r.2 (s.setTile k (advance r.1))))) ∧
  (∀ k (waits : BankWait) s, bankWaits k waits s =
    (waits.riser.foldl (fun s b => bankConflict k (b % 4) s) s).addSat (POD_BANK_STALL (podOf k)) waits.behind) ∧
  (∀ k w s t t1 t2, issueGate OP_VPUSH k s = .inr w → t = s.tile k →
    (if t.seq.pushed then .ok t
      else pushEntry (routeOk s (podOf k)) t (bits (wImm w) 0 4) ((wordBytes (t.v (wA w))).take 64)) = .ok t1 →
    pushEntry (routeOk s (podOf k)) t1 (bits (wImm w) 0 4) ((wordBytes (t.v (wA w))).drop 64) = .ok t2 →
    exec (.vpush k) s = .next (s.setTile k (advance t2))) ∧
  (∀ k w s t bs t2 n u, issueGate OP_VPOP k s = .inr w → t = s.tile k →
    popEntry t (bits (wImm w) 0 4) = .ok (bs, t2, n) →
    u = countCorrected (podOf k) n (s.setTile k (advance (t2.setV (wDst w) (if bit (wImm w) 4 then 16 else 0)
      (bytesWords bs 16)))) →
    (u.tile k).seq ≠ t.seq → exec (.vpop k) s = .next (progress (podOf k) (owesAnew (podOf k) u)))

/-- R113 to R117: the life of a special-function request. -/
def Obligations.SpecialFunctionsComplete : Prop :=
  (∀ k w s t, issueGate OP_VSFU k s = .inr w → t = s.tile k → t.sfu = none →
    exec (.vsfu k) s = .next (s.setTile k (advance { t with
      sfu := some { fn := bits (wImm w) 0 2, lanes := t.v (wA w), dst := wDst w, granted := false, waited := 0 } }))) ∧
  (∀ p k s u, s.rd (POD_STATE p) = POD_RUNNING →
    (rrOrder (tget (s.pod p).sfus k {}).lastCol).find? (fun u => sfuWaits s (stripeTile p k u)) = some u →
    exec (.sfuGrant p k) s = .next (sfuGranted p k u s)) ∧
  (∀ k s t r u, t = s.tile k → t.sfu = some r → r.granted = true →
    u = s.setTile k ({ t with sfu := none }.setV r.dst 0 (r.lanes.map (sfuLane (s.rdB (SFU_COMPAT (podOf k))) r.fn))) →
    exec (.sfuResultWrite k) s = .next (u.setPod (podOf k) { u.pod (podOf k) with
      sfus := tput (u.pod (podOf k)).sfus (localOf k / 16)
        { tget (u.pod (podOf k)).sfus (localOf k / 16) {} with
          granted := (tget (u.pod (podOf k)).sfus (localOf k / 16) {}).granted.erase (localOf k % 16) } {} }))

/-- R168: the nest of the active shell. The model's choices in it: log entries 56, 63, 64, 158, 190, 193, 202, 203 (rows
that continue from +0, latch layouts, leftovers, the numbering of entries, when a row leaves). -/
def Obligations.PlaneRunCompletes : Prop :=
  ∀ k waits s t r u, t = s.tile k → issuing k s = true → t.seq.index < t.opCount →
    wordValid t.seq.index t.seq.reps.length t.opCount (s.rd (STR_TABLE_LEN (podOf k))) (currentWord t) = true →
    wOp (currentWord t) = OP_PLANE_RUN →
    r = planeLoop (localOf k % 16) (nestLevels t) (routeOk s (podOf k)) (planeFuel t (nestLevels t))
      { t with seq := { t.seq with phase := 2 }, waitPop := [], waitPush := [] } 0 →
    u = bankWaits k waits (countCorrected (podOf k) r.corrected (s.setTile k r.tile)) →
    (r.trap = none → exec (.planeRun ⟨k, waits⟩) s = .next (if (List.range 16).any (fun q => (r.tile.chan q).owed ≠ (t.chan q).owed)
      then progress (podOf k) (owesAnew (podOf k) u) else u)) ∧
    (∀ f, r.trap = some f → exec (.planeRun ⟨k, waits⟩) s = .next (raiseFault k f none
      (if (List.range 16).any (fun q => (r.tile.chan q).owed ≠ (t.chan q).owed) then progress (podOf k) (owesAnew (podOf k) u) else u)))

/-- R160 to R164, R221 and R72: the sequencer's own words, the steps and the watchdog. The model's choices in it: log
entries 117, 152, 179, 192, 199, 200, 202 (when a word waits, which fault comes first, the slot states at a switch). -/
def Obligations.SequencerWordsComplete : Prop :=
  (∀ k w s t, issueGate OP_END k s = .inr w → t = s.tile k → t.seq.accOpen = false →
    exec (.endOp k) s = .next (s.setTile k
      { t with seq := { t.seq with phase := 3 }, waitPop := [], waitPush := [], stalled := false })) ∧
  (∀ k w s t, issueGate OP_REPEAT k s = .inr w → t = s.tile k →
    exec (.repeatOp k) s = .next (s.setTile k { t with
      seq := { t.seq with
        index := t.seq.index + 1,
        reps := { left := bits (wImm w) 0 16, first := t.seq.index + 1, len := bits (wImm w) 16 8 } :: t.seq.reps,
        phase := 1 },
      stalled := false })) ∧
  (∀ k w s t, issueGate OP_WAIT k s = .inr w → t = s.tile k →
    (∀ j, j < 8 → bit (wImm w) j = true → ticketFree t j = true) →
    exec (.waitOp k) s = .next (s.setTile k (advance t))) ∧
  (∀ k w s t, issueGate OP_FENCE k s = .inr w → t = s.tile k →
    (∀ j, j < 8 → ticketFree t j = true) →
    (bit (wImm w) 0 = false ∨ (t.remoteOut = 0 ∧ ∀ q, q < 16 → chMode (t.chanEntry t.active q) = MODE_OUTPUT →
      chHub (t.chanEntry t.active q) = true → 32 ≤ chHubIdx (t.chanEntry t.active q) →
      chHubIdx (t.chanEntry t.active q) < 48 → (t.chan q).count = 0)) →
    exec (.inGraphFence k) s = .next (s.setTile k (advance t))) ∧
  (∀ k s t u h, t = s.tile k → s.rd (POD_STATE (podOf k)) = POD_RUNNING → atBoundary t = true →
    (t.nextEn t.active = false ∨ 2 ≤ s.rd (SHL_SLOT (podOf k) (t.nextShell t.active))) →
    u = s.setTile k { t with
      seq := {}, acc := [], left := {}, pend := if t.nextEn t.active then some (t.nextShell t.active) else t.pend } → u.podOwner (podOf k) = some h →
    exec (.stepBoundaryReached k) s =
      .next (if (hullTiles u h).all (fun j => (u.tile j).seq.phase = 0) then stepEnds h u else u)) ∧
  (∀ h s st t u v w x, (s.hull h).step = some st → st.begun = false → st.staging = 0 → (s.hull h).fault = none →
    (s.hull h).live = true → (s.hull h).pods.all (fun p => s.rd (POD_STATE p) = POD_LOADED) = true →
    t = takeMap h (syncFrame (advanceTo st.start.toNat s)) →
    u = t.setHull h { t.hull h with step := (t.hull h).step.map (fun st => { st with begun := true }), select := none } →
    v = (if (s.hull h).devIndex = 0 then st.segs.foldl (fun (s : State) g => s.setRequest g.req { s.request g.req with ran := true }) u
      else u) →
    w = setPods (s.hull h).pods POD_RUNNING v →
    x = (hullTiles ((s.hull h).pods.foldl (fun s p => switchSlots p s) w) h).foldl (fun s k => startTile k s)
      ((s.hull h).pods.foldl (fun s p => switchSlots p s) w) →
    exec (.stepStart h) s = .next (if (x.hull h).fault.isSome
      then (s.hull h).pods.foldl (fun s p => (List.range 4).foldl (fun (s : State) i => s.wr (SHL_SLOT p i) (w.rd (SHL_SLOT p i))) s) x
      else markBreaches x)) ∧
  (∀ h s st p ps, (s.hull h).step = some st → st.begun = true → st.reported.contains (s.hull h).devIndex = false →
    (s.hull h).live = true → (s.hull h).fault = none →
    placementWait s h = false → sortBy (fun a b => a ≤ b) (s.hull h).pods = p :: ps →
    ∃ rec, exec (.stall h) s = .next (hullFault h p 160 rec ((p :: ps).foldl (fun s q =>
        notePodFault q 160 rec true (s.wr32 (POD_WDOG_COUNT q) (wdogLimit s q))) s)) ∧
      bits rec.toNat 32 8 = 0x10 ∧ bits rec.toNat 0 8 = 0xFF ∧ bits rec.toNat 8 7 = 0x7F)

/-- R182 to R188: the life of a stream descriptor. The model's choices in it: log entries 68, 69, 178, 195 (a table read
that fails, the class, TSIDE 1 targets, DESC_ERROR alone). -/
def Obligations.StreamEventsComplete : Prop :=
  (∀ k w s t p g r d u x, issueGate OP_STREAM k s = .inr w → t = s.tile k → p = podOf k →
    (tget t.tickets (bits (wImm w) 10 3) {}).busy = false → ntOn s = true →
    g = BitVec.ofNat 64 (s.rd64 (STR_TABLE p) + 64 * bits (wImm w) 0 10) →
    r = access true (.hullPort ((s.podOwner p).getD 128)) (.addr g) (.read 64) s → rspFails r.code = false →
    d = { job := (s.pod p).nextJob + 1, index := bits (wImm w) 0 10, raw := BitVec.ofNat 512 (leNat r.data), tile := k,
          ticket := bits (wImm w) 10 3 } →
    (s.engine p (rawEngine d.raw)).queue.length < 32 →
    u = r.s.setTile k (advance { t with tickets := tput t.tickets d.ticket { busy := true, desc := d.index, job := d.job } {} }) →
    x = u.setPod p { u.pod p with nextJob := d.job } →
    exec (.streamOp k) s =
      .next (noteUnwritten p r.code (setQueue p (rawEngine d.raw) ((x.engine p (rawEngine d.raw)).queue ++ [d]) x))) ∧
  (∀ p e s d tg, s.rdB (STR_STOP p e) = false → s.rd (POD_STATE p) = POD_RUNNING → ntOn s = true → inFlight (s.engine p e) < 32 →
    (issueOrder (s.engine p e)).find? (canIssue s p) = some d → chunkOk s p d d.next = true → d.target d.next = some tg →
    (d.tkind ≠ 0 ∨ halts s d.handle = false ∨ (d.direct = true ∧ (s.tensor d.handle).move = 0)) →
    (d.write = false → exec (.chunkIssue p e) s = .next (sendChunk p e d tg (.read d.chunkBytes) s)) ∧
    (∀ k off a, d.write = true → d.tside ≠ 2 → k = p * 160 + (d.sramAt d.next).1 → off = (d.sramAt d.next).2 →
      a = tileRead { space := 3, off := tsOffset k 0 off, room := 0x30000 - off } d.chunkBytes s → rspFails a.code = false →
      exec (.chunkIssue p e) s = .next (sendChunk p e d tg (.write a.data) a.s)) ∧
    (∀ r u n data, d.write = true → d.tside = 2 → takeHub p e 16 d s = (r, u) →
      r.kept.find? (fun x => x.1 = d.next) = some (n, data) → d.chunkBytes ≤ data.length →
      exec (.chunkIssue p e) s = .next (sendChunk p e r tg (.write data) (setDesc p e r u)))) ∧
  (∀ p e s d tg, s.rdB (STR_STOP p e) = false → s.rd (POD_STATE p) = POD_RUNNING → ntOn s = true → inFlight (s.engine p e) < 32 →
    (issueOrder (s.engine p e)).find? (canIssue s p) = some d → chunkOk s p d d.next = true → d.target d.next = some tg →
    d.tkind = 0 → halts s d.handle = true → (d.direct = false ∨ (s.tensor d.handle).move ≠ 0) →
    exec (.chunkIssue p e) s = .next (haltDesc p e d s)) ∧
  (∀ p e s d, s.rdB (STR_STOP p e) = false → s.rd (POD_STATE p) = POD_RUNNING → ntOn s = true → inFlight (s.engine p e) < 32 →
    (issueOrder (s.engine p e)).find? (canIssue s p) = some d → chunkOk s p d d.next = false →
    exec (.chunkIssue p e) s = .next (raiseFault d.tile ⟨0x0C, d.levelAt d.next, 0⟩ none (s.raise (STR_STATUS p e) 3))) ∧
  (∀ p e n s d u, (s.engine p e).queue.find? (fun d => d.halted.isSome && (s.tensor d.handle).move = 0
      && (d.direct || !halts s d.handle || placementOn s)) = some d →
    u = s.addSat (STR_PLACE_CYCLES p e) n → (d.direct = true ∨ halts u d.handle = false) →
    exec (.streamResume ⟨p, e⟩ n) s = .next (setDesc p e { d with halted := none } u)) ∧
  (∀ p e s x d n, nextEnded s p e = some (x, some (d, n)) → ((s.rd (POD_STATE p) = POD_RUNNING ∧ (s.pod p).changing = false) ∨ d.write = true) →
    exec (.chunkResponse p e) s = .next (applyChunk p e d n x s)) ∧
  (∀ p e s d, (s.engine p e).queue.find? (fun d => d.chunks ≤ d.next && d.flying = [] && d.halted.isNone && d.wellFormed)
      = some d → exec (.descriptorComplete p e) s = .next (endDesc p e d 2 s)) ∧
  (∀ p e s, exec (.streamStop p e) s = .next (s.wr (STR_STOP p e) 1))

/-- R57 to R67: the life of a queue entry and of its credit. The model's choices in it: log entries 70, 154, 194 (the
crossings as lists, the first grant, which flits wait). -/
def Obligations.MeshEventsComplete : Prop :=
  (∀ k q s t e c bs t2 n, t = s.tile k → e = t.chanEntry t.active q → c = t.chan q → queuesLive s k = true → podSide s k = true →
    hullFaulted s (podOf k) = false → (s.rdB (POD_INJECT_STOP (podOf k)) = false ∨ chHub e = true) → chMode e = MODE_OUTPUT →
    c.count ≠ 0 → c.credits ≠ 0 → destBad e = false → readEntry t q = .ok (bs, t2, n) →
    (chHub e = false → t.toMesh.length < 8 →
      exec (.queueEntrySend k q) s = .next (localPump k ((progress (podOf k) (countCorrected (podOf k) n (s.setTile k
        { t2.setChan q { c with head := (c.head + 1) % chDepth e, count := c.count - 1, credits := c.credits - 1 } with
          toMesh := t2.toMesh ++ [{ destX := chX e, destY := chY e, destQ := chQ e, credit := false,
                                    hull := s.rd (POD_HULL (podOf k)), payload := BitVec.ofNat 512 (leNat bs) }] }))).addWrap
        (POD_MESH_INJ (podOf k)) 1))) ∧
    (∀ t3, chHub e = true → t.riserUp.length < 8 →
      t3 = t2.setChan q { c with head := (c.head + 1) % chDepth e, count := c.count - 1, credits := c.credits - 1 } →
      exec (.queueEntrySend k q) s = .next (riserPump k (refreshHubIdle (podOf k) (progress (podOf k)
        (countCorrected (podOf k) n (s.setTile k { t3 with
          riserUp := t3.riserUp ++ [(chHubIdx e, q, BitVec.ofNat 512 (leNat bs))],
          remoteOut := if 32 ≤ chHubIdx e && chHubIdx e < 48 then t3.remoteOut + 1 else t3.remoteOut }))))))) ∧
  (∀ k q s t c h k2 q2, t = s.tile k → c = t.chan q → queuesLive s k = true → podSide s k = true → c.owed ≠ 0 →
    s.podOwner (podOf k) = some h → producerOf s h k q = some (k2, q2) → t.toMesh.length < 8 →
    exec (.creditReturnSend k q) s = .next (localPump k (refreshInjectStopped (podOf k) ((s.setTile k
      { t.setChan q { c with owed := 0 } with
        toMesh := t.toMesh ++ [{ destX := tileX k2, destY := tileY k2, destQ := q2, credit := true, hull := h,
                                 payload := BitVec.ofNat 512 c.owed }] }).addWrap (POD_MESH_INJ (podOf k)) 1)))) ∧
  (∀ x y out next s a b, candidate s x y out 1 = some a → candidate s x y out 0 = some b →
    outputPick s x y out next = if next && tget (s.router (tileAt x y)).lastVc1 out false then some (0, b) else some (1, a)) ∧
  (∀ x y out next s a, (candidate s x y out 1 = some a → candidate s x y out 0 = none → outputPick s x y out next = some (1, a)) ∧
    (candidate s x y out 1 = none → candidate s x y out 0 = some a → outputPick s x y out next = some (0, a))) ∧
  (∀ x y out next s vc i f u k j, meshOn s (tileAt x y) = true → outputPick s x y out next = some (vc, i, f) →
    u = noteServed x y out vc i (dropHead (tileAt x y) i vc s) →
    (k, j) = (downstream x y out).getD (tileAt x y, i) →
    (∀ errs, (∀ e ∈ errs, e = 0) → exec (.meshFlitForward x y ⟨out, next⟩ ⟨[], errs⟩) s = .next (deliver x y out vc f u)) ∧
    (∀ errs, (∀ e ∈ errs, e < 2) → 1 ∈ errs → exec (.meshFlitForward x y ⟨out, next⟩ ⟨[], errs⟩) s =
      .next (deliver x y out vc f ((u.raise (POD_FAULT_STATUS (podOf k)) 3).addSat (POD_LINK_CE (podOf k)) 1))) ∧
    (∀ errs, (∃ e ∈ errs, 2 ≤ e) → exec (.meshFlitForward x y ⟨out, next⟩ ⟨[], errs⟩) s =
      .next (raiseFault k ⟨0x0A, j, 0⟩ (some f.hull) u)) ∧
    (∀ errs link, (∃ e ∈ errs, 2 ≤ e) → exec (.meshFlitForward x y ⟨out, next⟩ ⟨errs, link⟩) s =
      .next (raiseFault (tileAt x y) ⟨0x0A, i, 0⟩ (some f.hull) u))) ∧
  (∀ k s f rest, (s.tile k).toTile = f :: rest → f.credit = false → podSide s k = true →
    (s.rd (POD_STATE (podOf k)) ≠ POD_OFF → s.podOwner (podOf k) = some f.hull →
      exec (.dataFlitArrive k) s = .next (acceptEntry k f.destQ f.payload (ejectFlit k s))) ∧
    ((s.rd (POD_STATE (podOf k)) = POD_OFF ∨ s.podOwner (podOf k) ≠ some f.hull) →
      exec (.dataFlitArrive k) s = .next (raiseFault k ⟨0x09, f.hull, f.destQ⟩ (some f.hull) (ejectFlit k s)))) ∧
  (∀ k s f rest t c, (s.tile k).toTile = f :: rest → f.credit = true → podSide s k = true → t = (ejectFlit k s).tile k →
    c = t.chan f.destQ → chMode (t.chanEntry t.active f.destQ) = MODE_OUTPUT →
    c.credits + bits f.payload.toNat 0 16 ≤ chInit (t.chanEntry t.active f.destQ) →
    exec (.creditFlitArrive k) s = .next ((ejectFlit k s).setTile k
      (t.setChan f.destQ { c with credits := c.credits + bits f.payload.toNat 0 16 })))

/-- The events that move a hull on: R76, R78, R145, R155 and R157. The model's choices in it: log entries 91, 97, 99,
100, 163, 165, 185, 197, 204, 205 (packages and save blocks, running requests at a fault, loads in turn and by
register). -/
def Obligations.HullEventsComplete : Prop :=
  (∀ h s v hl u, v = beginQuiesce h s → hl = v.hull h → u = hl.pods.foldl (fun (s : State) p => refreshInjectStopped p s) v →
    hl.pods ≠ [] → (∀ p ∈ hl.pods, u.rd (POD_STATE p) = POD_HALTED) → quiescent u h = true → drains u h = true →
    hl.drained = false → (hl.fault = none ∨ hl.faultDone = true) →
    exec (.quiescenceReached h) s = .next (startScan h 1 u)) ∧
  (∀ h s rec, (s.hull h).fault = some rec → (s.hull h).faultDone = false →
    exec (.hullFaultHandling h) s = .next (commandEpoch s (advanceHull h (handleFault h true s)))) ∧
  (∀ n s h, (tkeys s.srv.hulls).filter (fun h =>
      (s.hull h).live && (s.hull h).multi && (s.hull h).graph = n.graph) = [h] →
    exec (.faultNotice n) s = .next (commandEpoch s (foreignFault h n.record s))) ∧
  (∀ p s h ld, (s.pod p).load = some ld → s.podOwner p = some h → ntOn s = true → (s.pod p).changing = false →
    ((s.hull h).fault.isSome = true → exec (.shellLoadDone p) s = .next (abortLoads h s)) ∧
    ((s.hull h).fault = none → ld.bare = true → exec (.shellLoadDone p) s = .next (nextLoad h (bareDone h p ld s)))) ∧
  (∀ p s h ld b u t, (s.pod p).load = some ld → s.podOwner p = some h → ntOn s = true → (s.pod p).changing = false → (s.hull h).fault = none → ld.bare = false →
    look (loadRanges s h p ld) s = (none, b, u) → t = storeLoad h p ld (noteLoadRun h ld b u) →
    (∀ r, loadingOf t h ld.slot = some r → loadersBusy t h = true → exec (.shellLoadDone p) s = .next t) ∧
    (∀ r b2 v, loadingOf t h ld.slot = some r → loadersBusy t h = false → look (tableRanges t h) t = (none, b2, v) →
      exec (.shellLoadDone p) s = .next (nextLoad h (loadChecks { r with unwritten := r.unwritten || b2 } h ld s v))) ∧
    (loadingOf t h ld.slot = none → ld.cfg + 1 < (t.hull h).configs → exec (.shellLoadDone p) s =
      .next (startLoad p ((t.hull h).pods.idxOf p) (ld.slot + 1) (ld.cfg + 1) ld.pkg t)) ∧
    (loadingOf t h ld.slot = none → (t.hull h).configs ≤ ld.cfg + 1 →
      exec (.shellLoadDone p) s = .next (commandEpoch s (advanceHull h t)))) ∧
  (∀ p s h t u v bad, s.podOwner p = some h → (s.pod p).scan = 1 → ntOn s = true → (s.pod p).changing = false →
    bad = decide (saveErrors s (scanBase s p) ≠ [] ∨ storesBad s p = true) →
    t = correctStores p ((saveErrors s (scanBase s p)).foldl (fun s g => uncorrectable false g 0 s) s) →
    u = (if bad then t else scanOut h ((s.hull h).pods.idxOf p) p (scanBase s p) t) →
    v = (endPodScan p bad u).wr (POD_STATE p) POD_HALTED →
    exec (.scanOutDone p) s =
      .next (if drains v h = true ∧ (s.hull h).pods.all (fun p => (v.pod p).scan = 0) = true then commandEpoch s (drainDone h v) else v)) ∧
  (∀ p s h u l, s.podOwner p = some h → (s.pod p).scan = 2 → ntOn s = true → (s.pod p).changing = false → saveErrors s (scanBase s p) = [] → savePoisoned s (scanBase s p) = false → l = (s.hull h).pods.idxOf p →
    u = (writeTable (s.hull h) l p (scanIn h p (scanBase s p) (correctSave (scanBase s p) (endPodScan p false s)))).wr (POD_STATE p) POD_HALTED →
    exec (.scanInDone p) s =
      .next (if (s.hull h).pods.all (fun p => u.rd (POD_STATE p) = POD_HALTED) = true ∧ restores u h = true
        then commandEpoch s (restoreDone h u) else u)) ∧
  (∀ p s h es u r, s.podOwner p = some h → (s.pod p).scan = 2 → ntOn s = true → (s.pod p).changing = false → es = saveErrors s (scanBase s p) →
    (es ≠ [] ∨ savePoisoned s (scanBase s p) = true) →
    u = (es.foldl (fun s g => uncorrectable false g 0 s) (endPodScan p true s)).wr (POD_STATE p) POD_IDLE →
    runOf u h = some r →
    exec (.scanInDone p) s = .next (commandEpoch s (restoreFails r ((s.hull h).pods.idxOf p) u)))

/-- The serving engine during a step: R279, R280, R283, R284, R290, R296 and R300. The model's choices in it: log
entries 108, 109, 111, 171, 182 (step numbers, ARRIVED, the order of admission, the notices between devices). -/
def Obligations.StepEventsComplete : Prop :=
  (∀ p s h st e t, s.podOwner p = some h → (s.hull h).step = some st → hubTake p 48 s = (some e, t) →
    (t.hull h).step = some st →
    exec (.emitEntry p) s = .next (t.setHull h { t.hull h with step := some (if st.emits.length < st.segs.length
      then { st with emits := st.emits ++ [e.2] } else { st with extra := st.extra + 1 }) })) ∧
  (∀ p s h st e t, s.podOwner p = some h → (s.hull h).step = some st → hubTake p 50 s = (some e, t) →
    (t.hull h).step = some st →
    exec (.servingPortEntry p 50) s = .next (t.setHull h { t.hull h with step := some (if gateForA st
      then { st with gateA := st.gateA ++ [e.2] } else { st with gateB := st.gateB ++ [e.2] }) })) ∧
  (∀ p s h st e t, s.podOwner p = some h → (s.hull h).step = some st → (t.hull h).step = some st →
    (hubTake p 51 s = (some e, t) → exec (.servingPortEntry p 51) s =
      .next (t.setHull h { t.hull h with step := some { st with rowsA := st.rowsA ++ [e.2] } })) ∧
    (hubTake p 52 s = (some e, t) → exec (.servingPortEntry p 52) s =
      .next (t.setHull h { t.hull h with step := some { st with rowsB := st.rowsB ++ [e.2] } }))) ∧
  (∀ p s h st e t m u, s.podOwner p = some h → (s.hull h).step = some st → hubTake p 49 s = (some e, t) →
    (t.hull h).step = some st → (t.hull h).manifest = some m →
    u = setStep h (fun st => { st with output := st.output ++ leBytes e.2.toNat 64 }) t →
    (u.hull h).manifest = some m →
    exec (.servingPortEntry p 49) s = .next (regionWrite h m (outStaging u h + st.output.length) (leBytes e.2.toNat 64) u)) ∧
  (∀ h halfB s st, (s.hull h).step = some st → halfReady s h halfB st = true →
    exec (.expertDispatch h halfB) s = .next (dispatchHalf h halfB st s)) ∧
  (∀ h s i n d, (s.hull h).live = true → (s.hull h).fault = none →
    (hullRequests s h).find? (fun i => (s.request i).state = REQ_QUEUED) = some i →
    kvFit s (s.hull h) (kvFootprint (s.hull h) (s.request i)) = some (n, d) →
    exec (.kvAdmission h) s = .next (formStep h
      ((s.setHull h { s.hull h with kvNUsed := (s.hull h).kvNUsed + n, kvDUsed := (s.hull h).kvDUsed + d }).setRequest i
        { s.request i with state := REQ_ADMITTED, kvN := n, kvD := d }))) ∧
  (∀ h d s st, (s.hull h).devIndex = 0 → d < (s.hull h).devCount → (s.hull h).step = some st → st.reported.contains d = false →
    (∀ m : PartMarks, exec (.boundaryReport h ⟨d, .clean m⟩) s = .next (s.setHull h { s.hull h with
      step := some { st with
        reported := st.reported ++ [d], unwritten := st.unwritten || m.unwritten, breach := st.breach || m.breach,
        boundOver := st.boundOver || m.boundOver, dropped := st.dropped ++ m.dropped, degraded := st.degraded ++ m.degraded } })) ∧
    (∀ status a, exec (.boundaryReport h ⟨d, .failed status a⟩) s = .next (s.setHull h { s.hull h with
      step := some { st with reported := st.reported ++ [d], error := some (st.error.getD (status, a)) } }))) ∧
  (∀ h s st t, (s.hull h).step = some st → st.begun = true → (s.hull h).devIndex = 0 → (s.hull h).fault = none →
    allReported (s.hull h) st = true → (∀ p ∈ (s.hull h).pods, hubQueue s p 48 = [] ∧ hubQueue s p 49 = []) →
    st.error = none → emitsMatch st = true → mirroring s = false → awaitsAck s st = false → t = commitEffects h s →
    (t.hull h).step = none → (t.hull h).fault = none →
    exec (.stepCommit h) s = .next (afterBoundary h t)) ∧
  (∀ h (plan : StepPlan) s n, (s.hull h).live = true → (s.hull h).devIndex ≠ 0 → (s.hull h).fault = none →
    n = ({ number := plan.number, start := plan.start, segs := plan.segs, rowsUsed := plan.rowsUsed, halfSplit := ceilDiv plan.rowsUsed 2 } : Step) →
    ((s.hull h).step = none → exec (.startNotice h plan) s = .next (s.setHull h { s.hull h with
      step := some n, stepNo := plan.number + 1 })) ∧
    (∀ st, (s.hull h).step = some st → st.reported.contains (s.hull h).devIndex = true →
      exec (.startNotice h plan) s = .next (s.setHull h (if plan.committed
        then { s.hull h with step := some n, stepNo := plan.number + 1, committed := (s.hull h).committed + 1, lastStart := st.start }
        else { s.hull h with step := some n, stepNo := plan.number + 1 }))))

/-- R362 to R364: the states of a port. The model's choices in it: log entries 138, 218 (route updates at each change,
the twin ports). -/
def Obligations.PortEventsComplete : Prop :=
  (∀ p s, isPort p = true → s.rd (PORT_STATE p) = 1 →
    exec (.portDetect p .receiver) s = .next (enterPort p 3 s) ∧
    exec (.portDetect p .transmitter) s = .next (enterPort p 2 s)) ∧
  (∀ p l rev pol s t, isPort p = true → s.rd (PORT_STATE p) = 3 → l % 16 ≠ 0 → t = s.addSat (portBlock p + 0x28) 1 →
    exec (.portTrainingDone p (.locked l rev pol)) s = .next (enterPort p 4
      (((t.setPort p { t.port p with trainFails := 0, clean := [], lanes := l % 16 }).wrB ⟨portBlock p, 19, 1⟩ rev).wr
        ⟨portBlock p, 20, 4⟩ pol))) ∧
  (∀ p s t, isPort p = true → s.rd (PORT_STATE p) = 3 → t = s.addSat (portBlock p + 0x28) 1 →
    exec (.portTrainingDone p .failed) s =
      .next (if 2 ≤ (t.port p).trainFails then enterPort p 1 (t.setPort p { t.port p with trainFails := 0 })
        else t.setPort p { t.port p with trainFails := (t.port p).trainFails + 1 })) ∧
  (∀ p peer s t, isPort p = true → s.rd (PORT_STATE p) = 4 →
    t = (s.wr (PORT_PEER p) peer.id).wr (PORT_PEER_PORT p) peer.port →
    ((peer.idValid = false ∨ t.rdB FAB_VALID = false) → exec (.peerCheck p peer) s = .next (enterPort p 10 t)) ∧
    (peer.idValid = true → t.rdB FAB_VALID = true →
      (peer.id = t.rd FAB_DEVICE → exec (.peerCheck p peer) s = .next (enterPort p 9 t)) ∧
      (peer.id ≠ t.rd FAB_DEVICE → isTwinPort p = false → mapPeer t p ≠ some (peer.id, peer.port) →
        exec (.peerCheck p peer) s = .next (enterPort p 8 t)) ∧
      (peer.id ≠ t.rd FAB_DEVICE → isTwinPort p = false → mapPeer t p = some (peer.id, peer.port) →
        exec (.peerCheck p peer) s = .next (raisePort p t)) ∧
      (peer.id ≠ t.rd FAB_DEVICE → isTwinPort p = true → peer.port ≠ p →
        exec (.peerCheck p peer) s = .next (enterPort p 8 t)) ∧
      (peer.id ≠ t.rd FAB_DEVICE → isTwinPort p = true → peer.port = p →
        exec (.peerCheck p peer) s = .next (raisePort p { t with twin := { t.twin with partner := some peer.id } })))) ∧
  (∀ p peer s, isPort p = true → s.rd (PORT_STATE p) = 10 → (peer.idValid = false ∨ s.rdB FAB_VALID = false) →
    exec (.peerCheck p peer) s = .next s) ∧
  (∀ p s, isPort p = true → s.rd (PORT_STATE p) = 7 → exec (.linkRetrainTimer p) s = .next (enterPort p 3 s)) ∧
  (∀ p s, isPort p = true → s.rd (PORT_STATE p) = 2 → exec (.crossedRecheck p true) s = .next (enterPort p 1 s)) ∧
  (∀ p s, isPort p = true → (s.rd (PORT_STATE p) = 8 ∨ s.rd (PORT_STATE p) = 9) →
    exec (.cableRemoved p) s = .next (enterPort p 1 s)) ∧
  (∀ p s, isPort p = true → portUp s p = true → exec (.linkDownDetect p) s = .next (downPort p s)) ∧
  (∀ p l s t u, isPort p = true → l < 4 → portUp s p = true → bit (s.rd (PORT_LANES p)) l = true →
    t = (s.wr ⟨portBlock p, 4 + l, 1⟩ 0).raise (portBlock p + 4) 0 →
    u = t.setPort p { t.port p with clean := tdel (t.port p).clean l } →
    (u.rd (PORT_LANES p) = 0 → exec (.laneLockLoss p l) s = .next (downPort p u)) ∧
    (u.rd (PORT_LANES p) ≠ 0 → exec (.laneLockLoss p l) s = .next (if isTwinPort p then replayPort p (enterPort p 6 u)
      else linksChanged (replayPort p (enterPort p 6 u))))) ∧
  (∀ p l s t n clean, isPort p = true → l < 4 → portUp s p = true → bit (s.rd (PORT_LANES p)) l = false →
    t = s.addSat (portBlock p + 0x28) 1 → n = (if clean then tget (t.port p).clean l 0 + 1 else 0) → n < 3 →
    exec (.laneRetrain p l clean) s =
      .next (t.setPort p { t.port p with clean := tput (t.port p).clean l n 0 })) ∧
  (∀ p l s t u v, isPort p = true → l < 4 → portUp s p = true → bit (s.rd (PORT_LANES p)) l = false →
    t = s.addSat (portBlock p + 0x28) 1 → 3 ≤ tget (t.port p).clean l 0 + 1 →
    u = ((t.setPort p { t.port p with clean := tdel (t.port p).clean l }).wr ⟨portBlock p, 4 + l, 1⟩ 1).raise
      (portBlock p + 4) 1 →
    v = replayPort p (if u.rd (PORT_LANES p) = 15 then enterPort p 5 u else u) →
    exec (.laneRetrain p l true) s = .next (if isTwinPort p then v else linksChanged v))

/-- R366, R373, R375, R379, R381 and R383. The model's choices in it: log entries 138–141, 186, 221 (route updates,
flits, exchanges, when SLICE_SET and COUNTER_SYNC complete). -/
def Obligations.LinkLayerAndRoutesComplete : Prop :=
  (∀ p f s t, isPort p = true → portUp s p = true → flitGood f = true → t = takeAck p f (noteFec p s) → portUp t p = true →
    fb f 0 2 % 4096 = (t.port p).rxSeq →
    exec (.fabricFlitReceive p f) s = .next (takeTime p f ((t.setPort p { t.port p with
      rxSeq := ((t.port p).rxSeq + 1) % 4096, ackDue := true,
      owed := tput (t.port p).owed (bits (fb f 4 1) 0 3) (tget (t.port p).owed (bits (fb f 4 1) 0 3) 0 + 1) 0 }).add64
        (portBlock p + 0x20) 512))) ∧
  (∀ p f s, isPort p = true → portUp s p = true → flitGood f = false →
    exec (.fabricFlitReceive p f) s = .next (nakFlit p ((noteFec p s).addSat (portBlock p + 0xC) 1))) ∧
  (∀ p f s t, isPort p = true → portUp s p = true → flitGood f = true → t = takeAck p f (noteFec p s) → portUp t p = true →
    fb f 0 2 % 4096 ≠ (t.port p).rxSeq → exec (.fabricFlitReceive p f) s = .next (nakFlit p t)) ∧
  (∀ p s, isPort p = true → portUp s p = true → (s.port p).ackDue = true →
    exec (.ackTimer p) s = .next ((s.setPort p { s.port p with ackDue := false, owed := owedAfter (s.port p) }).emit
      (.linkAck p (((s.port p).rxSeq + 4095) % 4096) false (creditsOwed (s.port p))))) ∧
  (∀ u s, s.rdB FAB_VALID = true → u.origin ≠ s.rd FAB_DEVICE → reportOf s u.origin = none →
    exec (.routeUpdate u) s = .next (settleSync (recompute (flood (.routeUpdate u) { s with fab := { s.fab with
      reports := s.fab.reports.filter (fun (o : RouteUpdate) => o.origin ≠ u.origin) ++ [u] } })))) ∧
  (∀ ring s c t, ready 0x51 ring s c t →
    exec (.routeQuery ring) s = .next (c.done ST_OK 1112 0 (dmaOut c.fn (c.p 12 8) (routeReport t) t))) ∧
  (∀ ring s c t u, ready 0x50 ring s c t → (∀ h < 128, (t.hull h).live = false ∨ (t.hull h).multi = false) →
    u = linksChanged (t.wr FAB_SLICE (c.p 12 1)) →
    (u.rdB FAB_VALID = true → exec (.sliceSet ring) s = .next (startRun (c.run (.slicing u.counter.toNat)) u)) ∧
    (u.rdB FAB_VALID = false → exec (.sliceSet ring) s = .next (c.done ST_OK 0 0 u))) ∧
  (∀ ring s c t, ready 0x54 ring s c t →
    (c.p 12 1 = 0 → parentPort t = none → exec (.counterSync ring) s = .next (c.done ST_OK 0 0 t)) ∧
    (c.p 12 1 = 0 → (parentPort t).isSome = true →
      exec (.counterSync ring) s = .next (startRun (c.run .syncing) (askTime t))) ∧
    (c.p 12 1 ≠ 0 → exec (.counterSync ring) s = .next (c.done ST_OK 0 0 (t.wr FAB_DITHER (c.p 16 4))))) ∧
  (∀ (x : TimeExchange) s, s.rdB FAB_VALID = true → s.rdB TIME_ROOT = false → (∃ p < 16, portUp s p = true) →
    exec (.timestampExchange x) s = .next (askTime (finishRuns (fun r => r.kind == .syncing) ST_OK 0
      (applyOffset (((x.t2 : Int) - x.t1) - ((x.t4 : Int) - x.t3)) s))))

/-- R373, R376, R377 and R379: remote access and remote queue routes. The model's choices in it: log entries 74, 79,
139, 142, 187, 220 (who asks, packets in transit, response codes and the response space). -/
def Obligations.RemoteTrafficCompletes : Prop :=
  (∀ hd who g op s, isOurs s hd.dst = true → canAnswer s hd = true → hd.slice = s.rd FAB_SLICE →
    exec (.remoteRequest hd who g op) s =
      .next (present (.remote hd) { who := remoteRequester hd.src who, target := .addr g, op, cls := 2 } s)) ∧
  (∀ hd who g op s, isOurs s hd.dst = true → canAnswer s hd = true → hd.slice ≠ s.rd FAB_SLICE →
    exec (.remoteRequest hd who g op) s = .next (respondCode hd RSP_DENIED (sliceDrop s))) ∧
  (∀ hd who g op s, isOurs s hd.dst = false → hd.slice = s.rd FAB_SLICE → reachable s hd.dst = true → hd.hop < 2 →
    exec (.remoteRequest hd who g op) s = .next (sendPacket hd.dst none (.request (onward hd) who g op) s)) ∧
  (∀ hd r s p, isOurs s hd.dst = true → findPending s hd.tag = some p →
    exec (.remoteResponse hd r) s = .next (pumpFences (endRemote p r.code r.data (dropPending hd.tag s)))) ∧
  (∀ hd r s, isOurs s hd.dst = true → findPending s hd.tag = none → exec (.remoteResponse hd r) s = .next s) ∧
  (∀ hd r s, isOurs s hd.dst = false → hd.slice = s.rd FAB_SLICE → reachable s hd.dst = true → hd.hop < 2 →
    exec (.remoteResponse hd r) s = .next (sendPacket hd.dst none (.response (onward hd) r) s)) ∧
  (∀ tag s p, findPending s tag = some p →
    exec (.fabricTimeout tag) s = .next (pumpFences (endRemote p RSP_FABRIC []
      (((dropPending tag s).addSat FAB_TIMEOUTS 1).raise FAB_STATUS 5)))) ∧
  (∀ d s t, (s.route d).held = true → owesResponse s d = false →
    t = { s with fab := { s.fab with
      heldOut := s.fab.heldOut.filter (fun x => x.1 ≠ d),
      routes := tput s.fab.routes d { s.route d with held := false } {} } } → reachable t d = true →
    exec (.pathChangeRelease d) s =
      .next ((s.fab.heldOut.filter (fun x => x.1 = d)).foldl (fun (s : State) x => sendPacket d x.2.1 x.2.2 s) t)) ∧
  (∀ d s t, (s.route d).held = true → owesResponse s d = false →
    t = { s with fab := { s.fab with
      heldOut := s.fab.heldOut.filter (fun x => x.1 ≠ d),
      routes := tput s.fab.routes d { s.route d with held := false } {} } } → reachable t d = false →
    exec (.pathChangeRelease d) s = .next (pumpFences ((heldTags s d).foldl (fun (s : State) g => match findPending s g with
      | some p => endRemote p RSP_UNREACHABLE [] (dropPending g s)
      | none => s) t))) ∧
  (∀ hd x y q s k e, k = tileAt x y → e = (s.tile k).chanEntry (s.tile k).active q → isOurs s hd.dst = true → canAnswer s hd = true →
    hd.slice = s.rd FAB_SLICE → x ≤ 159 → y ≤ 79 → spansDevices s (podOf k) = true →
    (s.pod (podOf k)).inbound.find? (fun i => i.1 = inboundKey k q) = none → chMode e = MODE_INPUT →
    exec (.queueOpen hd x y q) s = .next (respond hd (fun a => .queueGrant a (chDepth e))
      (s.setPod (podOf k) { s.pod (podOf k) with
        inbound := tput (s.pod (podOf k)).inbound (inboundKey k q) (64 + hd.src % 64) 0 }))) ∧
  (∀ hd credits s d pod route g t, isOurs s hd.dst = true → findPending s hd.tag = some ⟨hd.tag, d, .queueOpen pod route, g⟩ →
    t = dropPending hd.tag s →
    exec (.queueGrant hd credits) s = .next (routePump pod route (t.setPod pod { t.pod pod with
      routes := tput (t.pod pod).routes route { tget (t.pod pod).routes route {} with
        granted := true, credits := credits, depth := credits } {} }))) ∧
  (∀ hd x y q d s k, k = tileAt x y → isOurs s hd.dst = true → canAnswer s hd = true → hd.slice = s.rd FAB_SLICE → x ≤ 159 → y ≤ 79 →
    spansDevices s (podOf k) = true → arrivalTrap (s.tile k) q = none →
    exec (.queueEntry hd x y q d) s = .next (respond hd (fun a => .queueAck a) (acceptEntry k q d s))) ∧
  (∀ hd pod route n s rc, isOurs s hd.dst = true → canAnswer s hd = true → hd.slice = s.rd FAB_SLICE → rc = tget (s.pod pod).routes route {} →
    rc.granted = true →
    exec (.queueCredit hd pod route n) s = .next (routePump pod route (respondCode hd RSP_OK
      (s.setPod pod { s.pod pod with routes := tput (s.pod pod).routes route { rc with credits := rc.credits + n } {} }))))

/-- R384 to R394, R399 and R436: twin pairs. The model's choices in it: log entries 100, 141, 143–147, 149, 150, 188,
217, 218 (the arm, acknowledgements, the header and marker of an epoch, takeovers and switches). -/
def Obligations.TwinEventsComplete : Prop :=
  (∀ ring s c t, ready 0x52 ring s c t → c.p 12 1 = 0 → exec (.twinArm ring) s = .next (c.done ST_OK 0 0 (disarm true t))) ∧
  (∀ ring s c t u, ready 0x52 ring s c t → c.p 12 1 = 1 → mirroring t = false → t.twin.armed = none →
    u = startRun (c.run (.arming true (t.rd TWIN_STATE) false))
      (sendTwin (.arm true (twinFuse t) (ifMajor t) (ifMinor t)) t) → mirroring u = false → u.twin.armed = none →
    exec (.twinArm ring) s = .next (u.wr TWIN_STATE 1)) ∧
  (∀ ring s c t hs left u, ready 0x53 ring s c t → t.rdB TWIN_ACTIVE = true → t.rd TWIN_STATE = 3 → hullCommands t = false →
    hs = (tkeys t.srv.hulls).filter (fun h => (t.hull h).live && (t.hull h).fault.isNone && !(t.hull h).awaiting) →
    left = hs.filter (fun h => !(t.hull h).drained) → u = startRun (c.run (.switching left hs)) t →
    exec (.twinSwitch ring) s = .next (if left = [] then finishSwitch (c.run (.switching left hs)) hs u
      else left.foldl (fun (s : State) h => beginQuiesce h (beginHalt h s)) u)) ∧
  (∀ b mj mn s, exec (.complementaryArm .disarm b mj mn) s = .next (disarm false s)) ∧
  (∀ a b mj mn s, a ≠ .disarm → armRun s = none → exec (.complementaryArm a b mj mn) s =
    .next { s with twin := { s.twin with armed := some (decide (a = .active), b, mj, mn) } }) ∧
  (∀ a b mj mn s r x w, a ≠ .disarm → armRun s = some r → r.kind = .arming x w false →
    exec (.complementaryArm a b mj mn) s = .next (pairUp r x (decide (a = .active), b, mj, mn) s)) ∧
  (∀ s r, armRun s = some r → exec .twinArmTimeout s = .next (failArm r ST_TWIN_NO_PARTNER 0 s)) ∧
  (∀ (hd : EpochHdr) body s, isStandby s = true → hd.kind = 2 →
    exec (.epochReceive hd body) s = .next ({ s with twin := { s.twin with
      staged := [{ hdr := hd, body := body }], snapEpoch := none, expect := hd.epoch + 1 } }.wr TWIN_STATE 2)) ∧
  (∀ (hd : EpochHdr) body s, isStandby s = true → hd.kind ≠ 2 → lacksSnapshot s = false → hd.epoch = s.twin.expect →
    exec (.epochReceive hd body) s = .next { s with twin := { s.twin with
      staged := s.twin.staged ++ [{ hdr := hd, body := body }], expect := hd.epoch + 1 } }) ∧
  (∀ n s e c t, isStandby s = true → lacksSnapshot s = false →
    s.twin.staged.find? (fun (e : Staged) => e.hdr.epoch = n && !e.marked) = some e → e.hdr.kind ≠ 2 →
    c.toNat = epochCrc e.hdr e.body →
    t = sendTwin (.ack n) { s with twin := { s.twin with staged := s.twin.staged.map (fun (x : Staged) =>
      if x.hdr.epoch = n then { x with marked := true } else x) } } →
    exec (.epochMarkerReceive n false c) s =
      .next (if t.rd TWIN_STATE = 3 then applyMarked t.twin.staged.length t else t)) ∧
  (∀ s n t, isStandby s = true → s.twin.snapEpoch = some n → t = { s with twin := { s.twin with snapEpoch := none } } →
    exec .snapshotApplied s =
      .next ((sendTwin (.ack n) (applyMarked t.twin.staged.length t)).wr TWIN_STATE 3)) ∧
  (∀ n s t, mirroring s = true → t = noteWait n (s.wr64 TWIN_ACKED (max n (s.rd64 TWIN_ACKED))) →
    t.twin.snapEpoch ≠ some n → exec (.epochAckReceive n) s = .next (releaseSteps t)) ∧
  (∀ n c s, mirroring s = true →
    exec (.newSnapshotRequest n c) s = .next (releaseSteps (sendSnapshot (twinResync n c s)))) ∧
  (∀ s t, s.rdB BOOT_READY = true → portUp s 16 = true → t = sendOn 16 none (.twin .heartbeat) s → portUp t 17 = false →
    exec .twinHeartbeatSend s = .next t) ∧
  (∀ s, (mirroring s = true → exec .twinHeartbeatTimeout s = .next (loseTwin s)) ∧
    (mirroring s = false → isStandby s = true → s.rd TWIN_STATE = 3 → s.twin.twaIn ≠ 1 →
      exec .twinHeartbeatTimeout s = .next (takeover s)) ∧
    (mirroring s = false → isStandby s = true → (s.rd TWIN_STATE ≠ 3 ∨ s.twin.twaIn = 1) →
      exec .twinHeartbeatTimeout s = .next (twinPark s))) ∧
  (∀ s t, t = { s with twin := { s.twin with seenTakeover := true } } →
    exec .takingOverAnnounce s = .next (if t.rd TWIN_STATE = 6 && twinFuse t then twinPark t else t)) ∧
  (∀ n s, s.pwr.reversed = false →
    (n < 5 → exec (.twaFault n) s = .next { s with twin := { s.twin with twaIn := n } }) ∧
    (5 ≤ n → exec (.twaFault n) s = .next ({ s with twin := { s.twin with twaIn := 0 } }.raise PWR_SB_STATUS 4))) ∧
  (∀ blocks s t u, isStandby s = true → s.rd TWIN_STATE = 3 → t = applyMarked s.twin.staged.length s →
    u = takeRings (blocks.foldl restoreBlocks t) →
    exec (.twinSwitchSaveBlocks blocks) s = .next (formAll (setTwa 1 ((State.wr64 { u with twin := { u.twin with
      nextEpoch := u.twin.expect, staged := [], rings := [], cq := [], outputs := [] } } TWIN_ACKED
        (u.twin.expect - 1)).wr TWIN_ACTIVE 1)))) ∧
  (∀ d s h t a b, s.fab.reports.any (fun u => u.standsFor = some d) = false → (s.rdB FAB_ALIAS_VALID = false ∨ s.rd FAB_ALIAS ≠ d) →
    (tkeys s.srv.hulls).filter (fun h => (s.hull h).live && (s.hull h).multi && (s.hull h).fault.isNone
      && (s.hull h).devices.contains d) = [h] →
    t = (hullRequests s h).foldl (fun (s : State) i => finishRuns (fun r => r.kind == .cancelling i) ST_NOTHING_TO_CANCEL 0
      (failRequest i ST_FABRIC_UNREACHABLE (some d) s)) s → a = t.fresh → b = a.2.fresh →
    exec (.hullPeerLoss d) s = .next (commandEpoch s (foreignFault h (b.1 ++ a.1) b.2)))

/-- R37: the fields of a global address. -/
def Obligations.GlobalAddressFields : Prop :=
  (∀ g : DWord, g.toNat = gDevice g * 2 ^ 58 + gSpace g * 2 ^ 56 + gOffset g ∧
    gDevice g < 64 ∧ gSpace g < 4 ∧ gOffset g < 2 ^ 56) ∧
  (∀ d sp off : Nat, d < 64 → sp < 4 → off < 2 ^ 56 →
    gDevice (BitVec.ofNat 64 (d * 2 ^ 58 + sp * 2 ^ 56 + off)) = d ∧
    gSpace (BitVec.ofNat 64 (d * 2 ^ 58 + sp * 2 ^ 56 + off)) = sp ∧
    gOffset (BitVec.ofNat 64 (d * 2 ^ 58 + sp * 2 ^ 56 + off)) = off) ∧
  (∀ s sp off, sp < 4 → off < 2 ^ 56 → gSpace (globalAddr s sp off) = sp ∧ gOffset (globalAddr s sp off) = off ∧
    gDevice (globalAddr s sp off) = s.ownId)

/-- R97: format 3 is INT8; a value of FP32 is a multiple of 2^-149. -/
def Obligations.Int8ProductExact : Prop :=
  ∀ a b sa sb : Nat, a < 256 → b < 256 →
    (-16256 ≤ signed a 8 * signed b 8 ∧ signed a 8 * signed b 8 ≤ 16384) ∧
    fpVal (planeProduct 3 a sa b sb) =
      .fin (decide (signed a 8 * signed b 8 < 0)) (signed a 8 * signed b 8 * 2 ^ 149)

/-- R111: the order of a cross-lane reduction. -/
def Obligations.CrossLaneTree : Prop :=
  (∀ (t : Tile) (w : Nat) (f : Word → Word → Word) (l : Nat → Nat → Word), wFn w < 3 →
    f = xlaneFn (wFn w) (bit (wImm w) 8) →
    (∀ i, l 0 i = (t.v (wA w)).getD i 0#32) →
    (∀ n i, l (n + 1) i = f (l n i) (l n (i + 16 / 2 ^ n))) →
    xlaneResult t w = List.replicate 32 (l 5 0)) ∧
  (∀ a b, xlaneFn 0 false a b = fpAddR false a b ∧ xlaneFn 1 false a b = fpMax a b ∧ xlaneFn 2 false a b = fpMin a b) ∧
  (∀ a b, xlaneFn 0 true a b = BitVec.ofNat 32 (a.toNat + b.toNat)) ∧
  (∀ k w s u, issueGate OP_VXLANE k s = .inr w → exec (.vxlane k) s = .next u → wDst w < 32 →
    (u.tile k).v (wDst w) = xlaneResult (s.tile k) w)

/-- R178: chunk numbers, index vectors and addresses. -/
def Obligations.ChunkOrderAndAddresses : Prop :=
  (∀ (d : Desc) (n : Nat), 1 ≤ d.dims → d.dims ≤ 6 → (∀ k, k < d.dims → 0 < d.count k) → n < d.chunks →
    (∀ k, k < d.dims → d.indexAt n k < d.count k) ∧
    n = d.dimList.foldl (fun m k => m + d.indexAt n k * (List.range k).foldl (fun p j => p * d.count j) 1) 0) ∧
  (∀ (d : Desc) (i : Nat → Nat), 1 ≤ d.dims → d.dims ≤ 6 → (∀ k, k < d.dims → i k < d.count k) →
    ∃ n, n < d.chunks ∧ ∀ k, k < d.dims → d.indexAt n k = i k) ∧
  (∀ (d : Desc) (n : Nat), d.tileAddr n =
    (d.tileStart : Int) + 64 * d.dimList.foldl (fun (a : Int) k => a + (d.indexAt n k : Int) * d.tileStride k) 0) ∧
  (∀ (d : Desc) (n : Nat), d.tkind ≠ 0 → d.target n = some (.addr (BitVec.ofNat 64 (wrap ((d.tierStart : Int) +
    64 * d.dimList.foldl (fun (a : Int) k => a + (d.indexAt n k : Int) * d.tierStride k) 0) 64)))) ∧
  (∀ (d : Desc) (n : Nat) (o : Int), d.tkind = 0 →
    o = (bits d.tierStart 20 44 : Int) + 64 * d.dimList.foldl (fun (a : Int) k => a + (d.indexAt n k : Int) * d.tierStride k) 0 →
    0 ≤ o → d.target n = some (.handle d.handle d.scale o.toNat))

/-- The register words as a store: what a write of a field does and what it leaves. -/
def Obligations.FieldLaws : Prop :=
  (∀ (s : State) (f : Fld) v, f.lo + f.w ≤ 32 → (s.wr f v).rd f = v % 2 ^ f.w) ∧
  (∀ (s : State) (f g : Fld) v, f.lo + f.w ≤ 32 → g.lo + g.w ≤ 32 →
    (g.off ≠ f.off ∨ g.lo + g.w ≤ f.lo ∨ f.lo + f.w ≤ g.lo) → (s.wr f v).rd g = s.rd g) ∧
  (∀ (s : State) off v, (s.wr64 off v).rd64 off = v % 2 ^ 64) ∧
  (∀ (s : State) off v o, o ≠ off → o ≠ off + 4 → (s.wr64 off v).word o = s.word o) ∧
  (∀ (s : State) (f : Fld) v, s.wr f v = { s with bar := (s.wr f v).bar })

/-- R16: the flags and their companion counters. -/
def Obligations.FlagSetWins : Prop :=
  (∀ (s : State) off b v, b < 32 → bit (regInfo off).w1c b = true → bit (regInfo off).rw b = false → bit v.toNat b = true →
    bit ((s.swWrite off v []).rd32 off) b = false) ∧
  (∀ (s : State) off b v, b < 32 → isFlag off b = true →
    bit ((s.swWrite off v [(off, b)]).rd32 off) b = true ∧
    ((s.swWrite off v [(off, b)]).companionOf off b).toNat = min ((s.companionOf off b).toNat + 1) 0xFFFF) ∧
  (∀ (s : State) off b o c, b < 32 → c < 32 → (o ≠ off ∨ c ≠ b) → (s.raise off b).companionOf o c = s.companionOf o c) ∧
  (∀ (s : State) off b, b < 32 → bit ((s.raise off b).rd32 off) b = true ∧
    ((s.raise off b).companionOf off b).toNat = min ((s.companionOf off b).toNat + 1) 0xFFFF ∧
    (∀ c, c < 32 → c ≠ b → bit ((s.raise off b).rd32 off) c = bit (s.rd32 off) c) ∧
    (∀ o, o ≠ off → (s.raise off b).word o = s.word o))

/-- R199, R211 and R212: the store that every write of a DRAM tier ends in. The model's choices in it: log entry 5 (what
a byte of a page that nothing has written reads as). -/
def Obligations.TierBytesLaw : Prop :=
  (∀ dT off data s a, off ≤ a → a < off + data.length →
    tget ((storeBytes dT off data s).mem dT) a 0#8 = data.getD (a - off) 0#8) ∧
  (∀ dT off data s a, (a < off ∨ off + data.length ≤ a) → (s.written dT (a / PAGE) = true ∨ a / PAGE ∉ pagesOf off data.length) →
    tget ((storeBytes dT off data s).mem dT) a 0#8 = tget (s.mem dT) a 0#8) ∧
  (∀ dT off data s, (storeBytes dT off data s).mem (!dT) = s.mem (!dT) ∧ (storeBytes dT off data s).flash = s.flash ∧
    (storeBytes dT off data s).tiles = s.tiles ∧ (storeBytes dT off data s).bar = s.bar) ∧
  (∀ dT off data s pg, pg ∈ pagesOf off data.length → (storeBytes dT off data s).written dT pg = true)

/-- The frame of VSTORE; the address is the one that its meaning computes. The model's choices in it: log entries 57, 65
(the address modulo 2^32, the trap). -/
def Obligations.VectorStoreFrame : Prop :=
  ∀ k waits w s u t, t = s.tile k → issueGate OP_VSTORE k s = .inr w → sramTrap t true (memOffset t w) 128 = none →
    exec (.vstore ⟨k, waits⟩) s = .next u →
    (∀ a, memOffset t w ≤ a → a < memOffset t w + 128 →
      tget (u.tile k).sram a 0#8 = (wordBytes (t.v (wB w))).getD (a - memOffset t w) 0#8) ∧
    (∀ a, (a < memOffset t w ∨ memOffset t w + 128 ≤ a) → tget (u.tile k).sram a 0#8 = tget t.sram a 0#8) ∧
    (∀ n, (u.tile k).s n = t.s n) ∧ (∀ r, (u.tile k).v r = t.v r) ∧ (u.tile k).queues = t.queues ∧
    (u.tile k).shell = t.shell ∧ (u.tile k).chans = t.chans ∧ (∀ j, j ≠ k → u.tile j = s.tile j) ∧
    u.tier = s.tier ∧ u.flash = s.flash

/-- The frame of the words that act on registers alone. The model's choices in it: log entries 57, 58, 60, 65
(addresses, the two pushes, overlapping VCVT registers, the trap). -/
def Obligations.RegisterWordsFrame : Prop :=
  (∀ (t : Tile) v, (t.setS 0 v).s 0 = 0#32 ∧ t.setS 0 v = t) ∧
  (∀ c k w s u t op, t = s.tile k → issueGate op k s = .inr w →
    ((c = .sop k ∧ op = OP_SOP) ∨ (c = .vint k ∧ op = OP_VINT) ∨ (c = .vfp k ∧ op = OP_VFP) ∨
      (c = .vxlane k ∧ op = OP_VXLANE) ∨ (c = .vsfu k ∧ op = OP_VSFU) ∨ (c = .repeatOp k ∧ op = OP_REPEAT)) →
    exec c s = .next u →
    (∀ n, (op ≠ OP_SOP ∨ n ≠ wDst w) → (u.tile k).s n = t.s n) ∧
    (∀ r, ((op ≠ OP_VINT ∧ op ≠ OP_VFP ∧ op ≠ OP_VXLANE) ∨ r ≠ wDst w) → (u.tile k).v r = t.v r) ∧
    (u.tile k).sram = t.sram ∧ (u.tile k).queues = t.queues ∧ (u.tile k).shell = t.shell ∧
    (u.tile k).chans = t.chans ∧ (∀ j, j ≠ k → u.tile j = s.tile j) ∧ u.pods = s.pods ∧ u.bar = s.bar ∧
    u.tier = s.tier ∧ u.flash = s.flash ∧ u.out = s.out) ∧
  (∀ k w s u t, t = s.tile k → issueGate OP_VCVT k s = .inr w → exec (.vcvt k) s = .next u →
    (∀ r, r ≠ wDst w → (u.tile k).v r = t.v r) ∧ (bit (wImm w) 4 = true → ∀ n, (u.tile k).s n = t.s n) ∧
    (∀ n, n ≠ wB w → n ≠ bits (wImm w) 8 6 → n ≠ bits (wImm w) 14 6 → (u.tile k).s n = t.s n) ∧
    (u.tile k).sram = t.sram ∧ (u.tile k).queues = t.queues ∧ (u.tile k).shell = t.shell ∧
    (u.tile k).chans = t.chans ∧ (∀ j, j ≠ k → u.tile j = s.tile j) ∧ u.pods = s.pods ∧
    (∀ o, o ≠ CVT_SAT (podOf k) → o ≠ CVT_SPECIAL (podOf k) → u.word o = s.word o) ∧
    u.tier = s.tier ∧ u.flash = s.flash ∧ u.out = s.out) ∧
  (∀ k waits w s u t, t = s.tile k → issueGate OP_VLOAD k s = .inr w → sramTrap t false (memOffset t w) 128 = none →
    exec (.vload ⟨k, waits⟩) s = .next u →
    (∀ r, r ≠ wDst w → (u.tile k).v r = t.v r) ∧ (∀ n, (u.tile k).s n = t.s n) ∧
    (u.tile k).sram = t.sram ∧ (u.tile k).queues = t.queues ∧ (u.tile k).shell = t.shell ∧
    (u.tile k).chans = t.chans ∧ (∀ j, j ≠ k → u.tile j = s.tile j) ∧ u.pods = s.pods ∧
    u.tier = s.tier ∧ u.flash = s.flash ∧ u.out = s.out) ∧
  (∀ k w s u t q bs t2 n, t = s.tile k → issueGate OP_VPOP k s = .inr w → q = bits (wImm w) 0 4 →
    popEntry t q = .ok (bs, t2, n) → exec (.vpop k) s = .next u →
    (∀ r, r ≠ wDst w → (u.tile k).v r = t.v r) ∧
    (∀ l, l < 16 → ((u.tile k).v (wDst w))[if bit (wImm w) 4 then l else l + 16]? =
      (t.v (wDst w))[if bit (wImm w) 4 then l else l + 16]?) ∧
    (∀ n, (u.tile k).s n = t.s n) ∧ (u.tile k).sram = t.sram ∧ (u.tile k).queues = t.queues ∧
    (u.tile k).shell = t.shell ∧ (∀ p, p ≠ q → (u.tile k).chan p = t.chan p) ∧ (∀ j, j ≠ k → u.tile j = s.tile j) ∧
    u.pods = s.pods ∧ u.tier = s.tier ∧ u.flash = s.flash ∧ u.out = s.out) ∧
  (∀ k w s u t q e c t1 t2, t = s.tile k → issueGate OP_VPUSH k s = .inr w → q = bits (wImm w) 0 4 →
    e = t.chanEntry t.active q → c = t.chan q →
    (if t.seq.pushed then .ok t else pushEntry (routeOk s (podOf k)) t q ((wordBytes (t.v (wA w))).take 64)) = .ok t1 →
    pushEntry (routeOk s (podOf k)) t1 q ((wordBytes (t.v (wA w))).drop 64) = .ok t2 →
    exec (.vpush k) s = .next u →
    (∀ r, (u.tile k).v r = t.v r) ∧ (∀ n, (u.tile k).s n = t.s n) ∧ (u.tile k).sram = t.sram ∧
    (u.tile k).shell = t.shell ∧ (∀ p, p ≠ q → (u.tile k).chan p = t.chan p) ∧
    (∀ a, (∀ i, i < 2 → a < entryOffset e c (c.count + i) ∨ entryOffset e c (c.count + i) + 64 ≤ a) →
      tget (u.tile k).queues a 0#8 = tget t.queues a 0#8) ∧ (∀ j, j ≠ k → u.tile j = s.tile j) ∧ u.pods = s.pods ∧
    u.bar = s.bar ∧ u.tier = s.tier ∧ u.flash = s.flash ∧ u.out = s.out)

/-- R312: the VF column of the map, and R303 for the serving block. The model's choices in it: log entries 123, 124, 214
(reserved offsets, which accesses are plain, no access without a link). -/
def Obligations.PrivateRegisters : Prop :=
  (∀ fn off s, linkLive s = true → visible s fn off = false → off % 4 = 0 →
    exec (.bar0LowHalfRead fn (.half off)) s = .next ((if isLow off
      then s.setLatch fn { held := true, off := off, high := barWord s fn (off + 4) }
      else if isHigh off && (s.latch fn).held && (s.latch fn).off + 4 = off then s.setLatch fn {} else s).emit (.readData fn off
        (if isLow off = false ∧ isHigh off = true ∧ (s.latch fn).held = true ∧ (s.latch fn).off + 4 = off
          then (s.latch fn).high.zeroExtend 64 else 0)))) ∧
  (∀ fn off s, linkLive s = true → isLow off = true → visible s fn off = false → visible s fn (off + 4) = false →
    exec (.bar0LowHalfRead fn (.whole off)) s = .next (s.emit (.readData fn off 0))) ∧
  (∀ fn off v s, linkLive s = true → visible s fn off = false → off % 4 = 0 →
    (reservedOff off = false → exec (.registerWrite (.pcie fn) off false v []) s = .next (accessViolation fn 0 4 off true s)) ∧
    (reservedOff off = true → exec (.registerWrite (.pcie fn) off false v []) s = .next s)) ∧
  (∀ s off, visible s 0 off = true) ∧
  (∀ s fn off, fn ≠ 0 → 0x1000 ≤ off → off < 0x1100 → visible s fn off = false)

/-- The frame of register reads. The model's choices in it: log entries 124, 214 (which accesses are plain, no access
without a link). -/
def Obligations.RegisterReadsFrame : Prop :=
  ∀ c fn off s, ((c = .bar0LowHalfRead fn (.whole off) ∧ isLow off = true) ∨
      ((c = .bar0LowHalfRead fn (.half off) ∨ c = .bar0HighHalfRead fn off) ∧ off % 4 = 0)) →
    (linkLive s = false → exec c s = .next s) ∧
    (linkLive s = true → ∃ u v l, exec c s = .next u ∧ u.out = s.out ++ [.readData fn off v] ∧
      u.host = { s.host with latches := l } ∧ (∀ g, g ≠ fn → u.latch g = s.latch g) ∧
      u.tiles = s.tiles ∧ u.pods = s.pods ∧ u.routers = s.routers ∧ u.srv = s.srv ∧ u.tier = s.tier ∧ u.flash = s.flash ∧
      u.sched = s.sched ∧ u.pwr = s.pwr ∧ u.boot = s.boot ∧ u.fab = s.fab ∧ u.twin = s.twin ∧ u.counter = s.counter ∧
      u.obs = s.obs ∧ u.free = s.free ∧ u.pending = s.pending ∧ (off ≠ 0x601FFC → u.bar = s.bar) ∧
      (∀ o, o ≠ EVR_CURSOR.off → u.word o = s.word o) ∧
      (∀ b, b < 32 → (b < EVR_CURSOR.lo ∨ EVR_CURSOR.lo + EVR_CURSOR.w ≤ b) →
        bit (u.rd32 EVR_CURSOR.off) b = bit (s.rd32 EVR_CURSOR.off) b))

/-- An invariant of the model's memories that every command keeps. The form itself is the model's representation. -/
def Obligations.MemoriesStayCanonical : Prop :=
  ∀ s t, memoriesWf s = true → step s = .next t → memoriesWf t = true

/-- Where the invariant starts. -/
def Obligations.ResetMemoriesCanonical : Prop :=
  memoriesWf State.reset = true ∧ State.reset.pending = [] ∧ State.reset.out = []

/-- The queue is first in, first out, and the order of what leaves the block never changes after the fact. The queue,
the record of what leaves and the count of free values are the model's own fields (log entries 7 and 8). The model's
choices in it: log entries 7, 8, 222 (the model's own fields, the counter at the end of its range). -/
def Obligations.StepKeepsOrder : Prop :=
  ∀ s t, step s = .next t → t.pending = s.pending.tail ∧ s.out <+: t.out ∧ s.free ≤ t.free ∧
    (s.pending.head? ≠ some .powerGood → s.counter.toNat ≤ t.counter.toNat)

/-- R6 for the identities of configuration space, R47 for tile registers and R272 for the values it states; the step
counter's value is the model's choice (log entry 4). The model's choices in it: log entries 3, 4 (the module as
shipped, values that the manual does not give). -/
def Obligations.ResetValues : Prop :=
  (∀ off, State.reset.word off = regReset off) ∧
  (∀ k n, (State.reset.tile k).s n = 0#32 ∧ tget (State.reset.tile k).sram n 0#8 = 0#8) ∧
  (∀ k r, (State.reset.tile k).v r = List.replicate 32 0#32) ∧
  (∀ p, State.reset.podOwner p = none) ∧ (∀ h, (State.reset.hull h).live = false) ∧ State.reset.counter = 0 ∧
  State.reset.rd32 0x700108 = 18770 ∧ State.reset.rd32 0x700148 = 24160 ∧ State.reset.rd32 0x700188 = 870000 ∧
  State.reset.rd32 0x7001C8 = 92 ∧ State.reset.rd ⟨0x700100, 0, 6⟩ = 32 ∧
  (∀ f, f = State.reset.host.cfg.pf ∨ f = State.reset.host.cfg.vf →
    f.vendorId = 0x1F6B ∧ f.classCode = 0x120000 ∧ f.revisionId = 0x11) ∧
  State.reset.host.cfg.pf.deviceId = 0x2640 ∧ State.reset.host.cfg.vf.deviceId = 0x2641
end

