-- ==== Sys2Proof/Laws/Crc.lean ====
section
/-! SUPPORT. The CRCs as folds that evaluate byte by byte, for records and flits (R137, R154, R365). -/

namespace Sys2Proof.Machine

/-- A fold over bytes that evaluates its accumulator at every byte. -/
def strictFold (f : Nat → Byte → Nat) : List Byte → Nat → Nat
  | [], c => c
  | b :: bs, 0 => strictFold f bs (f 0 b)
  | b :: bs, c + 1 => strictFold f bs (f (c + 1) b)

theorem strictFold_eq (f : Nat → Byte → Nat) (bs : List Byte) (c : Nat) : strictFold f bs c = bs.foldl f c := by
  induction bs generalizing c with
  | nil => rfl
  | cons b bs ih => cases c <;> exact ih _

theorem crc32_eq_strict (bs : List Byte) : crc32 bs = strictFold (crcByte 0xEDB88320) bs 0xFFFFFFFF ^^^ 0xFFFFFFFF := by
  rw [strictFold_eq, crc32]

theorem crc64_eq_strict (bs : List Byte) : crc64 bs =
    strictFold (fun c b => (List.range 8).foldl (fun c _ => crc64Bit c) (c ^^^ (b.toNat * 2 ^ 56))) bs 0 := by
  rw [strictFold_eq, crc64]

end Sys2Proof.Machine
end

