-- ==== Sys2Proof/Laws/Exec.lean ====
section
/-! SUPPORT. One equation per command: exec of it is its meaning. -/

namespace Sys2Proof.Machine

theorem exec_nop (ring : Nat) (s : State) :
    exec (.nop ring) s = execNop ring s := rfl
theorem exec_hello (ring : Nat) (s : State) :
    exec (.hello ring) s = execHello ring s := rfl
theorem exec_queryDevice (ring : Nat) (s : State) :
    exec (.queryDevice ring) s = execQueryDevice ring s := rfl
theorem exec_queryRequest (ring : Nat) (s : State) :
    exec (.queryRequest ring) s = execQueryRequest ring s := rfl
theorem exec_tenantBind (ring : Nat) (s : State) :
    exec (.tenantBind ring) s = execTenantBind ring s := rfl
theorem exec_tenantUnbind (ring : Nat) (s : State) :
    exec (.tenantUnbind ring) s = execTenantUnbind ring s := rfl
theorem exec_budgetSet (ring : Nat) (s : State) :
    exec (.budgetSet ring) s = execBudgetSet ring s := rfl
theorem exec_budgetQuery (ring : Nat) (s : State) :
    exec (.budgetQuery ring) s = execBudgetQuery ring s := rfl
theorem exec_hullCreate (ring : Nat) (s : State) :
    exec (.hullCreate ring) s = execHullCreate ring s := rfl
theorem exec_hullResize (ring : Nat) (s : State) :
    exec (.hullResize ring) s = execHullResize ring s := rfl
theorem exec_hullDestroy (ring : Nat) (s : State) :
    exec (.hullDestroy ring) s = execHullDestroy ring s := rfl
theorem exec_hullDrain (ring : Nat) (s : State) :
    exec (.hullDrain ring) s = execHullDrain ring s := rfl
theorem exec_hullRestore (ring : Nat) (s : State) :
    exec (.hullRestore ring) s = execHullRestore ring s := rfl
theorem exec_shellLoad (ring : Nat) (s : State) :
    exec (.shellLoad ring) s = execShellLoad ring s := rfl
theorem exec_shellSelect (ring : Nat) (s : State) :
    exec (.shellSelect ring) s = execShellSelect ring s := rfl
theorem exec_tensorDefine (ring : Nat) (s : State) :
    exec (.tensorDefine ring) s = execTensorDefine ring s := rfl
theorem exec_tensorWrite (ring : Nat) (s : State) :
    exec (.tensorWrite ring) s = execTensorWrite ring s := rfl
theorem exec_tensorRead (ring : Nat) (s : State) :
    exec (.tensorRead ring) s = execTensorRead ring s := rfl
theorem exec_tensorFree (ring : Nat) (s : State) :
    exec (.tensorFree ring) s = execTensorFree ring s := rfl
theorem exec_tensorClass (ring : Nat) (s : State) :
    exec (.tensorClass ring) s = execTensorClass ring s := rfl
theorem exec_variantLoad (ring : Nat) (s : State) :
    exec (.variantLoad ring) s = execVariantLoad ring s := rfl
theorem exec_variantArchive (ring : Nat) (s : State) :
    exec (.variantArchive ring) s = execVariantArchive ring s := rfl
theorem exec_baseInstall (ring : Nat) (s : State) :
    exec (.baseInstall ring) s = execBaseInstall ring s := rfl
theorem exec_baseStage (ring : Nat) (s : State) :
    exec (.baseStage ring) s = execBaseStage ring s := rfl
theorem exec_runGraph (ring : Nat) (s : State) :
    exec (.runGraph ring) s = execRunGraph ring s := rfl
theorem exec_generate (ring : Nat) (s : State) :
    exec (.generate ring) s = execGenerate ring s := rfl
theorem exec_cancel (ring : Nat) (s : State) :
    exec (.cancel ring) s = execCancel ring s := rfl
theorem exec_fence (ring : Nat) (s : State) :
    exec (.fence ring) s = execFence ring s := rfl
theorem exec_cycleTableWrite (ring : Nat) (s : State) :
    exec (.cycleTableWrite ring) s = execCycleTableWrite ring s := rfl
theorem exec_cycleTableArm (ring : Nat) (s : State) :
    exec (.cycleTableArm ring) s = execCycleTableArm ring s := rfl
theorem exec_prioritySet (ring : Nat) (s : State) :
    exec (.prioritySet ring) s = execPrioritySet ring s := rfl
theorem exec_sliceSet (ring : Nat) (s : State) :
    exec (.sliceSet ring) s = execSliceSet ring s := rfl
theorem exec_routeQuery (ring : Nat) (s : State) :
    exec (.routeQuery ring) s = execRouteQuery ring s := rfl
theorem exec_twinArm (ring : Nat) (s : State) :
    exec (.twinArm ring) s = execTwinArm ring s := rfl
theorem exec_twinSwitch (ring : Nat) (s : State) :
    exec (.twinSwitch ring) s = execTwinSwitch ring s := rfl
theorem exec_counterSync (ring : Nat) (s : State) :
    exec (.counterSync ring) s = execCounterSync ring s := rfl
theorem exec_recorderArm (ring : Nat) (s : State) :
    exec (.recorderArm ring) s = execRecorderArm ring s := rfl
theorem exec_recorderClear (ring : Nat) (s : State) :
    exec (.recorderClear ring) s = execRecorderClear ring s := rfl
theorem exec_traceMask (ring : Nat) (s : State) :
    exec (.traceMask ring) s = execTraceMask ring s := rfl
theorem exec_sampleStart (ring : Nat) (s : State) :
    exec (.sampleStart ring) s = execSampleStart ring s := rfl
theorem exec_sampleStop (ring : Nat) (s : State) :
    exec (.sampleStop ring) s = execSampleStop ring s := rfl
theorem exec_telemetryRead (ring : Nat) (s : State) :
    exec (.telemetryRead ring) s = execTelemetryRead ring s := rfl
theorem exec_powerPolicy (ring : Nat) (s : State) :
    exec (.powerPolicy ring) s = execPowerPolicy ring s := rfl
theorem exec_rampSet (ring : Nat) (s : State) :
    exec (.rampSet ring) s = execRampSet ring s := rfl
theorem exec_lifecycleAdvance (ring : Nat) (s : State) :
    exec (.lifecycleAdvance ring) s = execLifecycleAdvance ring s := rfl
theorem exec_wipe (ring : Nat) (s : State) :
    exec (.wipe ring) s = execWipe ring s := rfl
theorem exec_firmwareStage (ring : Nat) (s : State) :
    exec (.firmwareStage ring) s = execFirmwareStage ring s := rfl
theorem exec_firmwareActivate (ring : Nat) (s : State) :
    exec (.firmwareActivate ring) s = execFirmwareActivate ring s := rfl
theorem exec_sqDoorbell (fn ring off : Nat) (access : BellAccess) (s : State) :
    exec (.sqDoorbell fn ring off access) s = execSqDoorbell fn ring off access s := rfl
theorem exec_cqDoorbell (fn ring off : Nat) (access : BellAccess) (s : State) :
    exec (.cqDoorbell fn ring off access) s = execCqDoorbell fn ring off access s := rfl
theorem exec_ringEnable (fn ring : Nat) (value : Word) (s : State) :
    exec (.ringEnable fn ring value) s = execRingEnable fn ring value s := rfl
theorem exec_ringDisable (fn ring : Nat) (value : Word) (s : State) :
    exec (.ringDisable fn ring value) s = execRingDisable fn ring value s := rfl
theorem exec_sqFetch (ring : Nat) (data : SqRead) (s : State) :
    exec (.sqFetch ring data) s = execSqFetch ring data s := rfl
theorem exec_interruptCoalesceTimeout (ring : Nat) (s : State) :
    exec (.interruptCoalesceTimeout ring) s = execInterruptCoalesceTimeout ring s := rfl
theorem exec_msixVectorUnmask (fn vector : Nat) (s : State) :
    exec (.msixVectorUnmask fn vector) s = execMsixVectorUnmask fn vector s := rfl
theorem exec_vfFlr (fn : Nat) (s : State) :
    exec (.vfFlr fn) s = execVfFlr fn s := rfl
theorem exec_pfFlr (s : State) :
    exec (.pfFlr) s = execPfFlr s := rfl
theorem exec_bdpWindowWrite (fn chan off : Nat) (data : List Byte) (poisoned : Bool) (s : State) :
    exec (.bdpWindowWrite fn chan off data poisoned) s = execBdpWindowWrite fn chan off data poisoned s := rfl
theorem exec_bdpWindowRead (fn chan off len : Nat) (s : State) :
    exec (.bdpWindowRead fn chan off len) s = execBdpWindowRead fn chan off len s := rfl
theorem exec_bdpBufferDrain (chan : Nat) (s : State) :
    exec (.bdpBufferDrain chan) s = execBdpBufferDrain chan s := rfl
theorem exec_devCtrSelWrite (fn : Nat) (value : Word) (s : State) :
    exec (.devCtrSelWrite fn value) s = execDevCtrSelWrite fn value s := rfl
theorem exec_counterClear (fn : Nat) (sameCycle : Bool) (s : State) :
    exec (.counterClear fn sameCycle) s = execCounterClear fn sameCycle s := rfl
theorem exec_counterClearAll (fn : Nat) (s : State) :
    exec (.counterClearAll fn) s = execCounterClearAll fn s := rfl
theorem exec_cxlDecoderCommit (base : Nat) (s : State) :
    exec (.cxlDecoderCommit base) s = execCxlDecoderCommit base s := rfl
theorem exec_cxlDecoderDecommit (s : State) :
    exec (.cxlDecoderDecommit) s = execCxlDecoderDecommit s := rfl
theorem exec_cxlMemRead (hpa len : Nat) (s : State) :
    exec (.cxlMemRead hpa len) s = execCxlMemRead hpa len s := rfl
theorem exec_cxlMemWrite (hpa : Nat) (data : List Byte) (s : State) :
    exec (.cxlMemWrite hpa data) s = execCxlMemWrite hpa data s := rfl
theorem exec_bar0LowHalfRead (fn : Nat) (read : BarRead) (s : State) :
    exec (.bar0LowHalfRead fn read) s = execBar0LowHalfRead fn read s := rfl
theorem exec_bar0HighHalfRead (fn off : Nat) (s : State) :
    exec (.bar0HighHalfRead fn off) s = execBar0HighHalfRead fn off s := rfl
theorem exec_bar0LowHalfWrite (fn off : Nat) (value : Word) (s : State) :
    exec (.bar0LowHalfWrite fn off value) s = execBar0LowHalfWrite fn off value s := rfl
theorem exec_bar0HighHalfWrite (fn off : Nat) (value : Word) (s : State) :
    exec (.bar0HighHalfWrite fn off value) s = execBar0HighHalfWrite fn off value s := rfl
theorem exec_bar0BadAccess (fn off width : Nat) (write : Bool) (s : State) :
    exec (.bar0BadAccess fn off width write) s = execBar0BadAccess fn off width write s := rfl
theorem exec_registerWrite (agent : Agent) (off : Nat) (wide : Bool) (value : DWord) (setNow : List (Nat × Nat)) (s : State) :
    exec (.registerWrite agent off wide value setNow) s = execRegisterWrite agent off wide value setNow s := rfl
theorem exec_heatLookupWrite (fn : Nat) (value : Word) (s : State) :
    exec (.heatLookupWrite fn value) s = execHeatLookupWrite fn value s := rfl
theorem exec_ftBlkSelWrite (fn : Nat) (value : Word) (s : State) :
    exec (.ftBlkSelWrite fn value) s = execFtBlkSelWrite fn value s := rfl
theorem exec_fabInstallCommit (fn : Nat) (value : Word) (s : State) :
    exec (.fabInstallCommit fn value) s = execFabInstallCommit fn value s := rfl
theorem exec_evrWindowAutoRead (fn : Nat) (s : State) :
    exec (.evrWindowAutoRead fn) s = execEvrWindowAutoRead fn s := rfl
theorem exec_logEnable (fn : Nat) (s : State) :
    exec (.logEnable fn) s = execLogEnable fn s := rfl
theorem exec_logTailWrite (fn : Nat) (value : Word) (s : State) :
    exec (.logTailWrite fn value) s = execLogTailWrite fn value s := rfl
theorem exec_logEntryWrite (failed : Bool) (s : State) :
    exec (.logEntryWrite failed) s = execLogEntryWrite failed s := rfl
theorem exec_spdmRequest (req : SpdmReq) (s : State) :
    exec (.spdmRequest req) s = execSpdmRequest req s := rfl
theorem exec_i3cRead (off : Nat) (s : State) :
    exec (.i3cRead off) s = execI3cRead off s := rfl
theorem exec_boundaryScanInstruction (instr : TapInstr) (s : State) :
    exec (.boundaryScanInstruction instr) s = execBoundaryScanInstruction instr s := rfl
theorem exec_streamStop (pod eng : Nat) (s : State) :
    exec (.streamStop pod eng) s = execStreamStop pod eng s := rfl
theorem exec_quiescenceReached (hull : Nat) (s : State) :
    exec (.quiescenceReached hull) s = execQuiescenceReached hull s := rfl
theorem exec_shellLoadDone (pod : Nat) (s : State) :
    exec (.shellLoadDone pod) s = execShellLoadDone pod s := rfl
theorem exec_scanOutDone (pod : Nat) (s : State) :
    exec (.scanOutDone pod) s = execScanOutDone pod s := rfl
theorem exec_scanInDone (pod : Nat) (s : State) :
    exec (.scanInDone pod) s = execScanInDone pod s := rfl
theorem exec_endOp (tile : Nat) (s : State) :
    exec (.endOp tile) s = execEndOp tile s := rfl
theorem exec_repeatOp (tile : Nat) (s : State) :
    exec (.repeatOp tile) s = execRepeatOp tile s := rfl
theorem exec_waitOp (tile : Nat) (s : State) :
    exec (.waitOp tile) s = execWaitOp tile s := rfl
theorem exec_inGraphFence (tile : Nat) (s : State) :
    exec (.inGraphFence tile) s = execInGraphFence tile s := rfl
theorem exec_planeRun (op : BankedOp) (s : State) :
    exec (.planeRun op) s = execPlaneRun op s := rfl
theorem exec_streamOp (tile : Nat) (s : State) :
    exec (.streamOp tile) s = execStreamOp tile s := rfl
theorem exec_sop (tile : Nat) (s : State) :
    exec (.sop tile) s = execSop tile s := rfl
theorem exec_vint (tile : Nat) (s : State) :
    exec (.vint tile) s = execVint tile s := rfl
theorem exec_vfp (tile : Nat) (s : State) :
    exec (.vfp tile) s = execVfp tile s := rfl
theorem exec_vxlane (tile : Nat) (s : State) :
    exec (.vxlane tile) s = execVxlane tile s := rfl
theorem exec_vcvt (tile : Nat) (s : State) :
    exec (.vcvt tile) s = execVcvt tile s := rfl
theorem exec_vload (op : BankedOp) (s : State) :
    exec (.vload op) s = execVload op s := rfl
theorem exec_vstore (op : BankedOp) (s : State) :
    exec (.vstore op) s = execVstore op s := rfl
theorem exec_vpush (tile : Nat) (s : State) :
    exec (.vpush tile) s = execVpush tile s := rfl
theorem exec_vpop (tile : Nat) (s : State) :
    exec (.vpop tile) s = execVpop tile s := rfl
theorem exec_vsfu (tile : Nat) (s : State) :
    exec (.vsfu tile) s = execVsfu tile s := rfl
theorem exec_hullFaultHandling (hull : Nat) (s : State) :
    exec (.hullFaultHandling hull) s = execHullFaultHandling hull s := rfl
theorem exec_stepStart (hull : Nat) (s : State) :
    exec (.stepStart hull) s = execStepStart hull s := rfl
theorem exec_stepBoundaryReached (tile : Nat) (s : State) :
    exec (.stepBoundaryReached tile) s = execStepBoundaryReached tile s := rfl
theorem exec_queueEntrySend (tile q : Nat) (s : State) :
    exec (.queueEntrySend tile q) s = execQueueEntrySend tile q s := rfl
theorem exec_creditReturnSend (tile q : Nat) (s : State) :
    exec (.creditReturnSend tile q) s = execCreditReturnSend tile q s := rfl
theorem exec_meshFlitForward (x y : Nat) (port : RouterOutput) (errors : FlitErrors) (s : State) :
    exec (.meshFlitForward x y port errors) s = execMeshFlitForward x y port errors s := rfl
theorem exec_dataFlitArrive (tile : Nat) (s : State) :
    exec (.dataFlitArrive tile) s = execDataFlitArrive tile s := rfl
theorem exec_creditFlitArrive (tile : Nat) (s : State) :
    exec (.creditFlitArrive tile) s = execCreditFlitArrive tile s := rfl
theorem exec_sfuGrant (pod k : Nat) (s : State) :
    exec (.sfuGrant pod k) s = execSfuGrant pod k s := rfl
theorem exec_sfuResultWrite (tile : Nat) (s : State) :
    exec (.sfuResultWrite tile) s = execSfuResultWrite tile s := rfl
theorem exec_stall (hull : Nat) (s : State) :
    exec (.stall hull) s = execStall hull s := rfl
theorem exec_chunkIssue (pod eng : Nat) (s : State) :
    exec (.chunkIssue pod eng) s = execChunkIssue pod eng s := rfl
theorem exec_streamResume (engine : EngineAt) (cycles : Nat) (s : State) :
    exec (.streamResume engine cycles) s = execStreamResume engine cycles s := rfl
theorem exec_chunkResponse (pod eng : Nat) (s : State) :
    exec (.chunkResponse pod eng) s = execChunkResponse pod eng s := rfl
theorem exec_descriptorComplete (pod eng : Nat) (s : State) :
    exec (.descriptorComplete pod eng) s = execDescriptorComplete pod eng s := rfl
theorem exec_tierAccess (src : AccessSrc) (s : State) :
    exec (.tierAccess src) s = execTierAccess src s := rfl
theorem exec_arbiterGrant (res : Resource) (unit waited service : Nat) (cause : BlockCause) (s : State) :
    exec (.arbiterGrant res unit waited service cause) s = execArbiterGrant res unit waited service cause s := rfl
theorem exec_tierAccessEnd (id : Nat) (s : State) :
    exec (.tierAccessEnd id) s = execTierAccessEnd id s := rfl
theorem exec_ceWriteback (place : GranuleAt) (service : Nat) (s : State) :
    exec (.ceWriteback place service) s = execCeWriteback place service s := rfl
theorem exec_recoveryComplete (id : Nat) (ok : Bool) (s : State) :
    exec (.recoveryComplete id ok) s = execRecoveryComplete id ok s := rfl
theorem exec_accessDeadlineExpiry (due : DueAccess) (s : State) :
    exec (.accessDeadlineExpiry due) s = execAccessDeadlineExpiry due s := rfl
theorem exec_perBankRefresh (dTier : Bool) (unit bank : Nat) (s : State) :
    exec (.perBankRefresh dTier unit bank) s = execPerBankRefresh dTier unit bank s := rfl
theorem exec_calibrationWindow (place : UnitAt) (ns : Nat) (s : State) :
    exec (.calibrationWindow place ns) s = execCalibrationWindow place ns s := rfl
theorem exec_calOverdue (dTier : Bool) (unit : Nat) (s : State) :
    exec (.calOverdue dTier unit) s = execCalOverdue dTier unit s := rfl
theorem exec_scrubRead (place : GranuleAt) (service : Nat) (s : State) :
    exec (.scrubRead place service) s = execScrubRead place service s := rfl
theorem exec_frameBoundary (s : State) :
    exec (.frameBoundary) s = execFrameBoundary s := rfl
theorem exec_slotBoundary (s : State) :
    exec (.slotBoundary) s = execSlotBoundary s := rfl
theorem exec_promotionStart (handle : Nat) (s : State) :
    exec (.promotionStart handle) s = execPromotionStart handle s := rfl
theorem exec_moveComplete (fate : MoveEnd) (s : State) :
    exec (.moveComplete fate) s = execMoveComplete fate s := rfl
theorem exec_ftChunkRead (chunk : Nat) (codewords : List Codeword) (s : State) :
    exec (.ftChunkRead chunk codewords) s = execFtChunkRead chunk codewords s := rfl
theorem exec_ftProgramDone (failed : List Nat) (s : State) :
    exec (.ftProgramDone failed) s = execFtProgramDone failed s := rfl
theorem exec_ftEraseDone (place : BlockAt) (ok : Bool) (service : Nat) (s : State) :
    exec (.ftEraseDone place ok service) s = execFtEraseDone place ok service s := rfl
theorem exec_ftScrub (place : BlockAt) (retryMean32 maxBits service : Nat) (s : State) :
    exec (.ftScrub place retryMean32 maxBits service) s = execFtScrub place retryMean32 maxBits service s := rfl
theorem exec_blockRelocationDone (work : ChannelWork) (s : State) :
    exec (.blockRelocationDone work) s = execBlockRelocationDone work s := rfl
theorem exec_compaction (s : State) :
    exec (.compaction) s = execCompaction s := rfl
theorem exec_staticLevelling (channel : Nat) (s : State) :
    exec (.staticLevelling channel) s = execStaticLevelling channel s := rfl
theorem exec_ftChannelFailure (channel : Nat) (s : State) :
    exec (.ftChannelFailure channel) s = execFtChannelFailure channel s := rfl
theorem exec_boundaryReport (hull : Nat) (report : PartReport) (s : State) :
    exec (.boundaryReport hull report) s = execBoundaryReport hull report s := rfl
theorem exec_stepCommit (hull : Nat) (s : State) :
    exec (.stepCommit hull) s = execStepCommit hull s := rfl
theorem exec_startNotice (hull : Nat) (plan : StepPlan) (s : State) :
    exec (.startNotice hull plan) s = execStartNotice hull plan s := rfl
theorem exec_emitEntry (pod : Nat) (s : State) :
    exec (.emitEntry pod) s = execEmitEntry pod s := rfl
theorem exec_servingPortEntry (pod port : Nat) (s : State) :
    exec (.servingPortEntry pod port) s = execServingPortEntry pod port s := rfl
theorem exec_expertDispatch (hull : Nat) (halfB : Bool) (s : State) :
    exec (.expertDispatch hull halfB) s = execExpertDispatch hull halfB s := rfl
theorem exec_kvAdmission (hull : Nat) (s : State) :
    exec (.kvAdmission hull) s = execKvAdmission hull s := rfl
theorem exec_fabricFlitReceive (port : Nat) (flit : BitVec 4352) (s : State) :
    exec (.fabricFlitReceive port flit) s = execFabricFlitReceive port flit s := rfl
theorem exec_ackTimer (port : Nat) (s : State) :
    exec (.ackTimer port) s = execAckTimer port s := rfl
theorem exec_laneLockLoss (port lane : Nat) (s : State) :
    exec (.laneLockLoss port lane) s = execLaneLockLoss port lane s := rfl
theorem exec_laneRetrain (port lane : Nat) (clean : Bool) (s : State) :
    exec (.laneRetrain port lane clean) s = execLaneRetrain port lane clean s := rfl
theorem exec_portDetect (port : Nat) (seen : Detected) (s : State) :
    exec (.portDetect port seen) s = execPortDetect port seen s := rfl
theorem exec_portTrainingDone (port : Nat) (result : Training) (s : State) :
    exec (.portTrainingDone port result) s = execPortTrainingDone port result s := rfl
theorem exec_peerCheck (port : Nat) (peer : PeerInfo) (s : State) :
    exec (.peerCheck port peer) s = execPeerCheck port peer s := rfl
theorem exec_linkRetrainTimer (port : Nat) (s : State) :
    exec (.linkRetrainTimer port) s = execLinkRetrainTimer port s := rfl
theorem exec_crossedRecheck (port : Nat) (gone : Bool) (s : State) :
    exec (.crossedRecheck port gone) s = execCrossedRecheck port gone s := rfl
theorem exec_cableRemoved (port : Nat) (s : State) :
    exec (.cableRemoved port) s = execCableRemoved port s := rfl
theorem exec_linkDownDetect (port : Nat) (s : State) :
    exec (.linkDownDetect port) s = execLinkDownDetect port s := rfl
theorem exec_routeUpdate (u : RouteUpdate) (s : State) :
    exec (.routeUpdate u) s = execRouteUpdate u s := rfl
theorem exec_pathChangeRelease (dest : Nat) (s : State) :
    exec (.pathChangeRelease dest) s = execPathChangeRelease dest s := rfl
theorem exec_remoteRequest (hdr : PktHdr) (who : RemoteWho) (g : DWord) (op : TierOp) (s : State) :
    exec (.remoteRequest hdr who g op) s = execRemoteRequest hdr who g op s := rfl
theorem exec_remoteResponse (hdr : PktHdr) (rsp : Rsp) (s : State) :
    exec (.remoteResponse hdr rsp) s = execRemoteResponse hdr rsp s := rfl
theorem exec_fabricTimeout (tag : Nat) (s : State) :
    exec (.fabricTimeout tag) s = execFabricTimeout tag s := rfl
theorem exec_queueOpen (hdr : PktHdr) (x y q : Nat) (s : State) :
    exec (.queueOpen hdr x y q) s = execQueueOpen hdr x y q s := rfl
theorem exec_queueGrant (hdr : PktHdr) (credits : Nat) (s : State) :
    exec (.queueGrant hdr credits) s = execQueueGrant hdr credits s := rfl
theorem exec_queueEntry (hdr : PktHdr) (x y q : Nat) (data : BitVec 512) (s : State) :
    exec (.queueEntry hdr x y q data) s = execQueueEntry hdr x y q data s := rfl
theorem exec_queueCredit (hdr : PktHdr) (pod route credits : Nat) (s : State) :
    exec (.queueCredit hdr pod route credits) s = execQueueCredit hdr pod route credits s := rfl
theorem exec_faultNotice (n : FaultNote) (s : State) :
    exec (.faultNotice n) s = execFaultNotice n s := rfl
theorem exec_timestampExchange (x : TimeExchange) (s : State) :
    exec (.timestampExchange x) s = execTimestampExchange x s := rfl
theorem exec_twinHeartbeatSend (s : State) :
    exec (.twinHeartbeatSend) s = execTwinHeartbeatSend s := rfl
theorem exec_twinHeartbeatTimeout (s : State) :
    exec (.twinHeartbeatTimeout) s = execTwinHeartbeatTimeout s := rfl
theorem exec_takingOverAnnounce (s : State) :
    exec (.takingOverAnnounce) s = execTakingOverAnnounce s := rfl
theorem exec_epochReceive (hdr : EpochHdr) (body : List MirrorRec) (s : State) :
    exec (.epochReceive hdr body) s = execEpochReceive hdr body s := rfl
theorem exec_epochMarkerReceive (epoch : Nat) (abort : Bool) (crc : DWord) (s : State) :
    exec (.epochMarkerReceive epoch abort crc) s = execEpochMarkerReceive epoch abort crc s := rfl
theorem exec_epochAckReceive (epoch : Nat) (s : State) :
    exec (.epochAckReceive epoch) s = execEpochAckReceive epoch s := rfl
theorem exec_snapshotApplied (s : State) :
    exec (.snapshotApplied) s = execSnapshotApplied s := rfl
theorem exec_twinArmTimeout (s : State) :
    exec (.twinArmTimeout) s = execTwinArmTimeout s := rfl
theorem exec_twaFault (code : Nat) (s : State) :
    exec (.twaFault code) s = execTwaFault code s := rfl
theorem exec_hullPeerLoss (dev : Nat) (s : State) :
    exec (.hullPeerLoss dev) s = execHullPeerLoss dev s := rfl
theorem exec_powerGood (s : State) :
    exec (.powerGood) s = execPowerGood s := rfl
theorem exec_inputUndervoltage (s : State) :
    exec (.inputUndervoltage) s = execInputUndervoltage s := rfl
theorem exec_inputOutOfRange (s : State) :
    exec (.inputOutOfRange) s = execInputOutOfRange s := rfl
theorem exec_perstAssert (s : State) :
    exec (.perstAssert) s = execPerstAssert s := rfl
theorem exec_hotReset (s : State) :
    exec (.hotReset) s = execHotReset s := rfl
theorem exec_pcieLinkDown (s : State) :
    exec (.pcieLinkDown) s = execPcieLinkDown s := rfl
theorem exec_mgmtWatchdogExpiry (s : State) :
    exec (.mgmtWatchdogExpiry) s = execMgmtWatchdogExpiry s := rfl
theorem exec_resetReq (s : State) :
    exec (.resetReq) s = execResetReq s := rfl
theorem exec_tripRecovery (s : State) :
    exec (.tripRecovery) s = execTripRecovery s := rfl
theorem exec_imageVerify (s : State) :
    exec (.imageVerify) s = execImageVerify s := rfl
theorem exec_huskStart (s : State) :
    exec (.huskStart) s = execHuskStart s := rfl
theorem exec_systemLoad (s : State) :
    exec (.systemLoad) s = execSystemLoad s := rfl
theorem exec_dramTrain (s : State) :
    exec (.dramTrain) s = execDramTrain s := rfl
theorem exec_bootWipe (s : State) :
    exec (.bootWipe) s = execBootWipe s := rfl
theorem exec_tensorRegistration (s : State) :
    exec (.tensorRegistration) s = execTensorRegistration s := rfl
theorem exec_bootReady (s : State) :
    exec (.bootReady) s = execBootReady s := rfl
theorem exec_guardianSample (g : GuardSample) (s : State) :
    exec (.guardianSample g) s = execGuardianSample g s := rfl
theorem exec_guardianRestore (pod : Nat) (s : State) :
    exec (.guardianRestore pod) s = execGuardianRestore pod s := rfl
theorem exec_rampGrant (s : State) :
    exec (.rampGrant) s = execRampGrant s := rfl
theorem exec_podPointChangeDone (pod : Nat) (s : State) :
    exec (.podPointChangeDone pod) s = execPodPointChangeDone pod s := rfl
theorem exec_domainPowerUpDone (domain : Nat) (s : State) :
    exec (.domainPowerUpDone domain) s = execDomainPowerUpDone domain s := rfl
theorem exec_podIdleTimeout (pod : Nat) (s : State) :
    exec (.podIdleTimeout pod) s = execPodIdleTimeout pod s := rfl
theorem exec_inputShort (s : State) :
    exec (.inputShort) s = execInputShort s := rfl
theorem exec_prsntBreak (s : State) :
    exec (.prsntBreak) s = execPrsntBreak s := rfl
theorem exec_storageLowAssert (s : State) :
    exec (.storageLowAssert) s = execStorageLowAssert s := rfl
theorem exec_storageLowRelease (s : State) :
    exec (.storageLowRelease) s = execStorageLowRelease s := rfl
theorem exec_sidebandReversed (s : State) :
    exec (.sidebandReversed) s = execSidebandReversed s := rfl
theorem exec_eventPersist (s : State) :
    exec (.eventPersist) s = execEventPersist s := rfl
theorem exec_sampleCapture (fate : CaptureFate) (s : State) :
    exec (.sampleCapture fate) s = execSampleCapture fate s := rfl
theorem exec_pcieLinkTrained (speed width : Nat) (flit cxl : Bool) (s : State) :
    exec (.pcieLinkTrained speed width flit cxl) s = execPcieLinkTrained speed width flit cxl s := rfl
theorem exec_vfEnableWrite (enable : Bool) (numVfs : Nat) (s : State) :
    exec (.vfEnableWrite enable numVfs) s = execVfEnableWrite enable numVfs s := rfl
theorem exec_hostDmaCompletion (tag : Nat) (r : HostRead) (s : State) :
    exec (.hostDmaCompletion tag r) s = execHostDmaCompletion tag r s := rfl
theorem exec_complementaryArm (action : ArmAction) (role : Bool) (ifMajor ifMinor : Nat) (s : State) :
    exec (.complementaryArm action role ifMajor ifMinor) s = execComplementaryArm action role ifMajor ifMinor s := rfl
theorem exec_newSnapshotRequest (epoch cause : Nat) (s : State) :
    exec (.newSnapshotRequest epoch cause) s = execNewSnapshotRequest epoch cause s := rfl
theorem exec_twinSwitchSaveBlocks (blocks : List (Nat × List (Nat × List Byte))) (s : State) :
    exec (.twinSwitchSaveBlocks blocks) s = execTwinSwitchSaveBlocks blocks s := rfl

end Sys2Proof.Machine
end

