-- ==== Sys2Proof/Laws/Flash.lean ====
section
/-! SUPPORT. Laws of the flash tier: when a channel has a block for static levelling to move to (R244). -/

namespace Sys2Proof.Machine

/-- A fold that answers something at each element answers something on a list that has one. -/
theorem foldl_isSome (f : Option Nat → Nat → Option Nat) (hf : ∀ b x, (f b x).isSome = true) (l : List Nat)
    (b : Option Nat) (h : b.isSome = true ∨ l ≠ []) : (l.foldl f b).isSome = true := by
  induction l generalizing b with
  | nil => simpa using h
  | cons a as ih => exact ih _ (.inl (hf b a))

/-- A channel has a block of highest count wherever it has a free block at all. -/
theorem levelHigh_isSome (s : State) (c b : Nat) (hb : b < GOOD_BLOCKS) (hu : blockUse s c b = 0)
    (he : s.flash.erasing.contains (c, b) = false) (hr : s.flash.relocs.any (fun r => r.1 = c && r.2.2 = some b) = false) :
    (levelHigh s c).isSome = true := by
  have hm : b ∈ (List.range GOOD_BLOCKS).filter (fun b =>
      takesData s c b && !s.flash.relocs.any (fun r => r.1 = c && r.2.2 = some b)) := by
    rw [List.mem_filter]
    refine ⟨List.mem_range.mpr hb, ?_⟩
    rw [hr]
    simp only [takesData, he, hu]
    rfl
  refine foldl_isSome _ (fun b x => ?_) _ none (.inr (List.ne_nil_of_mem hm))
  cases b with
  | none => rfl
  | some y => dsimp only; split <;> rfl

end Sys2Proof.Machine
end

