-- ==== Sys2Proof/Laws/Tab.lean ====
section
/-! SUPPORT. The laws of sparse tables and byte memories: reading after writing, and the canonical form, which every
operation on a memory keeps. -/

namespace Sys2Proof.Machine

/-! ### Reading after writing -/

theorem tget_nil {α : Type} (k : Nat) (d : α) : tget [] k d = d := rfl

theorem tget_filter {α : Type} (p : Nat → Bool) (t : Tab α) (k : Nat) (d : α) :
    tget (t.filter (fun e => p e.1)) k d = if p k then tget t k d else d := by
  induction t with
  | nil => simp [tget]
  | cons e t ih =>
    obtain ⟨j, v⟩ := e
    by_cases hp : p j
    · by_cases hj : j = k <;> simp_all [tget]
    · by_cases hj : j = k <;> simp_all [tget]

theorem tget_tdel {α : Type} (t : Tab α) (k j : Nat) (d : α) :
    tget (tdel t k) j d = if j = k then d else tget t j d := by
  have h := tget_filter (fun i => i != k) t j d
  simp only [tdel, h]
  by_cases e : j = k <;> simp [e]

theorem tget_tclear {α : Type} (t : Tab α) (lo hi k : Nat) (d : α) :
    tget (tclear t lo hi) k d = if lo ≤ k ∧ k < hi then d else tget t k d := by
  have h := tget_filter (fun i => decide (i < lo) || decide (hi ≤ i)) t k d
  simp only [tclear, h]
  by_cases e : lo ≤ k ∧ k < hi
  · simp [e, Nat.not_lt.mpr e.1, Nat.not_le.mpr e.2]
  · have : k < lo ∨ hi ≤ k := by omega
    simp [e, this]

theorem tget_tins {α : Type} (t : Tab α) (k j : Nat) (v d : α) (h : ∀ e ∈ t, e.1 ≠ k) :
    tget (tins t k v) j d = if j = k then v else tget t j d := by
  induction t with
  | nil => by_cases e : j = k <;> simp_all [tins, tget, eq_comm]
  | cons e t ih =>
    obtain ⟨i, w⟩ := e
    have hi : i ≠ k := h (i, w) (by simp)
    have ih := ih (fun e he => h e (by simp [he]))
    unfold tins
    split
    · by_cases e : j = k
      · subst e; simp [tget]
      · simp [tget, e, Ne.symm e]
    · by_cases e : j = k
      · subst e; simp_all [tget]
      · by_cases e2 : i = j <;> simp_all [tget]

theorem mem_tdel {α : Type} (t : Tab α) (k : Nat) : ∀ e ∈ tdel t k, e.1 ≠ k := by
  intro e he; simp [tdel] at he; exact he.2

/-- Reading an index of a table after a write. -/
theorem tget_tput {α : Type} [DecidableEq α] (t : Tab α) (k j : Nat) (v d : α) :
    tget (tput t k v d) j d = if j = k then v else tget t j d := by
  unfold tput
  split
  · rename_i h; subst h; exact tget_tdel t k j v
  · rw [tget_tins _ _ _ _ _ (mem_tdel t k), tget_tdel]
    by_cases e : j = k <;> simp [e]

@[simp] theorem tget_tput_same {α : Type} [DecidableEq α] (t : Tab α) (k : Nat) (v d : α) :
    tget (tput t k v d) k d = v := by simp [tget_tput]

theorem tget_tput_ne {α : Type} [DecidableEq α] (t : Tab α) (k j : Nat) (v d : α) (h : j ≠ k) :
    tget (tput t k v d) j d = tget t j d := by simp [tget_tput, h]

theorem tdel_tins {α : Type} (t : Tab α) (k : Nat) (v : α) : tdel (tins t k v) k = tdel t k := by
  induction t with
  | nil => simp [tins, tdel]
  | cons e t ih =>
    simp only [tins]
    split
    · simp [tdel]
    · simp only [tdel, List.filter_cons] at ih ⊢; rw [ih]

/-- Of two writes at one index the later one stands. -/
@[simp] theorem tput_tput {α : Type} [DecidableEq α] (t : Tab α) (k : Nat) (v w d : α) :
    tput (tput t k v d) k w d = tput t k w d := by
  have h : tdel (tput t k v d) k = tdel t k := by
    have hd : tdel (tdel t k) k = tdel t k := by simp [tdel]
    unfold tput; split <;> simp only [tdel_tins, hd]
  unfold tput at h ⊢; rw [h]

/-- The bytes of a memory after a write: those written, and every other as before. -/
theorem tget_mwrite (m : Tab Byte) (base : Nat) (bs : List Byte) (a : Nat) :
    tget (mwrite m base bs) a 0#8
      = if base ≤ a ∧ a < base + bs.length then bs.getD (a - base) 0#8 else tget m a 0#8 := by
  induction bs generalizing m base with
  | nil =>
    rw [if_neg (by simp only [List.length_nil]; omega)]
    rfl
  | cons b bs ih =>
    rw [mwrite, ih, tget_tput]
    by_cases e : a = base
    · subst e
      rw [if_neg (by omega), if_pos rfl, if_pos ⟨by omega, by simp⟩]; simp
    · by_cases h : base + 1 ≤ a ∧ a < base + 1 + bs.length
      · have h2 : base ≤ a ∧ a < base + (b :: bs).length := by simp; omega
        obtain ⟨n, hn⟩ : ∃ n, a - base = n + 1 := ⟨a - base - 1, by omega⟩
        rw [if_pos h, if_pos h2, hn, show a - (base + 1) = n by omega]; simp
      · have h2 : ¬(base ≤ a ∧ a < base + (b :: bs).length) := by simp; omega
        rw [if_neg h, if_neg h2, if_neg e]

theorem mread_length (m : Tab Byte) (base len : Nat) : (mread m base len).length = len := by simp [mread]

/-- Bytes that have been written read back. -/
theorem mread_mwrite (m : Tab Byte) (base : Nat) (bs : List Byte) : mread (mwrite m base bs) base bs.length = bs := by
  apply List.ext_getElem
  · simp [mread]
  · intro i h1 h2
    simp only [mread, List.getElem_map, List.getElem_range, tget_mwrite]
    rw [if_pos ⟨by omega, by omega⟩]
    simp [h2]

/-! ### The canonical form -/

theorem twf_nil {α : Type} [DecidableEq α] (d : α) : twf d ([] : Tab α) = true := rfl

theorem twf_cons {α : Type} [DecidableEq α] (d : α) (e : Nat × α) (t : Tab α) :
    twf d (e :: t) = true ↔ e.2 ≠ d ∧ (∀ x ∈ t, e.1 < x.1) ∧ twf d t = true := by
  obtain ⟨k, v⟩ := e
  simp [twf, and_assoc]

theorem twf_filter {α : Type} [DecidableEq α] (d : α) (p : Nat × α → Bool) (t : Tab α) (h : twf d t = true) :
    twf d (t.filter p) = true := by
  induction t with
  | nil => rfl
  | cons e t ih =>
    rw [twf_cons] at h
    by_cases hp : p e
    · rw [List.filter_cons_of_pos hp, twf_cons]
      exact ⟨h.1, fun x hx => h.2.1 x (List.mem_filter.mp hx).1, ih h.2.2⟩
    · rw [List.filter_cons_of_neg hp]; exact ih h.2.2

theorem twf_tdel {α : Type} [DecidableEq α] (d : α) (t : Tab α) (k : Nat) (h : twf d t = true) :
    twf d (tdel t k) = true := twf_filter d _ t h

theorem twf_tclear {α : Type} [DecidableEq α] (d : α) (t : Tab α) (lo hi : Nat) (h : twf d t = true) :
    twf d (tclear t lo hi) = true := twf_filter d _ t h

theorem mem_tins {α : Type} (t : Tab α) (k : Nat) (v : α) (e : Nat × α) : e ∈ tins t k v ↔ e = (k, v) ∨ e ∈ t := by
  induction t with
  | nil => simp [tins]
  | cons x t ih =>
    obtain ⟨j, w⟩ := x
    unfold tins
    split
    · simp
    · simp [ih]; constructor
      · rintro (h | h | h) <;> simp [h]
      · rintro (h | h | h) <;> simp [h]

theorem twf_tins {α : Type} [DecidableEq α] (d : α) (t : Tab α) (k : Nat) (v : α) (hv : v ≠ d)
    (hk : ∀ e ∈ t, e.1 ≠ k) (h : twf d t = true) : twf d (tins t k v) = true := by
  induction t with
  | nil => simp [tins, twf, hv]
  | cons e t ih =>
    obtain ⟨j, w⟩ := e
    have hj : j ≠ k := hk (j, w) (by simp)
    rw [twf_cons] at h
    unfold tins
    split
    · rename_i hlt
      rw [twf_cons]
      refine ⟨hv, ?_, by rw [twf_cons]; exact h⟩
      intro x hx
      rcases List.mem_cons.mp hx with rfl | hx
      · exact hlt
      · have := h.2.1 x hx; simp at this ⊢; omega
    · rename_i hlt
      rw [twf_cons]
      refine ⟨h.1, ?_, ih (fun e he => hk e (by simp [he])) h.2.2⟩
      intro x hx
      rcases (mem_tins t k v x).mp hx with rfl | hx
      · simp; omega
      · exact h.2.1 x hx

/-- A write keeps the canonical form. -/
theorem twf_tput {α : Type} [DecidableEq α] (d : α) (t : Tab α) (k : Nat) (v : α) (h : twf d t = true) :
    twf d (tput t k v d) = true := by
  unfold tput
  split
  · exact twf_tdel d t k h
  · exact twf_tins d _ k v (by assumption) (mem_tdel t k) (twf_tdel d t k h)

theorem wf_tput (m : Tab Byte) (k : Nat) (v : Byte) (h : Memory.wf m = true) : Memory.wf (tput m k v 0#8) = true :=
  twf_tput 0#8 m k v h

theorem wf_tclear (m : Tab Byte) (lo hi : Nat) (h : Memory.wf m = true) : Memory.wf (tclear m lo hi) = true :=
  twf_tclear 0#8 m lo hi h

theorem wf_mwrite (m : Tab Byte) (base : Nat) (bs : List Byte) (h : Memory.wf m = true) :
    Memory.wf (mwrite m base bs) = true := by
  induction bs generalizing m base with
  | nil => exact h
  | cons b bs ih => exact ih _ _ (wf_tput m base b h)

/-- Puts in a row keep the canonical form, whatever places and values they take. -/
theorem wf_fold {β : Type} (l : List β) (at_ : β → Nat) (val : β → Byte) (m : Tab Byte) (h : Memory.wf m = true) :
    Memory.wf (l.foldl (fun m x => tput m (at_ x) (val x) 0#8) m) = true := by
  induction l generalizing m with
  | nil => exact h
  | cons x l ih => exact ih _ (wf_tput m _ _ h)

theorem wf_mcopy (src : Tab Byte) (sbase len : Nat) (dst : Tab Byte) (dbase : Nat) (h : Memory.wf dst = true) :
    Memory.wf (mcopy src sbase len dst dbase) = true :=
  wf_fold _ (fun (e : Nat × Byte) => e.1 - sbase + dbase) (fun e => e.2) _ (wf_tclear dst dbase (dbase + len) h)

theorem wf_nil : Memory.wf [] = true := rfl

end Sys2Proof.Machine
end

