-- ==== Sys2Proof/Laws/State.lean ====
section
/-! SUPPORT. What each update of State leaves as it was, one equation per field, and what it writes, read back. -/

namespace Sys2Proof.Machine

variable (s : State)

/-! ### setWord -/

@[simp] theorem setWord_counter (off : Nat) (v : Word) : (s.setWord off v).counter = s.counter := rfl
@[simp] theorem setWord_host (off : Nat) (v : Word) : (s.setWord off v).host = s.host := rfl
@[simp] theorem setWord_tiles (off : Nat) (v : Word) : (s.setWord off v).tiles = s.tiles := rfl
@[simp] theorem setWord_pods (off : Nat) (v : Word) : (s.setWord off v).pods = s.pods := rfl
@[simp] theorem setWord_routers (off : Nat) (v : Word) : (s.setWord off v).routers = s.routers := rfl
@[simp] theorem setWord_srv (off : Nat) (v : Word) : (s.setWord off v).srv = s.srv := rfl
@[simp] theorem setWord_tier (off : Nat) (v : Word) : (s.setWord off v).tier = s.tier := rfl
@[simp] theorem setWord_flash (off : Nat) (v : Word) : (s.setWord off v).flash = s.flash := rfl
@[simp] theorem setWord_sched (off : Nat) (v : Word) : (s.setWord off v).sched = s.sched := rfl
@[simp] theorem setWord_pwr (off : Nat) (v : Word) : (s.setWord off v).pwr = s.pwr := rfl
@[simp] theorem setWord_boot (off : Nat) (v : Word) : (s.setWord off v).boot = s.boot := rfl
@[simp] theorem setWord_fab (off : Nat) (v : Word) : (s.setWord off v).fab = s.fab := rfl
@[simp] theorem setWord_twin (off : Nat) (v : Word) : (s.setWord off v).twin = s.twin := rfl
@[simp] theorem setWord_obs (off : Nat) (v : Word) : (s.setWord off v).obs = s.obs := rfl
@[simp] theorem setWord_free (off : Nat) (v : Word) : (s.setWord off v).free = s.free := rfl
@[simp] theorem setWord_out (off : Nat) (v : Word) : (s.setWord off v).out = s.out := rfl
@[simp] theorem setWord_pending (off : Nat) (v : Word) : (s.setWord off v).pending = s.pending := rfl

/-! ### wr32 -/

@[simp] theorem wr32_counter (off v : Nat) : (s.wr32 off v).counter = s.counter := rfl
@[simp] theorem wr32_host (off v : Nat) : (s.wr32 off v).host = s.host := rfl
@[simp] theorem wr32_tiles (off v : Nat) : (s.wr32 off v).tiles = s.tiles := rfl
@[simp] theorem wr32_pods (off v : Nat) : (s.wr32 off v).pods = s.pods := rfl
@[simp] theorem wr32_routers (off v : Nat) : (s.wr32 off v).routers = s.routers := rfl
@[simp] theorem wr32_srv (off v : Nat) : (s.wr32 off v).srv = s.srv := rfl
@[simp] theorem wr32_tier (off v : Nat) : (s.wr32 off v).tier = s.tier := rfl
@[simp] theorem wr32_flash (off v : Nat) : (s.wr32 off v).flash = s.flash := rfl
@[simp] theorem wr32_sched (off v : Nat) : (s.wr32 off v).sched = s.sched := rfl
@[simp] theorem wr32_pwr (off v : Nat) : (s.wr32 off v).pwr = s.pwr := rfl
@[simp] theorem wr32_boot (off v : Nat) : (s.wr32 off v).boot = s.boot := rfl
@[simp] theorem wr32_fab (off v : Nat) : (s.wr32 off v).fab = s.fab := rfl
@[simp] theorem wr32_twin (off v : Nat) : (s.wr32 off v).twin = s.twin := rfl
@[simp] theorem wr32_obs (off v : Nat) : (s.wr32 off v).obs = s.obs := rfl
@[simp] theorem wr32_free (off v : Nat) : (s.wr32 off v).free = s.free := rfl
@[simp] theorem wr32_out (off v : Nat) : (s.wr32 off v).out = s.out := rfl
@[simp] theorem wr32_pending (off v : Nat) : (s.wr32 off v).pending = s.pending := rfl

/-! ### wr64 -/

@[simp] theorem wr64_counter (off v : Nat) : (s.wr64 off v).counter = s.counter := rfl
@[simp] theorem wr64_host (off v : Nat) : (s.wr64 off v).host = s.host := rfl
@[simp] theorem wr64_tiles (off v : Nat) : (s.wr64 off v).tiles = s.tiles := rfl
@[simp] theorem wr64_pods (off v : Nat) : (s.wr64 off v).pods = s.pods := rfl
@[simp] theorem wr64_routers (off v : Nat) : (s.wr64 off v).routers = s.routers := rfl
@[simp] theorem wr64_srv (off v : Nat) : (s.wr64 off v).srv = s.srv := rfl
@[simp] theorem wr64_tier (off v : Nat) : (s.wr64 off v).tier = s.tier := rfl
@[simp] theorem wr64_flash (off v : Nat) : (s.wr64 off v).flash = s.flash := rfl
@[simp] theorem wr64_sched (off v : Nat) : (s.wr64 off v).sched = s.sched := rfl
@[simp] theorem wr64_pwr (off v : Nat) : (s.wr64 off v).pwr = s.pwr := rfl
@[simp] theorem wr64_boot (off v : Nat) : (s.wr64 off v).boot = s.boot := rfl
@[simp] theorem wr64_fab (off v : Nat) : (s.wr64 off v).fab = s.fab := rfl
@[simp] theorem wr64_twin (off v : Nat) : (s.wr64 off v).twin = s.twin := rfl
@[simp] theorem wr64_obs (off v : Nat) : (s.wr64 off v).obs = s.obs := rfl
@[simp] theorem wr64_free (off v : Nat) : (s.wr64 off v).free = s.free := rfl
@[simp] theorem wr64_out (off v : Nat) : (s.wr64 off v).out = s.out := rfl
@[simp] theorem wr64_pending (off v : Nat) : (s.wr64 off v).pending = s.pending := rfl

/-! ### wr -/

@[simp] theorem wr_counter (f : Fld) (v : Nat) : (s.wr f v).counter = s.counter := rfl
@[simp] theorem wr_host (f : Fld) (v : Nat) : (s.wr f v).host = s.host := rfl
@[simp] theorem wr_tiles (f : Fld) (v : Nat) : (s.wr f v).tiles = s.tiles := rfl
@[simp] theorem wr_pods (f : Fld) (v : Nat) : (s.wr f v).pods = s.pods := rfl
@[simp] theorem wr_routers (f : Fld) (v : Nat) : (s.wr f v).routers = s.routers := rfl
@[simp] theorem wr_srv (f : Fld) (v : Nat) : (s.wr f v).srv = s.srv := rfl
@[simp] theorem wr_tier (f : Fld) (v : Nat) : (s.wr f v).tier = s.tier := rfl
@[simp] theorem wr_flash (f : Fld) (v : Nat) : (s.wr f v).flash = s.flash := rfl
@[simp] theorem wr_sched (f : Fld) (v : Nat) : (s.wr f v).sched = s.sched := rfl
@[simp] theorem wr_pwr (f : Fld) (v : Nat) : (s.wr f v).pwr = s.pwr := rfl
@[simp] theorem wr_boot (f : Fld) (v : Nat) : (s.wr f v).boot = s.boot := rfl
@[simp] theorem wr_fab (f : Fld) (v : Nat) : (s.wr f v).fab = s.fab := rfl
@[simp] theorem wr_twin (f : Fld) (v : Nat) : (s.wr f v).twin = s.twin := rfl
@[simp] theorem wr_obs (f : Fld) (v : Nat) : (s.wr f v).obs = s.obs := rfl
@[simp] theorem wr_free (f : Fld) (v : Nat) : (s.wr f v).free = s.free := rfl
@[simp] theorem wr_out (f : Fld) (v : Nat) : (s.wr f v).out = s.out := rfl
@[simp] theorem wr_pending (f : Fld) (v : Nat) : (s.wr f v).pending = s.pending := rfl

/-! ### wrB -/

@[simp] theorem wrB_counter (f : Fld) (b : Bool) : (s.wrB f b).counter = s.counter := rfl
@[simp] theorem wrB_host (f : Fld) (b : Bool) : (s.wrB f b).host = s.host := rfl
@[simp] theorem wrB_tiles (f : Fld) (b : Bool) : (s.wrB f b).tiles = s.tiles := rfl
@[simp] theorem wrB_pods (f : Fld) (b : Bool) : (s.wrB f b).pods = s.pods := rfl
@[simp] theorem wrB_routers (f : Fld) (b : Bool) : (s.wrB f b).routers = s.routers := rfl
@[simp] theorem wrB_srv (f : Fld) (b : Bool) : (s.wrB f b).srv = s.srv := rfl
@[simp] theorem wrB_tier (f : Fld) (b : Bool) : (s.wrB f b).tier = s.tier := rfl
@[simp] theorem wrB_flash (f : Fld) (b : Bool) : (s.wrB f b).flash = s.flash := rfl
@[simp] theorem wrB_sched (f : Fld) (b : Bool) : (s.wrB f b).sched = s.sched := rfl
@[simp] theorem wrB_pwr (f : Fld) (b : Bool) : (s.wrB f b).pwr = s.pwr := rfl
@[simp] theorem wrB_boot (f : Fld) (b : Bool) : (s.wrB f b).boot = s.boot := rfl
@[simp] theorem wrB_fab (f : Fld) (b : Bool) : (s.wrB f b).fab = s.fab := rfl
@[simp] theorem wrB_twin (f : Fld) (b : Bool) : (s.wrB f b).twin = s.twin := rfl
@[simp] theorem wrB_obs (f : Fld) (b : Bool) : (s.wrB f b).obs = s.obs := rfl
@[simp] theorem wrB_free (f : Fld) (b : Bool) : (s.wrB f b).free = s.free := rfl
@[simp] theorem wrB_out (f : Fld) (b : Bool) : (s.wrB f b).out = s.out := rfl
@[simp] theorem wrB_pending (f : Fld) (b : Bool) : (s.wrB f b).pending = s.pending := rfl

/-! ### addSat -/

@[simp] theorem addSat_counter (off n : Nat) : (s.addSat off n).counter = s.counter := rfl
@[simp] theorem addSat_host (off n : Nat) : (s.addSat off n).host = s.host := rfl
@[simp] theorem addSat_tiles (off n : Nat) : (s.addSat off n).tiles = s.tiles := rfl
@[simp] theorem addSat_pods (off n : Nat) : (s.addSat off n).pods = s.pods := rfl
@[simp] theorem addSat_routers (off n : Nat) : (s.addSat off n).routers = s.routers := rfl
@[simp] theorem addSat_srv (off n : Nat) : (s.addSat off n).srv = s.srv := rfl
@[simp] theorem addSat_tier (off n : Nat) : (s.addSat off n).tier = s.tier := rfl
@[simp] theorem addSat_flash (off n : Nat) : (s.addSat off n).flash = s.flash := rfl
@[simp] theorem addSat_sched (off n : Nat) : (s.addSat off n).sched = s.sched := rfl
@[simp] theorem addSat_pwr (off n : Nat) : (s.addSat off n).pwr = s.pwr := rfl
@[simp] theorem addSat_boot (off n : Nat) : (s.addSat off n).boot = s.boot := rfl
@[simp] theorem addSat_fab (off n : Nat) : (s.addSat off n).fab = s.fab := rfl
@[simp] theorem addSat_twin (off n : Nat) : (s.addSat off n).twin = s.twin := rfl
@[simp] theorem addSat_obs (off n : Nat) : (s.addSat off n).obs = s.obs := rfl
@[simp] theorem addSat_free (off n : Nat) : (s.addSat off n).free = s.free := rfl
@[simp] theorem addSat_out (off n : Nat) : (s.addSat off n).out = s.out := rfl
@[simp] theorem addSat_pending (off n : Nat) : (s.addSat off n).pending = s.pending := rfl

/-! ### addWrap -/

@[simp] theorem addWrap_counter (off n : Nat) : (s.addWrap off n).counter = s.counter := rfl
@[simp] theorem addWrap_host (off n : Nat) : (s.addWrap off n).host = s.host := rfl
@[simp] theorem addWrap_tiles (off n : Nat) : (s.addWrap off n).tiles = s.tiles := rfl
@[simp] theorem addWrap_pods (off n : Nat) : (s.addWrap off n).pods = s.pods := rfl
@[simp] theorem addWrap_routers (off n : Nat) : (s.addWrap off n).routers = s.routers := rfl
@[simp] theorem addWrap_srv (off n : Nat) : (s.addWrap off n).srv = s.srv := rfl
@[simp] theorem addWrap_tier (off n : Nat) : (s.addWrap off n).tier = s.tier := rfl
@[simp] theorem addWrap_flash (off n : Nat) : (s.addWrap off n).flash = s.flash := rfl
@[simp] theorem addWrap_sched (off n : Nat) : (s.addWrap off n).sched = s.sched := rfl
@[simp] theorem addWrap_pwr (off n : Nat) : (s.addWrap off n).pwr = s.pwr := rfl
@[simp] theorem addWrap_boot (off n : Nat) : (s.addWrap off n).boot = s.boot := rfl
@[simp] theorem addWrap_fab (off n : Nat) : (s.addWrap off n).fab = s.fab := rfl
@[simp] theorem addWrap_twin (off n : Nat) : (s.addWrap off n).twin = s.twin := rfl
@[simp] theorem addWrap_obs (off n : Nat) : (s.addWrap off n).obs = s.obs := rfl
@[simp] theorem addWrap_free (off n : Nat) : (s.addWrap off n).free = s.free := rfl
@[simp] theorem addWrap_out (off n : Nat) : (s.addWrap off n).out = s.out := rfl
@[simp] theorem addWrap_pending (off n : Nat) : (s.addWrap off n).pending = s.pending := rfl

/-! ### add64 -/

@[simp] theorem add64_counter (off n : Nat) : (s.add64 off n).counter = s.counter := rfl
@[simp] theorem add64_host (off n : Nat) : (s.add64 off n).host = s.host := rfl
@[simp] theorem add64_tiles (off n : Nat) : (s.add64 off n).tiles = s.tiles := rfl
@[simp] theorem add64_pods (off n : Nat) : (s.add64 off n).pods = s.pods := rfl
@[simp] theorem add64_routers (off n : Nat) : (s.add64 off n).routers = s.routers := rfl
@[simp] theorem add64_srv (off n : Nat) : (s.add64 off n).srv = s.srv := rfl
@[simp] theorem add64_tier (off n : Nat) : (s.add64 off n).tier = s.tier := rfl
@[simp] theorem add64_flash (off n : Nat) : (s.add64 off n).flash = s.flash := rfl
@[simp] theorem add64_sched (off n : Nat) : (s.add64 off n).sched = s.sched := rfl
@[simp] theorem add64_pwr (off n : Nat) : (s.add64 off n).pwr = s.pwr := rfl
@[simp] theorem add64_boot (off n : Nat) : (s.add64 off n).boot = s.boot := rfl
@[simp] theorem add64_fab (off n : Nat) : (s.add64 off n).fab = s.fab := rfl
@[simp] theorem add64_twin (off n : Nat) : (s.add64 off n).twin = s.twin := rfl
@[simp] theorem add64_obs (off n : Nat) : (s.add64 off n).obs = s.obs := rfl
@[simp] theorem add64_free (off n : Nat) : (s.add64 off n).free = s.free := rfl
@[simp] theorem add64_out (off n : Nat) : (s.add64 off n).out = s.out := rfl
@[simp] theorem add64_pending (off n : Nat) : (s.add64 off n).pending = s.pending := rfl

/-! ### setCompanion -/

@[simp] theorem setCompanion_bar (off b : Nat) (v : BitVec 16) : (s.setCompanion off b v).bar = s.bar := rfl
@[simp] theorem setCompanion_counter (off b : Nat) (v : BitVec 16) : (s.setCompanion off b v).counter = s.counter := rfl
@[simp] theorem setCompanion_tiles (off b : Nat) (v : BitVec 16) : (s.setCompanion off b v).tiles = s.tiles := rfl
@[simp] theorem setCompanion_pods (off b : Nat) (v : BitVec 16) : (s.setCompanion off b v).pods = s.pods := rfl
@[simp] theorem setCompanion_routers (off b : Nat) (v : BitVec 16) : (s.setCompanion off b v).routers = s.routers := rfl
@[simp] theorem setCompanion_srv (off b : Nat) (v : BitVec 16) : (s.setCompanion off b v).srv = s.srv := rfl
@[simp] theorem setCompanion_tier (off b : Nat) (v : BitVec 16) : (s.setCompanion off b v).tier = s.tier := rfl
@[simp] theorem setCompanion_flash (off b : Nat) (v : BitVec 16) : (s.setCompanion off b v).flash = s.flash := rfl
@[simp] theorem setCompanion_sched (off b : Nat) (v : BitVec 16) : (s.setCompanion off b v).sched = s.sched := rfl
@[simp] theorem setCompanion_pwr (off b : Nat) (v : BitVec 16) : (s.setCompanion off b v).pwr = s.pwr := rfl
@[simp] theorem setCompanion_boot (off b : Nat) (v : BitVec 16) : (s.setCompanion off b v).boot = s.boot := rfl
@[simp] theorem setCompanion_fab (off b : Nat) (v : BitVec 16) : (s.setCompanion off b v).fab = s.fab := rfl
@[simp] theorem setCompanion_twin (off b : Nat) (v : BitVec 16) : (s.setCompanion off b v).twin = s.twin := rfl
@[simp] theorem setCompanion_obs (off b : Nat) (v : BitVec 16) : (s.setCompanion off b v).obs = s.obs := rfl
@[simp] theorem setCompanion_free (off b : Nat) (v : BitVec 16) : (s.setCompanion off b v).free = s.free := rfl
@[simp] theorem setCompanion_out (off b : Nat) (v : BitVec 16) : (s.setCompanion off b v).out = s.out := rfl
@[simp] theorem setCompanion_pending (off b : Nat) (v : BitVec 16) : (s.setCompanion off b v).pending = s.pending := rfl

/-! ### raise -/

@[simp] theorem raise_counter (off b : Nat) : (s.raise off b).counter = s.counter := rfl
@[simp] theorem raise_tiles (off b : Nat) : (s.raise off b).tiles = s.tiles := rfl
@[simp] theorem raise_pods (off b : Nat) : (s.raise off b).pods = s.pods := rfl
@[simp] theorem raise_routers (off b : Nat) : (s.raise off b).routers = s.routers := rfl
@[simp] theorem raise_srv (off b : Nat) : (s.raise off b).srv = s.srv := rfl
@[simp] theorem raise_tier (off b : Nat) : (s.raise off b).tier = s.tier := rfl
@[simp] theorem raise_flash (off b : Nat) : (s.raise off b).flash = s.flash := rfl
@[simp] theorem raise_sched (off b : Nat) : (s.raise off b).sched = s.sched := rfl
@[simp] theorem raise_pwr (off b : Nat) : (s.raise off b).pwr = s.pwr := rfl
@[simp] theorem raise_boot (off b : Nat) : (s.raise off b).boot = s.boot := rfl
@[simp] theorem raise_fab (off b : Nat) : (s.raise off b).fab = s.fab := rfl
@[simp] theorem raise_twin (off b : Nat) : (s.raise off b).twin = s.twin := rfl
@[simp] theorem raise_obs (off b : Nat) : (s.raise off b).obs = s.obs := rfl
@[simp] theorem raise_free (off b : Nat) : (s.raise off b).free = s.free := rfl
@[simp] theorem raise_out (off b : Nat) : (s.raise off b).out = s.out := rfl
@[simp] theorem raise_pending (off b : Nat) : (s.raise off b).pending = s.pending := rfl

/-! ### emit -/

@[simp] theorem emit_bar (o : Out) : (s.emit o).bar = s.bar := rfl
@[simp] theorem emit_counter (o : Out) : (s.emit o).counter = s.counter := rfl
@[simp] theorem emit_host (o : Out) : (s.emit o).host = s.host := rfl
@[simp] theorem emit_tiles (o : Out) : (s.emit o).tiles = s.tiles := rfl
@[simp] theorem emit_pods (o : Out) : (s.emit o).pods = s.pods := rfl
@[simp] theorem emit_routers (o : Out) : (s.emit o).routers = s.routers := rfl
@[simp] theorem emit_srv (o : Out) : (s.emit o).srv = s.srv := rfl
@[simp] theorem emit_tier (o : Out) : (s.emit o).tier = s.tier := rfl
@[simp] theorem emit_flash (o : Out) : (s.emit o).flash = s.flash := rfl
@[simp] theorem emit_sched (o : Out) : (s.emit o).sched = s.sched := rfl
@[simp] theorem emit_pwr (o : Out) : (s.emit o).pwr = s.pwr := rfl
@[simp] theorem emit_boot (o : Out) : (s.emit o).boot = s.boot := rfl
@[simp] theorem emit_fab (o : Out) : (s.emit o).fab = s.fab := rfl
@[simp] theorem emit_twin (o : Out) : (s.emit o).twin = s.twin := rfl
@[simp] theorem emit_obs (o : Out) : (s.emit o).obs = s.obs := rfl
@[simp] theorem emit_free (o : Out) : (s.emit o).free = s.free := rfl
@[simp] theorem emit_pending (o : Out) : (s.emit o).pending = s.pending := rfl

/-! ### setRingAux -/

@[simp] theorem setRingAux_bar (r : Nat) (a : RingAux) : (s.setRingAux r a).bar = s.bar := rfl
@[simp] theorem setRingAux_counter (r : Nat) (a : RingAux) : (s.setRingAux r a).counter = s.counter := rfl
@[simp] theorem setRingAux_tiles (r : Nat) (a : RingAux) : (s.setRingAux r a).tiles = s.tiles := rfl
@[simp] theorem setRingAux_pods (r : Nat) (a : RingAux) : (s.setRingAux r a).pods = s.pods := rfl
@[simp] theorem setRingAux_routers (r : Nat) (a : RingAux) : (s.setRingAux r a).routers = s.routers := rfl
@[simp] theorem setRingAux_srv (r : Nat) (a : RingAux) : (s.setRingAux r a).srv = s.srv := rfl
@[simp] theorem setRingAux_tier (r : Nat) (a : RingAux) : (s.setRingAux r a).tier = s.tier := rfl
@[simp] theorem setRingAux_flash (r : Nat) (a : RingAux) : (s.setRingAux r a).flash = s.flash := rfl
@[simp] theorem setRingAux_sched (r : Nat) (a : RingAux) : (s.setRingAux r a).sched = s.sched := rfl
@[simp] theorem setRingAux_pwr (r : Nat) (a : RingAux) : (s.setRingAux r a).pwr = s.pwr := rfl
@[simp] theorem setRingAux_boot (r : Nat) (a : RingAux) : (s.setRingAux r a).boot = s.boot := rfl
@[simp] theorem setRingAux_fab (r : Nat) (a : RingAux) : (s.setRingAux r a).fab = s.fab := rfl
@[simp] theorem setRingAux_twin (r : Nat) (a : RingAux) : (s.setRingAux r a).twin = s.twin := rfl
@[simp] theorem setRingAux_obs (r : Nat) (a : RingAux) : (s.setRingAux r a).obs = s.obs := rfl
@[simp] theorem setRingAux_free (r : Nat) (a : RingAux) : (s.setRingAux r a).free = s.free := rfl
@[simp] theorem setRingAux_out (r : Nat) (a : RingAux) : (s.setRingAux r a).out = s.out := rfl
@[simp] theorem setRingAux_pending (r : Nat) (a : RingAux) : (s.setRingAux r a).pending = s.pending := rfl

/-! ### setTile -/

@[simp] theorem setTile_bar (t : Nat) (v : Tile) : (s.setTile t v).bar = s.bar := rfl
@[simp] theorem setTile_counter (t : Nat) (v : Tile) : (s.setTile t v).counter = s.counter := rfl
@[simp] theorem setTile_host (t : Nat) (v : Tile) : (s.setTile t v).host = s.host := rfl
@[simp] theorem setTile_pods (t : Nat) (v : Tile) : (s.setTile t v).pods = s.pods := rfl
@[simp] theorem setTile_routers (t : Nat) (v : Tile) : (s.setTile t v).routers = s.routers := rfl
@[simp] theorem setTile_srv (t : Nat) (v : Tile) : (s.setTile t v).srv = s.srv := rfl
@[simp] theorem setTile_tier (t : Nat) (v : Tile) : (s.setTile t v).tier = s.tier := rfl
@[simp] theorem setTile_flash (t : Nat) (v : Tile) : (s.setTile t v).flash = s.flash := rfl
@[simp] theorem setTile_sched (t : Nat) (v : Tile) : (s.setTile t v).sched = s.sched := rfl
@[simp] theorem setTile_pwr (t : Nat) (v : Tile) : (s.setTile t v).pwr = s.pwr := rfl
@[simp] theorem setTile_boot (t : Nat) (v : Tile) : (s.setTile t v).boot = s.boot := rfl
@[simp] theorem setTile_fab (t : Nat) (v : Tile) : (s.setTile t v).fab = s.fab := rfl
@[simp] theorem setTile_twin (t : Nat) (v : Tile) : (s.setTile t v).twin = s.twin := rfl
@[simp] theorem setTile_obs (t : Nat) (v : Tile) : (s.setTile t v).obs = s.obs := rfl
@[simp] theorem setTile_free (t : Nat) (v : Tile) : (s.setTile t v).free = s.free := rfl
@[simp] theorem setTile_out (t : Nat) (v : Tile) : (s.setTile t v).out = s.out := rfl
@[simp] theorem setTile_pending (t : Nat) (v : Tile) : (s.setTile t v).pending = s.pending := rfl

/-! ### setPod -/

@[simp] theorem setPod_bar (p : Nat) (v : Pod) : (s.setPod p v).bar = s.bar := rfl
@[simp] theorem setPod_counter (p : Nat) (v : Pod) : (s.setPod p v).counter = s.counter := rfl
@[simp] theorem setPod_host (p : Nat) (v : Pod) : (s.setPod p v).host = s.host := rfl
@[simp] theorem setPod_tiles (p : Nat) (v : Pod) : (s.setPod p v).tiles = s.tiles := rfl
@[simp] theorem setPod_routers (p : Nat) (v : Pod) : (s.setPod p v).routers = s.routers := rfl
@[simp] theorem setPod_srv (p : Nat) (v : Pod) : (s.setPod p v).srv = s.srv := rfl
@[simp] theorem setPod_tier (p : Nat) (v : Pod) : (s.setPod p v).tier = s.tier := rfl
@[simp] theorem setPod_flash (p : Nat) (v : Pod) : (s.setPod p v).flash = s.flash := rfl
@[simp] theorem setPod_sched (p : Nat) (v : Pod) : (s.setPod p v).sched = s.sched := rfl
@[simp] theorem setPod_pwr (p : Nat) (v : Pod) : (s.setPod p v).pwr = s.pwr := rfl
@[simp] theorem setPod_boot (p : Nat) (v : Pod) : (s.setPod p v).boot = s.boot := rfl
@[simp] theorem setPod_fab (p : Nat) (v : Pod) : (s.setPod p v).fab = s.fab := rfl
@[simp] theorem setPod_twin (p : Nat) (v : Pod) : (s.setPod p v).twin = s.twin := rfl
@[simp] theorem setPod_obs (p : Nat) (v : Pod) : (s.setPod p v).obs = s.obs := rfl
@[simp] theorem setPod_free (p : Nat) (v : Pod) : (s.setPod p v).free = s.free := rfl
@[simp] theorem setPod_out (p : Nat) (v : Pod) : (s.setPod p v).out = s.out := rfl
@[simp] theorem setPod_pending (p : Nat) (v : Pod) : (s.setPod p v).pending = s.pending := rfl

/-! ### setEngine -/

@[simp] theorem setEngine_bar (p e : Nat) (v : Engine) : (s.setEngine p e v).bar = s.bar := rfl
@[simp] theorem setEngine_counter (p e : Nat) (v : Engine) : (s.setEngine p e v).counter = s.counter := rfl
@[simp] theorem setEngine_host (p e : Nat) (v : Engine) : (s.setEngine p e v).host = s.host := rfl
@[simp] theorem setEngine_tiles (p e : Nat) (v : Engine) : (s.setEngine p e v).tiles = s.tiles := rfl
@[simp] theorem setEngine_routers (p e : Nat) (v : Engine) : (s.setEngine p e v).routers = s.routers := rfl
@[simp] theorem setEngine_srv (p e : Nat) (v : Engine) : (s.setEngine p e v).srv = s.srv := rfl
@[simp] theorem setEngine_tier (p e : Nat) (v : Engine) : (s.setEngine p e v).tier = s.tier := rfl
@[simp] theorem setEngine_flash (p e : Nat) (v : Engine) : (s.setEngine p e v).flash = s.flash := rfl
@[simp] theorem setEngine_sched (p e : Nat) (v : Engine) : (s.setEngine p e v).sched = s.sched := rfl
@[simp] theorem setEngine_pwr (p e : Nat) (v : Engine) : (s.setEngine p e v).pwr = s.pwr := rfl
@[simp] theorem setEngine_boot (p e : Nat) (v : Engine) : (s.setEngine p e v).boot = s.boot := rfl
@[simp] theorem setEngine_fab (p e : Nat) (v : Engine) : (s.setEngine p e v).fab = s.fab := rfl
@[simp] theorem setEngine_twin (p e : Nat) (v : Engine) : (s.setEngine p e v).twin = s.twin := rfl
@[simp] theorem setEngine_obs (p e : Nat) (v : Engine) : (s.setEngine p e v).obs = s.obs := rfl
@[simp] theorem setEngine_free (p e : Nat) (v : Engine) : (s.setEngine p e v).free = s.free := rfl
@[simp] theorem setEngine_out (p e : Nat) (v : Engine) : (s.setEngine p e v).out = s.out := rfl
@[simp] theorem setEngine_pending (p e : Nat) (v : Engine) : (s.setEngine p e v).pending = s.pending := rfl

/-! ### setRouter -/

@[simp] theorem setRouter_bar (t : Nat) (v : Router) : (s.setRouter t v).bar = s.bar := rfl
@[simp] theorem setRouter_counter (t : Nat) (v : Router) : (s.setRouter t v).counter = s.counter := rfl
@[simp] theorem setRouter_host (t : Nat) (v : Router) : (s.setRouter t v).host = s.host := rfl
@[simp] theorem setRouter_tiles (t : Nat) (v : Router) : (s.setRouter t v).tiles = s.tiles := rfl
@[simp] theorem setRouter_pods (t : Nat) (v : Router) : (s.setRouter t v).pods = s.pods := rfl
@[simp] theorem setRouter_srv (t : Nat) (v : Router) : (s.setRouter t v).srv = s.srv := rfl
@[simp] theorem setRouter_tier (t : Nat) (v : Router) : (s.setRouter t v).tier = s.tier := rfl
@[simp] theorem setRouter_flash (t : Nat) (v : Router) : (s.setRouter t v).flash = s.flash := rfl
@[simp] theorem setRouter_sched (t : Nat) (v : Router) : (s.setRouter t v).sched = s.sched := rfl
@[simp] theorem setRouter_pwr (t : Nat) (v : Router) : (s.setRouter t v).pwr = s.pwr := rfl
@[simp] theorem setRouter_boot (t : Nat) (v : Router) : (s.setRouter t v).boot = s.boot := rfl
@[simp] theorem setRouter_fab (t : Nat) (v : Router) : (s.setRouter t v).fab = s.fab := rfl
@[simp] theorem setRouter_twin (t : Nat) (v : Router) : (s.setRouter t v).twin = s.twin := rfl
@[simp] theorem setRouter_obs (t : Nat) (v : Router) : (s.setRouter t v).obs = s.obs := rfl
@[simp] theorem setRouter_free (t : Nat) (v : Router) : (s.setRouter t v).free = s.free := rfl
@[simp] theorem setRouter_out (t : Nat) (v : Router) : (s.setRouter t v).out = s.out := rfl
@[simp] theorem setRouter_pending (t : Nat) (v : Router) : (s.setRouter t v).pending = s.pending := rfl

/-! ### setHull -/

@[simp] theorem setHull_bar (h : Nat) (v : Hull) : (s.setHull h v).bar = s.bar := rfl
@[simp] theorem setHull_counter (h : Nat) (v : Hull) : (s.setHull h v).counter = s.counter := rfl
@[simp] theorem setHull_host (h : Nat) (v : Hull) : (s.setHull h v).host = s.host := rfl
@[simp] theorem setHull_tiles (h : Nat) (v : Hull) : (s.setHull h v).tiles = s.tiles := rfl
@[simp] theorem setHull_pods (h : Nat) (v : Hull) : (s.setHull h v).pods = s.pods := rfl
@[simp] theorem setHull_routers (h : Nat) (v : Hull) : (s.setHull h v).routers = s.routers := rfl
@[simp] theorem setHull_tier (h : Nat) (v : Hull) : (s.setHull h v).tier = s.tier := rfl
@[simp] theorem setHull_flash (h : Nat) (v : Hull) : (s.setHull h v).flash = s.flash := rfl
@[simp] theorem setHull_sched (h : Nat) (v : Hull) : (s.setHull h v).sched = s.sched := rfl
@[simp] theorem setHull_pwr (h : Nat) (v : Hull) : (s.setHull h v).pwr = s.pwr := rfl
@[simp] theorem setHull_boot (h : Nat) (v : Hull) : (s.setHull h v).boot = s.boot := rfl
@[simp] theorem setHull_fab (h : Nat) (v : Hull) : (s.setHull h v).fab = s.fab := rfl
@[simp] theorem setHull_twin (h : Nat) (v : Hull) : (s.setHull h v).twin = s.twin := rfl
@[simp] theorem setHull_obs (h : Nat) (v : Hull) : (s.setHull h v).obs = s.obs := rfl
@[simp] theorem setHull_free (h : Nat) (v : Hull) : (s.setHull h v).free = s.free := rfl
@[simp] theorem setHull_out (h : Nat) (v : Hull) : (s.setHull h v).out = s.out := rfl
@[simp] theorem setHull_pending (h : Nat) (v : Hull) : (s.setHull h v).pending = s.pending := rfl

/-! ### setSlot -/

@[simp] theorem setSlot_bar (i : Nat) (v : Slot) : (s.setSlot i v).bar = s.bar := rfl
@[simp] theorem setSlot_counter (i : Nat) (v : Slot) : (s.setSlot i v).counter = s.counter := rfl
@[simp] theorem setSlot_host (i : Nat) (v : Slot) : (s.setSlot i v).host = s.host := rfl
@[simp] theorem setSlot_tiles (i : Nat) (v : Slot) : (s.setSlot i v).tiles = s.tiles := rfl
@[simp] theorem setSlot_pods (i : Nat) (v : Slot) : (s.setSlot i v).pods = s.pods := rfl
@[simp] theorem setSlot_routers (i : Nat) (v : Slot) : (s.setSlot i v).routers = s.routers := rfl
@[simp] theorem setSlot_tier (i : Nat) (v : Slot) : (s.setSlot i v).tier = s.tier := rfl
@[simp] theorem setSlot_flash (i : Nat) (v : Slot) : (s.setSlot i v).flash = s.flash := rfl
@[simp] theorem setSlot_sched (i : Nat) (v : Slot) : (s.setSlot i v).sched = s.sched := rfl
@[simp] theorem setSlot_pwr (i : Nat) (v : Slot) : (s.setSlot i v).pwr = s.pwr := rfl
@[simp] theorem setSlot_boot (i : Nat) (v : Slot) : (s.setSlot i v).boot = s.boot := rfl
@[simp] theorem setSlot_fab (i : Nat) (v : Slot) : (s.setSlot i v).fab = s.fab := rfl
@[simp] theorem setSlot_twin (i : Nat) (v : Slot) : (s.setSlot i v).twin = s.twin := rfl
@[simp] theorem setSlot_obs (i : Nat) (v : Slot) : (s.setSlot i v).obs = s.obs := rfl
@[simp] theorem setSlot_free (i : Nat) (v : Slot) : (s.setSlot i v).free = s.free := rfl
@[simp] theorem setSlot_out (i : Nat) (v : Slot) : (s.setSlot i v).out = s.out := rfl
@[simp] theorem setSlot_pending (i : Nat) (v : Slot) : (s.setSlot i v).pending = s.pending := rfl

/-! ### setRequest -/

@[simp] theorem setRequest_bar (i : Nat) (v : Request) : (s.setRequest i v).bar = s.bar := rfl
@[simp] theorem setRequest_counter (i : Nat) (v : Request) : (s.setRequest i v).counter = s.counter := rfl
@[simp] theorem setRequest_host (i : Nat) (v : Request) : (s.setRequest i v).host = s.host := rfl
@[simp] theorem setRequest_tiles (i : Nat) (v : Request) : (s.setRequest i v).tiles = s.tiles := rfl
@[simp] theorem setRequest_pods (i : Nat) (v : Request) : (s.setRequest i v).pods = s.pods := rfl
@[simp] theorem setRequest_routers (i : Nat) (v : Request) : (s.setRequest i v).routers = s.routers := rfl
@[simp] theorem setRequest_tier (i : Nat) (v : Request) : (s.setRequest i v).tier = s.tier := rfl
@[simp] theorem setRequest_flash (i : Nat) (v : Request) : (s.setRequest i v).flash = s.flash := rfl
@[simp] theorem setRequest_sched (i : Nat) (v : Request) : (s.setRequest i v).sched = s.sched := rfl
@[simp] theorem setRequest_pwr (i : Nat) (v : Request) : (s.setRequest i v).pwr = s.pwr := rfl
@[simp] theorem setRequest_boot (i : Nat) (v : Request) : (s.setRequest i v).boot = s.boot := rfl
@[simp] theorem setRequest_fab (i : Nat) (v : Request) : (s.setRequest i v).fab = s.fab := rfl
@[simp] theorem setRequest_twin (i : Nat) (v : Request) : (s.setRequest i v).twin = s.twin := rfl
@[simp] theorem setRequest_obs (i : Nat) (v : Request) : (s.setRequest i v).obs = s.obs := rfl
@[simp] theorem setRequest_free (i : Nat) (v : Request) : (s.setRequest i v).free = s.free := rfl
@[simp] theorem setRequest_out (i : Nat) (v : Request) : (s.setRequest i v).out = s.out := rfl
@[simp] theorem setRequest_pending (i : Nat) (v : Request) : (s.setRequest i v).pending = s.pending := rfl

/-! ### setTensor -/

@[simp] theorem setTensor_bar (h : Nat) (v : Tensor) : (s.setTensor h v).bar = s.bar := rfl
@[simp] theorem setTensor_counter (h : Nat) (v : Tensor) : (s.setTensor h v).counter = s.counter := rfl
@[simp] theorem setTensor_host (h : Nat) (v : Tensor) : (s.setTensor h v).host = s.host := rfl
@[simp] theorem setTensor_tiles (h : Nat) (v : Tensor) : (s.setTensor h v).tiles = s.tiles := rfl
@[simp] theorem setTensor_pods (h : Nat) (v : Tensor) : (s.setTensor h v).pods = s.pods := rfl
@[simp] theorem setTensor_routers (h : Nat) (v : Tensor) : (s.setTensor h v).routers = s.routers := rfl
@[simp] theorem setTensor_srv (h : Nat) (v : Tensor) : (s.setTensor h v).srv = s.srv := rfl
@[simp] theorem setTensor_flash (h : Nat) (v : Tensor) : (s.setTensor h v).flash = s.flash := rfl
@[simp] theorem setTensor_sched (h : Nat) (v : Tensor) : (s.setTensor h v).sched = s.sched := rfl
@[simp] theorem setTensor_pwr (h : Nat) (v : Tensor) : (s.setTensor h v).pwr = s.pwr := rfl
@[simp] theorem setTensor_boot (h : Nat) (v : Tensor) : (s.setTensor h v).boot = s.boot := rfl
@[simp] theorem setTensor_fab (h : Nat) (v : Tensor) : (s.setTensor h v).fab = s.fab := rfl
@[simp] theorem setTensor_twin (h : Nat) (v : Tensor) : (s.setTensor h v).twin = s.twin := rfl
@[simp] theorem setTensor_obs (h : Nat) (v : Tensor) : (s.setTensor h v).obs = s.obs := rfl
@[simp] theorem setTensor_free (h : Nat) (v : Tensor) : (s.setTensor h v).free = s.free := rfl
@[simp] theorem setTensor_out (h : Nat) (v : Tensor) : (s.setTensor h v).out = s.out := rfl
@[simp] theorem setTensor_pending (h : Nat) (v : Tensor) : (s.setTensor h v).pending = s.pending := rfl

/-! ### setPort -/

@[simp] theorem setPort_bar (p : Nat) (v : PortState) : (s.setPort p v).bar = s.bar := rfl
@[simp] theorem setPort_counter (p : Nat) (v : PortState) : (s.setPort p v).counter = s.counter := rfl
@[simp] theorem setPort_host (p : Nat) (v : PortState) : (s.setPort p v).host = s.host := rfl
@[simp] theorem setPort_tiles (p : Nat) (v : PortState) : (s.setPort p v).tiles = s.tiles := rfl
@[simp] theorem setPort_pods (p : Nat) (v : PortState) : (s.setPort p v).pods = s.pods := rfl
@[simp] theorem setPort_routers (p : Nat) (v : PortState) : (s.setPort p v).routers = s.routers := rfl
@[simp] theorem setPort_srv (p : Nat) (v : PortState) : (s.setPort p v).srv = s.srv := rfl
@[simp] theorem setPort_tier (p : Nat) (v : PortState) : (s.setPort p v).tier = s.tier := rfl
@[simp] theorem setPort_flash (p : Nat) (v : PortState) : (s.setPort p v).flash = s.flash := rfl
@[simp] theorem setPort_sched (p : Nat) (v : PortState) : (s.setPort p v).sched = s.sched := rfl
@[simp] theorem setPort_pwr (p : Nat) (v : PortState) : (s.setPort p v).pwr = s.pwr := rfl
@[simp] theorem setPort_boot (p : Nat) (v : PortState) : (s.setPort p v).boot = s.boot := rfl
@[simp] theorem setPort_twin (p : Nat) (v : PortState) : (s.setPort p v).twin = s.twin := rfl
@[simp] theorem setPort_obs (p : Nat) (v : PortState) : (s.setPort p v).obs = s.obs := rfl
@[simp] theorem setPort_free (p : Nat) (v : PortState) : (s.setPort p v).free = s.free := rfl
@[simp] theorem setPort_out (p : Nat) (v : PortState) : (s.setPort p v).out = s.out := rfl
@[simp] theorem setPort_pending (p : Nat) (v : PortState) : (s.setPort p v).pending = s.pending := rfl

/-! ### A free value taken -/

@[simp] theorem fresh_bar : s.fresh.2.bar = s.bar := rfl
@[simp] theorem fresh_counter : s.fresh.2.counter = s.counter := rfl
@[simp] theorem fresh_host : s.fresh.2.host = s.host := rfl
@[simp] theorem fresh_tiles : s.fresh.2.tiles = s.tiles := rfl
@[simp] theorem fresh_pods : s.fresh.2.pods = s.pods := rfl
@[simp] theorem fresh_routers : s.fresh.2.routers = s.routers := rfl
@[simp] theorem fresh_srv : s.fresh.2.srv = s.srv := rfl
@[simp] theorem fresh_tier : s.fresh.2.tier = s.tier := rfl
@[simp] theorem fresh_flash : s.fresh.2.flash = s.flash := rfl
@[simp] theorem fresh_sched : s.fresh.2.sched = s.sched := rfl
@[simp] theorem fresh_pwr : s.fresh.2.pwr = s.pwr := rfl
@[simp] theorem fresh_boot : s.fresh.2.boot = s.boot := rfl
@[simp] theorem fresh_fab : s.fresh.2.fab = s.fab := rfl
@[simp] theorem fresh_twin : s.fresh.2.twin = s.twin := rfl
@[simp] theorem fresh_obs : s.fresh.2.obs = s.obs := rfl
@[simp] theorem fresh_out : s.fresh.2.out = s.out := rfl
@[simp] theorem fresh_pending : s.fresh.2.pending = s.pending := rfl
@[simp] theorem fresh_free : s.fresh.2.free = s.free + 1 := rfl

/-! ### The memories of the DRAM tiers -/

@[simp] theorem setMem_bar (d : Bool) (m : Tab Byte) : (s.setMem d m).bar = s.bar := by cases d <;> rfl
@[simp] theorem setMem_counter (d : Bool) (m : Tab Byte) : (s.setMem d m).counter = s.counter := by cases d <;> rfl
@[simp] theorem setMem_host (d : Bool) (m : Tab Byte) : (s.setMem d m).host = s.host := by cases d <;> rfl
@[simp] theorem setMem_tiles (d : Bool) (m : Tab Byte) : (s.setMem d m).tiles = s.tiles := by cases d <;> rfl
@[simp] theorem setMem_pods (d : Bool) (m : Tab Byte) : (s.setMem d m).pods = s.pods := by cases d <;> rfl
@[simp] theorem setMem_routers (d : Bool) (m : Tab Byte) : (s.setMem d m).routers = s.routers := by cases d <;> rfl
@[simp] theorem setMem_srv (d : Bool) (m : Tab Byte) : (s.setMem d m).srv = s.srv := by cases d <;> rfl
@[simp] theorem setMem_flash (d : Bool) (m : Tab Byte) : (s.setMem d m).flash = s.flash := by cases d <;> rfl
@[simp] theorem setMem_sched (d : Bool) (m : Tab Byte) : (s.setMem d m).sched = s.sched := by cases d <;> rfl
@[simp] theorem setMem_pwr (d : Bool) (m : Tab Byte) : (s.setMem d m).pwr = s.pwr := by cases d <;> rfl
@[simp] theorem setMem_boot (d : Bool) (m : Tab Byte) : (s.setMem d m).boot = s.boot := by cases d <;> rfl
@[simp] theorem setMem_fab (d : Bool) (m : Tab Byte) : (s.setMem d m).fab = s.fab := by cases d <;> rfl
@[simp] theorem setMem_twin (d : Bool) (m : Tab Byte) : (s.setMem d m).twin = s.twin := by cases d <;> rfl
@[simp] theorem setMem_obs (d : Bool) (m : Tab Byte) : (s.setMem d m).obs = s.obs := by cases d <;> rfl
@[simp] theorem setMem_free (d : Bool) (m : Tab Byte) : (s.setMem d m).free = s.free := by cases d <;> rfl
@[simp] theorem setMem_out (d : Bool) (m : Tab Byte) : (s.setMem d m).out = s.out := by cases d <;> rfl
@[simp] theorem setMem_pending (d : Bool) (m : Tab Byte) : (s.setMem d m).pending = s.pending := by cases d <;> rfl
@[simp] theorem setMem_mem (d : Bool) (m : Tab Byte) : (s.setMem d m).mem d = m := by cases d <;> rfl
@[simp] theorem setMem_other (d : Bool) (m : Tab Byte) : (s.setMem d m).mem (!d) = s.mem (!d) := by cases d <;> rfl

/-! ### What an update writes, read back -/

/-- The recorder's clear acts on the register words through `clearRecorder` alone. -/
theorem clearRecords_word (o : Nat) : (clearRecords s).word o = (if s.obs.loaded then clearRecorder s else s).word o := rfl

theorem setWord_word (off o : Nat) (v : Word) : (s.setWord off v).word o = if o = off then v else s.word o := by
  unfold State.word State.setWord
  by_cases h : o = off
  · subst h; simp
  · rw [if_neg h]
    have h2 : ∀ d : Word, tget (tput s.bar off v (regReset off)) o d = tget s.bar o d := by
      intro d
      unfold tput
      split
      · rw [tget_tdel, if_neg h]
      · rw [tget_tins _ _ _ _ _ (mem_tdel _ _), if_neg h, tget_tdel, if_neg h]
    exact h2 _

theorem wr32_word (off o v : Nat) : (s.wr32 off v).word o = if o = off then BitVec.ofNat 32 v else s.word o :=
  setWord_word s off o _

@[simp] theorem setTile_tile (t : Nat) (v : Tile) : (s.setTile t v).tile t = v := tget_tput_same ..
theorem setTile_tile_ne (t u : Nat) (v : Tile) (h : u ≠ t) : (s.setTile t v).tile u = s.tile u := tget_tput_ne _ _ _ _ _ h
@[simp] theorem setPod_pod (p : Nat) (v : Pod) : (s.setPod p v).pod p = v := tget_tput_same ..
theorem setPod_pod_ne (p q : Nat) (v : Pod) (h : q ≠ p) : (s.setPod p v).pod q = s.pod q := tget_tput_ne _ _ _ _ _ h
@[simp] theorem setHull_hull (h : Nat) (v : Hull) : (s.setHull h v).hull h = v := tget_tput_same ..
theorem setHull_hull_ne (h k : Nat) (v : Hull) (e : k ≠ h) : (s.setHull h v).hull k = s.hull k := tget_tput_ne _ _ _ _ _ e
@[simp] theorem setSlot_slot (i : Nat) (v : Slot) : (s.setSlot i v).slot i = v := tget_tput_same ..
theorem setSlot_slot_ne (i j : Nat) (v : Slot) (h : j ≠ i) : (s.setSlot i v).slot j = s.slot j := tget_tput_ne _ _ _ _ _ h
@[simp] theorem setRequest_request (i : Nat) (v : Request) : (s.setRequest i v).request i = v := tget_tput_same ..
theorem setRequest_request_ne (i j : Nat) (v : Request) (h : j ≠ i) :
    (s.setRequest i v).request j = s.request j := tget_tput_ne _ _ _ _ _ h
@[simp] theorem setTensor_tensor (h : Nat) (v : Tensor) : (s.setTensor h v).tensor h = v := tget_tput_same ..
theorem setTensor_tensor_ne (h k : Nat) (v : Tensor) (e : k ≠ h) :
    (s.setTensor h v).tensor k = s.tensor k := tget_tput_ne _ _ _ _ _ e
@[simp] theorem setPort_port (p : Nat) (v : PortState) : (s.setPort p v).port p = v := tget_tput_same ..
theorem setPort_port_ne (p q : Nat) (v : PortState) (h : q ≠ p) : (s.setPort p v).port q = s.port q := tget_tput_ne _ _ _ _ _ h
@[simp] theorem setRouter_router (t : Nat) (v : Router) : (s.setRouter t v).router t = v := tget_tput_same ..
@[simp] theorem setLatch_latch (fn : Nat) (l : Latch) : (s.setLatch fn l).latch fn = l := tget_tput_same ..
theorem setLatch_latch_ne (fn g : Nat) (l : Latch) (h : g ≠ fn) : (s.setLatch fn l).latch g = s.latch g := tget_tput_ne _ _ _ _ _ h
@[simp] theorem setBuffer_buffer (fn : Nat) (l : Latch) : (s.setBuffer fn l).buffer fn = l := tget_tput_same ..

/-! ### Of two updates of one entry the later one stands -/

@[simp] theorem setTile_setTile (t : Nat) (v w : Tile) : (s.setTile t v).setTile t w = s.setTile t w := by
  simp [State.setTile]
@[simp] theorem setPod_setPod (p : Nat) (v w : Pod) : (s.setPod p v).setPod p w = s.setPod p w := by
  simp [State.setPod]
@[simp] theorem setHull_setHull (h : Nat) (v w : Hull) : (s.setHull h v).setHull h w = s.setHull h w := by
  simp [State.setHull]
@[simp] theorem setSlot_setSlot (i : Nat) (v w : Slot) : (s.setSlot i v).setSlot i w = s.setSlot i w := by
  simp [State.setSlot]
@[simp] theorem setRequest_setRequest (i : Nat) (v w : Request) : (s.setRequest i v).setRequest i w = s.setRequest i w := by
  simp [State.setRequest]
@[simp] theorem setTensor_setTensor (h : Nat) (v w : Tensor) : (s.setTensor h v).setTensor h w = s.setTensor h w := by
  simp [State.setTensor]
@[simp] theorem setPort_setPort (p : Nat) (v w : PortState) : (s.setPort p v).setPort p w = s.setPort p w := by
  simp [State.setPort]
@[simp] theorem setRouter_setRouter (t : Nat) (v w : Router) : (s.setRouter t v).setRouter t w = s.setRouter t w := by
  simp [State.setRouter]
@[simp] theorem setLatch_setLatch (fn : Nat) (v w : Latch) : (s.setLatch fn v).setLatch fn w = s.setLatch fn w := by
  simp [State.setLatch]
@[simp] theorem setBuffer_setBuffer (fn : Nat) (v w : Latch) : (s.setBuffer fn v).setBuffer fn w = s.setBuffer fn w := by
  simp [State.setBuffer]

end Sys2Proof.Machine
end

