-- ==== Sys2Proof/Laws/Keeps.lean ====
section
/-! SUPPORT. What no operation of the block does: touch the queue, take back what has left, give a free value back, step the
counter back, or leave a memory out of its canonical form. The relation holds of every shared operation, and runs of it compose. -/

set_option Elab.async false

namespace Sys2Proof.Machine

/-- From `s` to `t` the queue stays, what has left the block stays, free values are only taken, canonical memories stay
canonical, and the step counter does not go back. -/
structure Keeps (s t : State) : Prop where
  pending : t.pending = s.pending
  out     : s.out <+: t.out
  free    : s.free ≤ t.free
  mems    : memoriesWf s = true → memoriesWf t = true
  counter : s.counter.toNat ≤ t.counter.toNat

theorem advanceTo_counter (v : Nat) (s : State) : s.counter.toNat ≤ (advanceTo v s).counter.toNat := by
  have h : s.counter.toNat < 2 ^ 64 := s.counter.isLt
  have hm : min (2 ^ 64 - 1) (max s.counter.toNat v) < 2 ^ 64 := by omega
  simp only [advanceTo, BitVec.toNat_ofNat, Nat.mod_eq_of_lt hm]
  omega

namespace Keeps

theorem refl (s : State) : Keeps s s := ⟨rfl, List.prefix_refl _, Nat.le_refl _, id, Nat.le_refl _⟩

theorem trans {s t u : State} (a : Keeps s t) (b : Keeps t u) : Keeps s u :=
  ⟨b.pending.trans a.pending, a.out.trans b.out, Nat.le_trans a.free b.free, b.mems ∘ a.mems,
    Nat.le_trans a.counter b.counter⟩

/-- An update that leaves the queue, the record of what leaves, the counts and the memories. -/
theorem of_eq {s t u : State} (h : Keeps s t) (p : u.pending = t.pending) (o : u.out = t.out) (f : u.free = t.free)
    (m : memoriesWf u = memoriesWf t) (c : u.counter = t.counter := by rfl) : Keeps s u :=
  h.trans ⟨p, o ▸ List.prefix_refl _, f ▸ Nat.le_refl _, fun x => m ▸ x, c ▸ Nat.le_refl _⟩

/-- A fold of an operation that keeps. -/
theorem foldl {α : Type} {g : State → α → State} {s t : State} (hg : ∀ u x, Keeps u (g u x)) (l : List α)
    (h : Keeps s t) : Keeps s (l.foldl g t) := by
  induction l generalizing t with
  | nil => exact h
  | cons x l ih => exact ih (h.trans (hg t x))

theorem iterate {g : State → State} {s t : State} (hg : ∀ u, Keeps u (g u)) (n : Nat) (h : Keeps s t) :
    Keeps s (Machine.iterate g n t) := by
  induction n generalizing t with
  | zero => exact h
  | succ n ih => exact ih (h.trans (hg t))

variable {s t : State}

/-! ### Registers, flags and parts of the state -/

theorem setWord (h : Keeps s t) (off : Nat) (v : Word) : Keeps s (t.setWord off v) := h.of_eq rfl rfl rfl rfl
theorem wr32 (h : Keeps s t) (off v : Nat) : Keeps s (t.wr32 off v) := h.of_eq rfl rfl rfl rfl
theorem wr64 (h : Keeps s t) (off v : Nat) : Keeps s (t.wr64 off v) := h.of_eq rfl rfl rfl rfl
theorem wr (h : Keeps s t) (f : Fld) (v : Nat) : Keeps s (t.wr f v) := h.of_eq rfl rfl rfl rfl
theorem wrB (h : Keeps s t) (f : Fld) (b : Bool) : Keeps s (t.wrB f b) := h.of_eq rfl rfl rfl rfl
theorem addSat (h : Keeps s t) (off n : Nat) : Keeps s (t.addSat off n) := h.of_eq rfl rfl rfl rfl
theorem addWrap (h : Keeps s t) (off n : Nat) : Keeps s (t.addWrap off n) := h.of_eq rfl rfl rfl rfl
theorem add64 (h : Keeps s t) (off n : Nat) : Keeps s (t.add64 off n) := h.of_eq rfl rfl rfl rfl
theorem setCompanion (h : Keeps s t) (off b : Nat) (v : BitVec 16) : Keeps s (t.setCompanion off b v) :=
  h.of_eq rfl rfl rfl rfl
theorem raise (h : Keeps s t) (off b : Nat) : Keeps s (t.raise off b) := h.of_eq rfl rfl rfl rfl

theorem swWrite (h : Keeps s t) (off : Nat) (v : Word) (fs : List (Nat × Nat)) : Keeps s (t.swWrite off v fs) := by
  unfold State.swWrite
  apply foldl _ _ (h.wr32 _ _)
  intro u x
  split
  · exact (refl u).raise _ _
  · exact refl u

theorem fresh (h : Keeps s t) : Keeps s t.fresh.2 :=
  h.trans ⟨rfl, List.prefix_refl _, Nat.le_succ _, id, Nat.le_refl _⟩

theorem emit (h : Keeps s t) (o : Out) : Keeps s (t.emit o) :=
  h.trans ⟨rfl, List.prefix_append _ _, Nat.le_refl _, id, Nat.le_refl _⟩

theorem setTile (h : Keeps s t) (k : Nat) (v : Tile) : Keeps s (t.setTile k v) := h.of_eq rfl rfl rfl rfl
theorem setPod (h : Keeps s t) (k : Nat) (v : Pod) : Keeps s (t.setPod k v) := h.of_eq rfl rfl rfl rfl
theorem setEngine (h : Keeps s t) (p e : Nat) (v : Engine) : Keeps s (t.setEngine p e v) := h.of_eq rfl rfl rfl rfl
theorem setRouter (h : Keeps s t) (k : Nat) (v : Router) : Keeps s (t.setRouter k v) := h.of_eq rfl rfl rfl rfl
theorem setHull (h : Keeps s t) (k : Nat) (v : Hull) : Keeps s (t.setHull k v) := h.of_eq rfl rfl rfl rfl
theorem setSlot (h : Keeps s t) (k : Nat) (v : Slot) : Keeps s (t.setSlot k v) := h.of_eq rfl rfl rfl rfl
theorem setRequest (h : Keeps s t) (k : Nat) (v : Request) : Keeps s (t.setRequest k v) := h.of_eq rfl rfl rfl rfl
theorem setTensor (h : Keeps s t) (k : Nat) (v : Tensor) : Keeps s (t.setTensor k v) := h.of_eq rfl rfl rfl rfl
theorem setPort (h : Keeps s t) (k : Nat) (v : PortState) : Keeps s (t.setPort k v) := h.of_eq rfl rfl rfl rfl
theorem setRingAux (h : Keeps s t) (k : Nat) (v : RingAux) : Keeps s (t.setRingAux k v) := h.of_eq rfl rfl rfl rfl

/-- A DRAM tier's memory replaced by a canonical one. -/
theorem setMem (h : Keeps s t) (d : Bool) (m : Tab Byte) (hm : Memory.wf (t.mem d) = true → Memory.wf m = true) :
    Keeps s (t.setMem d m) := by
  refine h.trans ⟨by cases d <;> rfl, by cases d <;> exact List.prefix_refl _, by cases d <;> exact Nat.le_refl _, ?_, by cases d <;> exact Nat.le_refl _⟩
  intro w
  cases d <;> simp_all [memoriesWf, State.setMem, State.mem]

/-! ### Interrupts, records, the log and completions -/

theorem signalMsi (h : Keeps s t) (fn v : Nat) : Keeps s (t.signalMsi fn v) := by
  unfold State.signalMsi
  split
  · exact h.of_eq rfl rfl rfl rfl
  · exact h.emit _

theorem signalVector (h : Keeps s t) (fn v : Nat) : Keeps s (Machine.signalVector fn v t) :=
  of_eq (t := t.signalMsi fn v) (h.signalMsi _ _) rfl rfl rfl rfl

theorem endSampling (h : Keeps s t) : Keeps s t.endSampling := h.wr _ _

theorem writeRecord (h : Keeps s t) (r : Record) : Keeps s (Machine.writeRecord r t) := by
  unfold Machine.writeRecord
  extract_lets n _ a b c d e
  have ka : Keeps s a := of_eq (t := t) h rfl rfl rfl rfl
  have kb : Keeps s b := ka.wr _ _
  have kc : Keeps s c := by
    unfold c
    split
    · exact (kb.wr _ _).raise _ _
    · exact kb
  have kd : Keeps s d := (kc.raise _ _).wr _ _
  have ke : Keeps s e := by
    unfold e
    split
    · split
      · exact (kd.endSampling).raise _ _
      · exact kd
    · exact kc
  split
  · exact ke.signalVector _ _
  · exact ke

theorem recordAt (h : Keeps s t) (stamp : DWord) (code : Nat) (hu te : Option Nat) (pl : BitVec 768) :
    Keeps s (Machine.recordAt stamp code hu te pl t) := by
  unfold Machine.recordAt
  split
  · exact h.addSat _ _
  · split
    · exact h.addSat _ _
    · split
      · extract_lets a
        have ka : Keeps s a := by
          show Keeps s (if _ then _ else _)
          split
          · exact h.wr64 _ _
          · exact h
        exact ka.addSat _ _
      · exact h.writeRecord _

theorem recordEvent (h : Keeps s t) (code : Nat) (hu te : Option Nat) (pl : BitVec 768) :
    Keeps s (Machine.recordEvent code hu te pl t) := by
  unfold Machine.recordEvent
  split
  · exact h.recordAt ..
  · exact h.of_eq rfl rfl rfl rfl

theorem accessViolation (h : Keeps s t) (fn bar width off : Nat) (w : Bool) :
    Keeps s (Machine.accessViolation fn bar width off w t) := h.recordEvent ..

theorem dmaErrorEvent (h : Keeps s t) (addr fn source : Nat) : Keeps s (Machine.dmaErrorEvent addr fn source t) :=
  h.recordEvent ..

theorem logGenerate (h : Keeps s t) (kind id len : Nat) (body : BitVec 384) :
    Keeps s (Machine.logGenerate kind id len body t) := by
  unfold Machine.logGenerate
  extract_lets n _ a _ b
  have ka : Keeps s a := of_eq (t := t) h rfl rfl rfl rfl
  have kb : Keeps s b := of_eq (t := a) ka rfl rfl rfl rfl
  split
  · exact (kb.addSat _ _).raise _ _
  · exact of_eq (t := a) ka rfl rfl rfl rfl

theorem trace (h : Keeps s t) (p : Nat) (args : List Nat) : Keeps s (Machine.trace p args t) := by
  unfold Machine.trace
  split
  · extract_lets a
    have ka : Keeps s a := h.addSat _ _
    split
    · exact ka.addSat _ _
    · refine logGenerate ?_ _ _ _ _
      exact of_eq (t := a) ka rfl rfl rfl rfl
  · exact h

theorem coalesce (h : Keeps s t) (ring : Nat) : Keeps s (Machine.coalesce ring t) := by
  unfold Machine.coalesce
  extract_lets a b
  have kb : Keeps s b := h.setRingAux _ _
  split
  · exact kb.signalVector _ _
  · exact kb

theorem writeCompletion (h : Keeps s t) (ring : Nat) (q : Bool) (raw : Bool → BitVec 256) :
    Keeps s (Machine.writeCompletion ring q raw t) := by
  unfold Machine.writeCompletion
  extract_lets n a k slot phase b c d e f
  have kb : Keeps s b := h.emit _
  have kc : Keeps s c := kb.setRingAux _ _
  have kd : Keeps s d := kc.wr _ _
  have ke : Keeps s e := kd.wr _ _
  have kf : Keeps s f := ke.wrB _ _
  split
  · exact kf
  · exact kf.coalesce _

theorem completeAt (h : Keeps s t) (ring : Nat) (e : BitVec 512) (status progress step detail : Nat) :
    Keeps s (Machine.completeAt ring e status progress step detail t) := by
  unfold Machine.completeAt
  dsimp only
  split
  · exact h.trace _ _
  · exact (h.trace _ _).writeCompletion _ _ _

theorem complete (h : Keeps s t) (ring : Nat) (e : BitVec 512) (status progress detail : Nat) :
    Keeps s (Machine.complete ring e status progress detail t) := h.completeAt ..

theorem done (h : Keeps s t) (c : Cmd) (status progress detail : Nat) : Keeps s (c.done status progress detail t) :=
  h.complete ..

theorem dmaOut (h : Keeps s t) (fn addr : Nat) (data : List Byte) : Keeps s (Machine.dmaOut fn addr data t) := by
  unfold Machine.dmaOut
  split
  · exact h
  · exact h.emit _

theorem dmaIn (h : Keeps s t) (fn addr len : Nat) (use : DmaUse) : Keeps s (Machine.dmaIn fn addr len use t) := by
  unfold Machine.dmaIn
  dsimp only
  split
  · refine emit ?_ _
    exact of_eq (t := t) h rfl rfl rfl rfl
  · exact of_eq (t := t) h rfl rfl rfl rfl

theorem issueHeld (h : Keeps s t) : Keeps s (Machine.issueHeld t) := by
  unfold Machine.issueHeld
  split
  · exact h
  · split
    · exact h
    · dsimp only
      refine emit ?_ _
      exact of_eq (t := t) h rfl rfl rfl rfl

theorem dropReads (h : Keeps s t) (p : DmaRead → Bool) : Keeps s (Machine.dropReads p t) := by
  unfold Machine.dropReads
  dsimp only
  refine iterate (fun u => (refl u).issueHeld) _ ?_
  exact of_eq (t := t) h rfl rfl rfl rfl

/-! ### Husk's queue -/

theorem takeFetched (h : Keeps s t) (f : Fetched) : Keeps s (Machine.takeFetched f t) := by
  unfold Machine.takeFetched
  refine trace ?_ _ _
  exact of_eq (t := t) h rfl rfl rfl rfl

theorem rejectNext (h : Keeps s t) : Keeps s (Machine.rejectNext t) := by
  unfold Machine.rejectNext
  split
  · exact h
  · dsimp only
    split
    · exact h
    · exact (h.takeFetched _).done ..

theorem rejectUndefined (h : Keeps s t) : Keeps s (Machine.rejectUndefined t) :=
  iterate (fun u => (refl u).rejectNext) _ h

/-- A command taken from Husk's queue. -/
theorem takeCmd {op ring : Nat} {f : Fetched} (e : Machine.takeCmd op ring s = some (f, t)) : Keeps s t := by
  unfold Machine.takeCmd at e
  split at e
  · cases e
  · split at e
    · cases e
    · injection e with e
      injection e with _ e
      exact e ▸ (refl s).takeFetched _

/-- A held command whose turn has come. -/
theorem startHeld {op ring : Nat} {c : Cmd} (e : Machine.startHeld op ring s = some (c, t)) : Keeps s t := by
  unfold Machine.startHeld at e
  split at e
  · cases e
  · split at e
    · cases e
    · injection e with e
      injection e with _ e
      subst e
      exact of_eq (t := s) (refl s) rfl rfl rfl rfl

/-- The command that Husk carries out next. -/
theorem taken {op ring : Nat} {c : Cmd} (e : Machine.taken op ring s = some (c, t)) : Keeps s t := by
  unfold Machine.taken at e
  split at e
  · rename_i x g
    injection e with e
    subst e
    exact startHeld g
  · split at e
    · cases e
    · rename_i g
      split at e
      · cases e
      · injection e with e
        injection e with _ e
        exact e ▸ takeCmd g

end Keeps

/-! ### Host commands -/

/-- Everything that a host command can do once the undefined opcodes before it are answered: nothing, its entry held for its
turn, a completion with the status of a failed check, or its body. -/
theorem hostCommand_cases {op ring : Nat} {b : Cmd → State → State} {s u : State}
    (h : hostCommand op ring b s = .next u) :
    (taken op ring (rejectUndefined s) = none ∧ (u = rejectUndefined s
      ∨ ∃ f t, takeCmd op ring (rejectUndefined s) = some (f, t) ∧ groupWaits t op = true
        ∧ u = { t with host := { t.host with held := t.host.held ++ [f] } }))
    ∨ (∃ c t f, taken op ring (rejectUndefined s) = some (c, t) ∧ accept c t = some f ∧ u = c.done f.1 0 f.2 t)
    ∨ (∃ c t, ready op ring s c t ∧ u = b c t) := by
  have run : ∀ c t, taken op ring (rejectUndefined s) = some (c, t) → u = runCmd b c t →
      (∃ c t f, taken op ring (rejectUndefined s) = some (c, t) ∧ accept c t = some f ∧ u = c.done f.1 0 f.2 t)
      ∨ (∃ c t, ready op ring s c t ∧ u = b c t) := by
    intro c t e g
    unfold runCmd at g
    split at g
    · rename_i f k; exact .inl ⟨c, t, f, e, k, g⟩
    · rename_i k; exact .inr ⟨c, t, ⟨e, k⟩, g⟩
  unfold hostCommand at h
  dsimp only at h
  split at h
  · rename_i c t e
    injection h with h
    exact .inr (run c t (by simp [taken, e]) h.symm)
  · rename_i e
    split at h
    · rename_i g
      injection h with h
      exact .inl ⟨by simp [taken, e, g], .inl h.symm⟩
    · rename_i f t g
      split at h
      · rename_i w
        injection h with h
        exact .inl ⟨by simp [taken, e, g, w], .inr ⟨f, t, g, w, h.symm⟩⟩
      · rename_i w
        injection h with h
        exact .inr (run _ t (by simp [taken, e, g, w]) h.symm)

/-- A command that is taken and accepted runs its body. -/
theorem hostCommand_ready {op ring : Nat} {s t : State} {c : Cmd} {b : Cmd → State → State} (h : ready op ring s c t) :
    hostCommand op ring b s = .next (b c t) := by
  have ⟨h, a⟩ := h
  have r : runCmd b c t = b c t := by simp [runCmd, a]
  unfold taken at h
  unfold hostCommand
  dsimp only
  split at h
  · rename_i x e
    injection h with h
    subst h
    simp only [e, r]
  · rename_i e
    split at h
    · cases h
    · rename_i f u g
      split at h
      · cases h
      · rename_i w
        injection h with h
        injection h with hc ht
        subst ht
        subst hc
        simp only [e, g, r]
        rw [if_neg w]

/-- A host command keeps if its body does. -/
theorem hostCommand_keeps {op ring : Nat} {b : Cmd → State → State} {s u : State} (hb : ∀ c t, Keeps t (b c t))
    (h : hostCommand op ring b s = .next u) : Keeps s u := by
  have r : Keeps s (rejectUndefined s) := (Keeps.refl s).rejectUndefined
  rcases hostCommand_cases h with ⟨_, rfl | ⟨f, t, e, _, rfl⟩⟩ | ⟨c, t, f, e, _, rfl⟩ | ⟨c, t, e, rfl⟩
  · exact r
  · exact Keeps.of_eq (t := t) (r.trans (Keeps.takeCmd e)) rfl rfl rfl rfl
  · exact (r.trans (Keeps.taken e)).done ..
  · exact (r.trans (Keeps.taken e.1)).trans (hb c t)

/-- Every step keeps what every command keeps: the queue loses its front command alone. POWER_GOOD alone starts the counter anew. -/
theorem step_of_exec {s t : State} (he : ∀ c u v, c ≠ .powerGood → exec c u = .next v → Keeps u v)
    (hp : ∀ u v, exec .powerGood u = .next v → Keeps { u with counter := 0 } v) (h : step s = .next t) :
    t.pending = s.pending.tail ∧ s.out <+: t.out ∧ s.free ≤ t.free ∧ (memoriesWf s = true → memoriesWf t = true) ∧
      (s.pending.head? ≠ some .powerGood → s.counter.toNat ≤ t.counter.toNat) := by
  unfold step at h
  split at h
  · rename_i e; injection h with h; subst h
    exact ⟨by simp [e], List.prefix_refl _, Nat.le_refl _, id, fun _ => Nat.le_refl _⟩
  · rename_i c rest e
    by_cases p : c = .powerGood
    · subst p
      have k := hp _ _ h
      exact ⟨by rw [k.pending, e]; rfl, k.out, k.free, k.mems, fun x => absurd (by rw [e]; rfl) x⟩
    · have k := he _ _ _ p h
      exact ⟨by rw [k.pending, e]; rfl, k.out, k.free, k.mems, fun _ => k.counter⟩

end Sys2Proof.Machine
end

