-- ==== Sys2Proof/Laws/KeepsTier.lean ====
section
/-! SUPPORT. What no operation of the block does, said once for each operation of the flags, the memory tiers, placement, the mesh, the schedule, operand reads, descriptors and requests:
a shared operation keeps, and a command answers only what keeps. -/

namespace Sys2Proof.Machine
/-- Every next state that an answer can be keeps. -/
structure Answers (s : State) (r : Result) : Prop where
  keeps : ∀ t, r = .next t → Keeps s t
namespace Keeps
theorem ite {s a b : State} {c : Prop} [Decidable c] (ha : Keeps s a) (hb : Keeps s b) : Keeps s (if c then a else b) := by
  split <;> assumption
theorem ans {s t : State} (h : Keeps s t) : Answers s (.next t) := by
  exact ⟨fun u e => by injection e with e; exact e ▸ h⟩
theorem ansRefused {s : State} (r : Refusal) : Answers s (.refused r) := by
  exact ⟨fun u e => by injection e⟩
theorem ansIte {s : State} {a b : Result} {c : Prop} [Decidable c] (ha : Answers s a) (hb : Answers s b) :
    Answers s (if c then a else b) := by
  split <;> assumption
theorem hostCmd {op ring : Nat} {b : Cmd → State → State} {s : State} (hb : ∀ c t, Keeps t (b c t)) :
    Answers s (hostCommand op ring b s) := ⟨fun _ h => hostCommand_keeps hb h⟩
/-- A state written out over another: the queue, the record and the memories are that state's. -/
theorem lit {s t : State} {bar host tiles pods routers srv} {te : TierState} {fl : Flash}
    {sched pwr boot fab twin obs} (h : Keeps s t) (n : te.nmem = t.tier.nmem) (d : te.dmem = t.tier.dmem)
    (f : fl.fmem = t.flash.fmem) :
    Keeps s ⟨bar, t.counter, host, tiles, pods, routers, srv, te, fl, sched, pwr, boot, fab, twin, obs, t.free, t.out, t.pending⟩ :=
  h.of_eq rfl rfl rfl (by simp only [memoriesWf, n, d, f])
theorem litFree {s t : State} {bar host tiles pods routers srv} {te : TierState} {fl : Flash}
    {sched pwr boot fab twin obs k} (h : Keeps s t) (n : te.nmem = t.tier.nmem) (d : te.dmem = t.tier.dmem)
    (f : fl.fmem = t.flash.fmem) :
    Keeps s ⟨bar, t.counter, host, tiles, pods, routers, srv, te, fl, sched, pwr, boot, fab, twin, obs, t.free + k, t.out, t.pending⟩ :=
  h.trans ⟨rfl, List.prefix_refl _, Nat.le_add_right _ _, fun x => by simp only [memoriesWf, n, d, f] at *; exact x, Nat.le_refl _⟩
theorem iteSnd {α : Type} {s : State} {a b : α × State} {c : Prop} [Decidable c] (ha : Keeps s a.2) (hb : Keeps s b.2) :
    Keeps s (if c then a else b).2 := by
  split <;> assumption
theorem iteAns {s : State} {a b : Ans} {c : Prop} [Decidable c] (ha : Keeps s a.s) (hb : Keeps s b.s) :
    Keeps s (if c then a else b).s := by
  split <;> assumption
theorem foldSnd {α β : Type} {g : α × State → β → α × State} {s : State} {a : α × State} {l : List β}
    (hg : ∀ b x, Keeps b.2 (g b x).2) (h : Keeps s a.2) : Keeps s (l.foldl g a).2 := by
  induction l generalizing a with
  | nil => exact h
  | cons x l ih => exact ih (h.trans (hg a x))
theorem foldSnd2 {α β γ : Type} {g : α × γ × State → β → α × γ × State} {s : State} {a : α × γ × State} {l : List β}
    (hg : ∀ b x, Keeps b.2.2 (g b x).2.2) (h : Keeps s a.2.2) : Keeps s (l.foldl g a).2.2 := by
  induction l generalizing a with
  | nil => exact h
  | cons x l ih => exact ih (h.trans (hg a x))
theorem foldOn {α β : Type} {p : β → State} {g : β → α → β} {s : State} {b : β} {l : List α}
    (hg : ∀ b x, Keeps (p b) (p (g b x))) (h : Keeps s (p b)) : Keeps s (p (l.foldl g b)) := by
  induction l generalizing b with
  | nil => exact h
  | cons x l ih => exact ih (h.trans (hg b x))
theorem getD {s t : State} {o : Option State} (ho : ∀ u, o = some u → Keeps s u) (h : Keeps s t) : Keeps s (o.getD t) := by
  cases o with
  | none => exact h
  | some u => exact ho u rfl
theorem sndEq {α : Type} {s u : State} {x : α × State} {a : α} (h : Keeps s x.2) (e : x = (a, u)) : Keeps s u := by
  subst e; exact h
theorem setMemD {s t : State} {m : Tab Byte} (h : Keeps s t) (hm : Memory.wf t.tier.dmem = true → Memory.wf m = true) :
    Keeps s (t.setMem true m) := h.setMem _ _ hm
theorem setMemN {s t : State} {m : Tab Byte} (h : Keeps s t) (hm : Memory.wf t.tier.nmem = true → Memory.wf m = true) :
    Keeps s (t.setMem false m) := h.setMem _ _ hm
/-- A state written out over another with a canonical flash memory. -/
theorem litFlash {s t : State} {bar host tiles pods routers srv} {te : TierState} {fl : Flash}
    {sched pwr boot fab twin obs} (h : Keeps s t) (n : te.nmem = t.tier.nmem) (d : te.dmem = t.tier.dmem)
    (f : Memory.wf t.flash.fmem = true → Memory.wf fl.fmem = true) :
    Keeps s ⟨bar, t.counter, host, tiles, pods, routers, srv, te, fl, sched, pwr, boot, fab, twin, obs, t.free, t.out, t.pending⟩ :=
  h.trans ⟨rfl, List.prefix_refl _, Nat.le_refl _, fun x => by
    simp only [memoriesWf, n, d, Bool.and_eq_true] at *; exact ⟨x.1, f x.2⟩, Nat.le_refl _⟩
/-- A state written out over another with canonical memories of the two DRAM tiers. -/
theorem litTier {s t : State} {bar host tiles pods routers srv} {te : TierState} {fl : Flash}
    {sched pwr boot fab twin obs} (h : Keeps s t) (n : Memory.wf t.tier.nmem = true → Memory.wf te.nmem = true)
    (d : Memory.wf t.tier.dmem = true → Memory.wf te.dmem = true) (f : fl.fmem = t.flash.fmem) :
    Keeps s ⟨bar, t.counter, host, tiles, pods, routers, srv, te, fl, sched, pwr, boot, fab, twin, obs, t.free, t.out, t.pending⟩ :=
  h.trans ⟨rfl, List.prefix_refl _, Nat.le_refl _, fun x => by
    simp only [memoriesWf, f, Bool.and_eq_true] at *; exact ⟨⟨n x.1.1, d x.1.2⟩, x.2⟩, Nat.le_refl _⟩
end Keeps
theorem wf_folds {α : Type} {g : Tab Byte → α → Tab Byte} (hg : ∀ m x, Memory.wf m = true → Memory.wf (g m x) = true)
    (l : List α) (m : Tab Byte) (h : Memory.wf m = true) : Memory.wf (l.foldl g m) = true := by
  induction l generalizing m with
  | nil => exact h
  | cons x l ih => exact ih _ (hg m x h)
theorem wf_putImage (t : Tile) (base : Nat) (m : Tab Byte) (h : Memory.wf m = true) : Memory.wf (putImage t base m) = true := by
  unfold putImage
  exact wf_mwrite _ _ _ (wf_mcopy _ _ _ _ _ (wf_mcopy _ _ _ _ _ (wf_mcopy _ _ _ _ _ h)))
end Sys2Proof.Machine

namespace Sys2Proof.Machine
namespace Keeps

/-! ### Flags -/

theorem raiseN {s0 : State} {s : State} {off b n : Nat}
    (ke : Keeps s0 s) : Keeps s0 (Machine.State.raiseN s off b n) := by
  unfold Machine.State.raiseN
  try dsimp only
  repeat' first
    | with_reducible first
      | exact ke | exact Keeps.refl _ | apply Keeps.ite | apply Keeps.setCompanion | apply Keeps.wr

/-! ### Ops -/

theorem clearCoalescing {s0 : State} {fn vec : Nat} {s : State}
    (ke : Keeps s0 s) : Keeps s0 (Machine.clearCoalescing fn vec s) := by
  unfold Machine.clearCoalescing
  try dsimp only
  repeat' first
    | with_reducible first
      | exact ke | exact Keeps.refl _ | apply Keeps.ite | rfl
    | intro _ | split | with_reducible apply Keeps.lit

theorem clearRecorder {s0 : State} {s : State} (ke : Keeps s0 s) : Keeps s0 (Machine.clearRecorder s) := by
  unfold Machine.clearRecorder
  try dsimp only
  repeat' first
    | with_reducible first
      | exact ke | exact Keeps.refl _ | apply Keeps.addWrap | apply Keeps.wr | apply Keeps.wr32 | apply Keeps.wr64
      | rfl
    | intro _ | split | with_reducible apply Keeps.lit

theorem clearRecords {s0 : State} {s : State} (ke : Keeps s0 s) : Keeps s0 (Machine.clearRecords s) := by
  unfold Machine.clearRecords
  try dsimp only
  repeat' first
    | with_reducible first
      | exact ke | exact Keeps.refl _ | apply Keeps.ite | apply Keeps.clearRecorder | rfl
    | intro _ | split | with_reducible apply Keeps.lit

theorem traceIn {s0 : State} {lo hi : Nat} {args : List Nat} {s : State}
    (ke : Keeps s0 s) : Keeps s0 (Machine.traceIn lo hi args s) := by
  unfold Machine.traceIn
  try dsimp only
  repeat' first
    | with_reducible first
      | exact ke | exact Keeps.refl _ | apply Keeps.ite | apply Keeps.fresh | apply Keeps.trace

theorem hullTrace {s0 : State} {h check : Nat} {s : State}
    (ke : Keeps s0 s) : Keeps s0 (Machine.hullTrace h check s) := by
  unfold Machine.hullTrace
  try dsimp only
  repeat' first
    | with_reducible first
      | exact ke | exact Keeps.refl _ | apply Keeps.traceIn

theorem requestTrace {s0 : State} {q : Request} {s : State}
    (ke : Keeps s0 s) : Keeps s0 (Machine.requestTrace q s) := by
  unfold Machine.requestTrace
  try dsimp only
  repeat' first
    | with_reducible first
      | exact ke | exact Keeps.refl _ | apply Keeps.traceIn

theorem fabricTrace {s0 : State} {n : Nat} {s : State} (ke : Keeps s0 s) : Keeps s0 (Machine.fabricTrace n s) := by
  unfold Machine.fabricTrace
  try dsimp only
  repeat' first
    | with_reducible first
      | exact ke | exact Keeps.refl _ | apply Keeps.traceIn

theorem overPcie {s t : State} (ke : Keeps s t) : Answers s (Machine.overPcie t s) := ans (ite ke (refl s))

/-! ### Link -/

theorem sendOn {s0 : State} {p : Nat} {hull : Option Nat} {x : Packet} {s : State}
    (ke : Keeps s0 s) : Keeps s0 (Machine.sendOn p hull x s) := by
  unfold Machine.sendOn
  try dsimp only
  repeat' first
    | with_reducible first
      | exact ke | exact Keeps.refl _ | apply Keeps.setPort

theorem refreshLag {s0 : State} {s : State} (ke : Keeps s0 s) : Keeps s0 (Machine.refreshLag s) := by
  unfold Machine.refreshLag
  try dsimp only
  repeat' first
    | with_reducible first
      | exact ke | exact Keeps.refl _ | apply Keeps.wr64

theorem sendTwin {s0 : State} {m : TwinMsg} {s : State} (ke : Keeps s0 s) : Keeps s0 (Machine.sendTwin m s) := by
  unfold Machine.sendTwin
  try dsimp only
  repeat' first
    | with_reducible first
      | exact ke | exact Keeps.refl _ | apply Keeps.refreshLag | apply Keeps.sendOn

theorem flood {s0 : State} {x : Packet} {s : State} (ke : Keeps s0 s) : Keeps s0 (Machine.flood x s) := by
  unfold Machine.flood
  try dsimp only
  repeat' first
    | with_reducible first
      | exact ke | exact Keeps.refl _ | apply Keeps.foldl | apply Keeps.sendOn | apply Keeps.foldSnd
      | apply Keeps.foldSnd2 | rfl
    | intro _

/-! ### Tile -/

theorem countCorrected {s0 : State} {p n : Nat} {s : State}
    (ke : Keeps s0 s) : Keeps s0 (Machine.countCorrected p n s) := by
  unfold Machine.countCorrected
  try dsimp only
  repeat' first
    | with_reducible first
      | exact ke | exact Keeps.refl _ | apply Keeps.ite | apply Keeps.addSat | apply Keeps.raiseN

theorem bankConflict {s0 : State} {k b : Nat} {s : State}
    (ke : Keeps s0 s) : Keeps s0 (Machine.bankConflict k b s) := by
  unfold Machine.bankConflict
  try dsimp only
  repeat' first
    | with_reducible first
      | exact ke | exact Keeps.refl _ | apply Keeps.addSat | apply Keeps.setTile

theorem bankWaits {s0 : State} {k : Nat} {w : BankWait} {s : State}
    (ke : Keeps s0 s) : Keeps s0 (Machine.bankWaits k w s) := by
  unfold Machine.bankWaits
  try dsimp only
  repeat' first
    | with_reducible first
      | exact ke | exact Keeps.refl _ | apply Keeps.addSat | apply Keeps.bankConflict | apply Keeps.foldl
      | apply Keeps.foldSnd | apply Keeps.foldSnd2 | rfl
    | intro _

theorem setPods {s0 : State} {ps : List Nat} {st : Nat} {s : State}
    (ke : Keeps s0 s) : Keeps s0 (Machine.setPods ps st s) := by
  unfold Machine.setPods
  try dsimp only
  repeat' first
    | with_reducible first
      | exact ke | exact Keeps.refl _ | apply Keeps.foldl | apply Keeps.wr | apply Keeps.foldSnd
      | apply Keeps.foldSnd2 | rfl
    | intro _

theorem keepFault {s0 : State} {p l : Nat} {rec : DWord} {s : State}
    (ke : Keeps s0 s) : Keeps s0 (Machine.keepFault p l rec s) := by
  unfold Machine.keepFault
  try dsimp only
  repeat' first
    | with_reducible first
      | exact ke | exact Keeps.refl _ | apply Keeps.setPod | apply Keeps.wr64

theorem notePodFault {s0 : State} {p l : Nat} {rec : DWord} {stall : Bool} {s : State}
    (ke : Keeps s0 s) : Keeps s0 (Machine.notePodFault p l rec stall s) := by
  unfold Machine.notePodFault
  try dsimp only
  repeat' first
    | with_reducible first
      | exact ke | exact Keeps.refl _ | apply Keeps.ite | apply Keeps.fresh | apply Keeps.keepFault
      | apply Keeps.raise

theorem withdrawSfu {s0 : State} {p : Nat} {s : State} (ke : Keeps s0 s) : Keeps s0 (Machine.withdrawSfu p s) := by
  unfold Machine.withdrawSfu
  try dsimp only
  repeat' first
    | with_reducible first
      | exact ke | exact Keeps.refl _ | apply Keeps.ite | apply Keeps.foldl | apply Keeps.setTile
      | apply Keeps.foldSnd | apply Keeps.foldSnd2 | rfl
    | intro _ | split

theorem haltPods {s0 : State} {ps : List Nat} {s : State} (ke : Keeps s0 s) : Keeps s0 (Machine.haltPods ps s) := by
  unfold Machine.haltPods
  try dsimp only
  repeat' first
    | with_reducible first
      | exact ke | exact Keeps.refl _ | apply Keeps.foldl | apply Keeps.setPods | apply Keeps.withdrawSfu
      | apply Keeps.foldSnd | apply Keeps.foldSnd2 | rfl
    | intro _

theorem hullFault {s0 : State} {h p l : Nat} {rec : DWord} {s : State}
    (ke : Keeps s0 s) : Keeps s0 (Machine.hullFault h p l rec s) := by
  unfold Machine.hullFault
  try dsimp only
  repeat' first
    | with_reducible first
      | exact ke | exact Keeps.refl _ | apply Keeps.ite | apply Keeps.haltPods | apply Keeps.setHull

theorem podFault {s0 : State} {h p l : Nat} {rec : DWord} {s : State}
    (ke : Keeps s0 s) : Keeps s0 (Machine.podFault h p l rec s) := by
  unfold Machine.podFault
  try dsimp only
  repeat' first
    | with_reducible first
      | exact ke | exact Keeps.refl _ | apply Keeps.hullFault | apply Keeps.notePodFault

theorem raiseFault {s0 : State} {t : Nat} {tr : Trap} {flitHull : Option Nat} {s : State}
    (ke : Keeps s0 s) : Keeps s0 (Machine.raiseFault t tr flitHull s) := by
  unfold Machine.raiseFault
  try dsimp only
  repeat' first
    | with_reducible first
      | exact ke | exact Keeps.refl _ | apply Keeps.ite | apply Keeps.podFault | apply Keeps.setTile | rfl
    | intro _ | split

theorem progress {s0 : State} {p : Nat} {s : State} (ke : Keeps s0 s) : Keeps s0 (Machine.progress p s) := by
  unfold Machine.progress
  try dsimp only
  repeat' first
    | with_reducible first
      | exact ke | exact Keeps.refl _ | apply Keeps.foldl | apply Keeps.wr32 | apply Keeps.foldSnd
      | apply Keeps.foldSnd2 | rfl
    | intro _ | split

theorem refreshInjectStopped {s0 : State} {p : Nat} {s : State}
    (ke : Keeps s0 s) : Keeps s0 (Machine.refreshInjectStopped p s) := by
  unfold Machine.refreshInjectStopped
  try dsimp only
  repeat' first
    | with_reducible first
      | exact ke | exact Keeps.refl _ | apply Keeps.wrB

theorem owesAnew {s0 : State} {p : Nat} {s : State} (ke : Keeps s0 s) : Keeps s0 (Machine.owesAnew p s) := by
  unfold Machine.owesAnew
  try dsimp only
  repeat' first
    | with_reducible first
      | exact ke | exact Keeps.refl _ | apply Keeps.ite | apply Keeps.refreshInjectStopped

/-! ### Tier -/

theorem clearWritten {s0 : State} {dTier : Bool} {base size : Nat} {s : State} (ke : Keeps s0 s) :
    Keeps s0 (Machine.clearWritten dTier base size s) := by
  unfold Machine.clearWritten
  split
  · exact litTier ke id (wf_tclear _ _ _) rfl
  · exact litTier ke (wf_tclear _ _ _) id rfl

theorem noteFtUe {s0 : State} {off : Nat} {s : State} (ke : Keeps s0 s) : Keeps s0 (Machine.noteFtUe off s) := by
  unfold Machine.noteFtUe
  try dsimp only
  repeat' first
    | with_reducible first
      | exact ke | exact Keeps.refl _ | apply Keeps.addSat | apply Keeps.raise | apply Keeps.recordEvent
      | apply Keeps.wr64

theorem clearDirty {s0 : State} {base size : Nat} {s : State}
    (ke : Keeps s0 s) : Keeps s0 (Machine.clearDirty base size s) := by
  unfold Machine.clearDirty
  try dsimp only
  repeat' first
    | with_reducible first
      | exact ke | exact Keeps.refl _ | rfl
    | intro _ | split | with_reducible apply Keeps.lit

theorem takeRun {s0 : State} {dTier : Bool} {base size : Nat} {who : Holder} {s : State}
    (ke : Keeps s0 s) : Keeps s0 (Machine.takeRun dTier base size who s) := by
  unfold Machine.takeRun
  try dsimp only
  repeat' first
    | with_reducible first
      | exact ke | exact Keeps.refl _ | apply Keeps.ite | apply Keeps.clearDirty | apply Keeps.clearWritten | rfl
    | intro _ | split | with_reducible apply Keeps.litFree

theorem allocN_some {s0 : State} {size : Nat} {who : Holder} {s u : State} {a : Nat} (ke : Keeps s0 s)
    (e : Machine.allocN size who s = some (a, u)) : Keeps s0 u := by
  unfold Machine.allocN at e
  split at e
  · cases e
  · cases hc : choosePlace s false N_SYSTEM N_CAPACITY size with
    | none => rw [hc] at e; cases e
    | some b => rw [hc] at e; injection e with e; injection e with _ e; subst e; exact takeRun ke

theorem allocDIn_some {s0 : State} {h size : Nat} {who : Holder} {s u : State} {a : Nat} (ke : Keeps s0 s)
    (e : Machine.allocDIn h size who s = some (a, u)) : Keeps s0 u := by
  unfold Machine.allocDIn at e
  split at e
  · cases e
  · cases hc : choosePlace s true (h * D_HALF) ((h + 1) * D_HALF) size with
    | none => rw [hc] at e; cases e
    | some b => rw [hc] at e; injection e with e; injection e with _ e; subst e; exact takeRun ke

theorem allocD_some {s0 : State} {size : Nat} {who : Holder} {s u : State} {a : Nat} (ke : Keeps s0 s)
    (e : Machine.allocD size who s = some (a, u)) : Keeps s0 u := by
  unfold Machine.allocD at e
  split at e
  · rename_i hc; injection e with e; subst e; exact allocDIn_some ke hc
  · exact allocDIn_some ke e

theorem freeRuns {s0 : State} {p : Alloc → Bool} {s : State} (ke : Keeps s0 s) : Keeps s0 (Machine.freeRuns p s) := by
  unfold Machine.freeRuns
  try dsimp only
  repeat' first
    | with_reducible first
      | exact ke | exact Keeps.refl _ | apply Keeps.clearWritten | apply Keeps.foldl | apply Keeps.foldSnd
      | apply Keeps.foldSnd2 | rfl
    | intro _ | split | with_reducible apply Keeps.lit

theorem refreshHeat {s0 : State} {s : State} (ke : Keeps s0 s) : Keeps s0 (Machine.refreshHeat s) := by
  unfold Machine.refreshHeat
  try dsimp only
  repeat' first
    | with_reducible first
      | exact ke | exact Keeps.refl _ | apply Keeps.ite | apply Keeps.foldl | apply Keeps.wr | apply Keeps.wr32
      | apply Keeps.wr64 | apply Keeps.foldSnd | apply Keeps.foldSnd2 | rfl
    | intro _

theorem setWritten {s0 : State} {s : State} {dTier : Bool} {pg : Nat}
    (ke : Keeps s0 s) : Keeps s0 (Machine.State.setWritten s dTier pg) := by
  unfold Machine.State.setWritten
  try dsimp only
  repeat' first
    | with_reducible first
      | exact ke | exact Keeps.refl _ | apply Keeps.ite | rfl
    | intro _ | split | with_reducible apply Keeps.lit

theorem setBadSyms {s0 : State} {s : State} {dTier : Bool} {g n : Nat}
    (ke : Keeps s0 s) : Keeps s0 (Machine.State.setBadSyms s dTier g n) := by
  unfold Machine.State.setBadSyms
  try dsimp only
  repeat' first
    | with_reducible first
      | exact ke | exact Keeps.refl _ | apply Keeps.ite | rfl
    | intro _ | split | with_reducible apply Keeps.lit

theorem setPoison {s0 : State} {s : State} {dTier : Bool} {g : Nat} {b : Bool}
    (ke : Keeps s0 s) : Keeps s0 (Machine.State.setPoison s dTier g b) := by
  unfold Machine.State.setPoison
  try dsimp only
  repeat' first
    | with_reducible first
      | exact ke | exact Keeps.refl _ | apply Keeps.ite | rfl
    | intro _ | split | with_reducible apply Keeps.lit

theorem noteCorrected {s0 : State} {dTier : Bool} {g : Nat} {s : State}
    (ke : Keeps s0 s) : Keeps s0 (Machine.noteCorrected dTier g s) := by
  unfold Machine.noteCorrected
  try dsimp only
  repeat' first
    | with_reducible first
      | exact ke | exact Keeps.refl _ | apply Keeps.ite | apply Keeps.addSat | apply Keeps.raise | rfl
    | intro _ | split | with_reducible apply Keeps.lit

theorem tierUe {s0 : State} {space off code source unit : Nat} {s : State}
    (ke : Keeps s0 s) : Keeps s0 (Machine.tierUe space off code source unit s) := by
  unfold Machine.tierUe
  try dsimp only
  repeat' first
    | with_reducible first
      | exact ke | exact Keeps.refl _ | apply Keeps.recordEvent

theorem poisonGranule {s0 : State} {dTier : Bool} {g : Nat} {s : State}
    (ke : Keeps s0 s) : Keeps s0 (Machine.poisonGranule dTier g s) := by
  unfold Machine.poisonGranule
  try dsimp only
  repeat' first
    | with_reducible first
      | exact ke | exact Keeps.refl _ | apply Keeps.setBadSyms | apply Keeps.setMem | apply Keeps.setPoison
      | apply wf_tclear

theorem uncorrectable {s0 : State} {dTier : Bool} {g source : Nat} {s : State}
    (ke : Keeps s0 s) : Keeps s0 (Machine.uncorrectable dTier g source s) := by
  unfold Machine.uncorrectable
  try dsimp only
  repeat' first
    | with_reducible first
      | exact ke | exact Keeps.refl _ | apply Keeps.ite | apply Keeps.addSat | apply Keeps.poisonGranule
      | apply Keeps.raise | apply Keeps.tierUe | apply Keeps.wr64

theorem cleanGranules {s0 : State} {dTier : Bool} {off len : Nat} {s : State}
    (ke : Keeps s0 s) : Keeps s0 (Machine.cleanGranules dTier off len s) := by
  unfold Machine.cleanGranules
  try dsimp only
  repeat' first
    | with_reducible first
      | exact ke | exact Keeps.refl _ | apply Keeps.ite | rfl
    | intro _ | split | with_reducible apply Keeps.lit

theorem heatPage {s0 : State} {h pg : Nat} {s : State} (ke : Keeps s0 s) : Keeps s0 (Machine.heatPage h pg s) := by
  unfold Machine.heatPage
  try dsimp only
  repeat' first
    | with_reducible first
      | exact ke | exact Keeps.refl _ | rfl
    | intro _ | split | with_reducible apply Keeps.lit

theorem heatTouch {s0 : State} {h rel len : Nat} {s : State}
    (ke : Keeps s0 s) : Keeps s0 (Machine.heatTouch h rel len s) := by
  unfold Machine.heatTouch
  try dsimp only
  repeat' first
    | with_reducible first
      | exact ke | exact Keeps.refl _ | apply Keeps.ite | apply Keeps.foldl | apply Keeps.heatPage
      | apply Keeps.foldSnd | apply Keeps.foldSnd2 | rfl
    | intro _

theorem recover {s0 : State} {dTier : Bool} {g : Nat} {src : Nat × Nat} {s : State}
    (ke : Keeps s0 s) : Keeps s0 (Machine.recover dTier g src s) := by
  unfold Machine.recover
  try dsimp only
  repeat' first
    | with_reducible first
      | exact ke | exact Keeps.refl _ | apply Keeps.ite | apply Keeps.add64 | apply Keeps.addSat
      | apply Keeps.cleanGranules | apply Keeps.heatTouch | apply Keeps.setMem | apply wf_mcopy
    | assumption | with_reducible rfl | intro _ | split

theorem readWith {s0 : State} {ask : Nat → Nat → State → Bool × State} {dTier allow : Bool} {source g : Nat} {s : State}
    (ha : ∀ i o u, Keeps u (ask i o u).2) (ke : Keeps s0 s) : Keeps s0 (Machine.readWith ask dTier allow source g s).2 := by
  unfold Machine.readWith
  split
  · exact ke
  · split
    · exact ke
    · split
      · exact ke
      · split
        · exact noteCorrected ke
        · split
          · split
            · exact uncorrectable ke
            · dsimp only
              split
              · exact recover (ke.trans (ha _ _ _))
              · exact uncorrectable (ke.trans (ha _ _ _))
          · exact uncorrectable ke

theorem askFlash {s0 : State} {space off : Nat} {s : State} (ke : Keeps s0 s) :
    Keeps s0 (Machine.askFlash space off s).2 := by
  unfold Machine.askFlash
  dsimp only
  split
  · exact noteFtUe (ke.add64 _ _)
  · exact ke.add64 _ _

theorem askSource {s0 : State} {source space off : Nat} {s : State} (ke : Keeps s0 s) :
    Keeps s0 (Machine.askSource source space off s).2 := by
  unfold Machine.askSource
  split
  · exact askFlash ke
  · split
    · exact ke
    · exact foldSnd (fun b x => readWith (fun _ _ _ => askFlash (refl _)) (refl _)) ke

theorem readGranule {s0 : State} {dTier allow : Bool} {source g : Nat} {s : State} (ke : Keeps s0 s) :
    Keeps s0 (Machine.readGranule dTier allow source g s).2 := readWith (fun _ _ _ => askSource (refl _)) ke

theorem readGranules {s0 : State} {dTier allow : Bool} {source : Nat} {gs : List Nat} {s : State} (ke : Keeps s0 s) :
    Keeps s0 (Machine.readGranules dTier allow source gs s).2 := by
  unfold Machine.readGranules
  exact foldSnd (fun b x => readGranule (refl _)) ke

theorem countUnwritten {s0 : State} {dTier : Bool} {code : Nat} {s : State}
    (ke : Keeps s0 s) : Keeps s0 (Machine.countUnwritten dTier code s) := by
  unfold Machine.countUnwritten
  try dsimp only
  repeat' first
    | with_reducible first
      | exact ke | exact Keeps.refl _ | apply Keeps.ite | apply Keeps.addSat

theorem dramRead {s0 : State} {allow : Bool} {source : Nat} {p : Spot} {len : Nat} {s : State}
    (ke : Keeps s0 s) : Keeps s0 (Machine.dramRead allow source p len s).s := by
  unfold Machine.dramRead
  try dsimp only
  repeat' first
    | with_reducible first
      | exact ke | exact Keeps.refl _ | apply Keeps.ite | apply Keeps.iteAns | apply Keeps.countUnwritten
      | apply Keeps.readGranules

theorem openPage {s0 : State} {dTier : Bool} {pg : Nat} {s : State}
    (ke : Keeps s0 s) : Keeps s0 (Machine.openPage dTier pg s) := by
  unfold Machine.openPage
  try dsimp only
  repeat' first
    | with_reducible first
      | exact ke | exact Keeps.refl _ | apply Keeps.ite | apply Keeps.cleanGranules | apply Keeps.setMem
      | apply Keeps.setWritten | apply wf_tclear

theorem markDirty {s0 : State} {off len : Nat} {s : State}
    (ke : Keeps s0 s) : Keeps s0 (Machine.markDirty off len s) := by
  unfold Machine.markDirty
  try dsimp only
  repeat' first
    | with_reducible first
      | exact ke | exact Keeps.refl _ | apply Keeps.ite | apply Keeps.foldl | apply Keeps.foldSnd
      | apply Keeps.foldSnd2 | rfl
    | intro _ | split | with_reducible apply Keeps.lit

theorem storeBytes {s0 : State} {dTier : Bool} {off : Nat} {data : List Byte} {s : State}
    (ke : Keeps s0 s) : Keeps s0 (Machine.storeBytes dTier off data s) := by
  unfold Machine.storeBytes
  try dsimp only
  repeat' first
    | with_reducible first
      | exact ke | exact Keeps.refl _ | apply Keeps.foldl | apply Keeps.openPage | apply Keeps.setBadSyms
      | apply Keeps.setMem | apply Keeps.setPoison | apply Keeps.foldSnd | apply Keeps.foldSnd2 | apply wf_mwrite
    | assumption | with_reducible rfl | intro _

theorem dramWrite {s0 : State} {allow : Bool} {p : Spot} {data : List Byte} {s : State}
    (ke : Keeps s0 s) : Keeps s0 (Machine.dramWrite allow p data s).s := by
  unfold Machine.dramWrite
  try dsimp only
  repeat' first
    | with_reducible first
      | exact ke | exact Keeps.refl _ | apply Keeps.ite | apply Keeps.iteAns | apply Keeps.markDirty
      | apply Keeps.readGranules | apply Keeps.storeBytes

theorem dramAtomic {s0 : State} {allow : Bool} {p : Spot} {k : AtomKind} {ty : AtomType} {v : DWord} {s : State}
    (ke : Keeps s0 s) : Keeps s0 (Machine.dramAtomic allow p k ty v s).s := by
  unfold Machine.dramAtomic
  try dsimp only
  repeat' first
    | with_reducible first
      | exact ke | exact Keeps.refl _ | apply Keeps.ite | apply Keeps.iteAns | apply Keeps.readGranules
      | apply Keeps.storeBytes

theorem tileRead {s0 : State} {p : Spot} {len : Nat} {s : State}
    (ke : Keeps s0 s) : Keeps s0 (Machine.tileRead p len s).s := by
  unfold Machine.tileRead
  try dsimp only
  repeat' first
    | with_reducible first
      | exact ke | exact Keeps.refl _ | apply Keeps.ite | apply Keeps.iteAns | apply Keeps.countCorrected
      | apply Keeps.setTile | rfl
    | intro _ | split

theorem emptySlots {s0 : State} {p lo hi : Nat} {s : State}
    (ke : Keeps s0 s) : Keeps s0 (Machine.emptySlots p lo hi s) := by
  unfold Machine.emptySlots
  try dsimp only
  repeat' first
    | with_reducible first
      | exact ke | exact Keeps.refl _ | apply Keeps.ite | apply Keeps.foldl | apply Keeps.wr | apply Keeps.foldSnd
      | apply Keeps.foldSnd2 | rfl
    | intro _

theorem tileWrite {s0 : State} {p : Spot} {data : List Byte} {s : State}
    (ke : Keeps s0 s) : Keeps s0 (Machine.tileWrite p data s).s := by
  unfold Machine.tileWrite
  try dsimp only
  repeat' first
    | with_reducible first
      | exact ke | exact Keeps.refl _ | apply Keeps.ite | apply Keeps.iteAns | apply Keeps.countCorrected
      | apply Keeps.emptySlots | apply Keeps.setTile | rfl
    | intro _ | split

theorem flashRead {s0 : State} {p : Spot} {len : Nat} {s : State}
    (ke : Keeps s0 s) : Keeps s0 (Machine.flashRead p len s).s := by
  unfold Machine.flashRead
  try dsimp only
  repeat' first
    | with_reducible first
      | exact ke | exact Keeps.refl _ | apply Keeps.ite | apply Keeps.iteAns | apply Keeps.add64
      | apply Keeps.noteFtUe

theorem perform {s0 : State} {allow : Bool} {p : Spot} {op : TierOp} {s : State} (ke : Keeps s0 s) :
    Keeps s0 (Machine.perform allow p op s).s := by
  unfold Machine.perform
  split
  · split
    · exact tileRead ke
    · split
      · exact flashRead ke
      · exact dramRead ke
  · split
    · exact tileWrite ke
    · split
      · split
        · exact ke
        · exact litFlash ke rfl rfl (wf_mwrite _ _ _)
      · exact dramWrite ke
  · exact dramAtomic ke

theorem lateWrite {s0 : State} {p : Spot} {data : List Byte} {s : State}
    (ke : Keeps s0 s) : Keeps s0 (Machine.lateWrite p data s) := by
  unfold Machine.lateWrite
  try dsimp only
  repeat' first
    | with_reducible first
      | exact ke | exact Keeps.refl _ | apply Keeps.ite | apply Keeps.dramWrite | apply Keeps.foldl
      | apply Keeps.fresh | apply Keeps.foldSnd | apply Keeps.foldSnd2 | rfl
    | intro _

theorem lateAnswer {s0 : State} {p : Spot} {op : TierOp} {s : State}
    (ke : Keeps s0 s) : Keeps s0 (Machine.lateAnswer p op s).s := by
  unfold Machine.lateAnswer
  try dsimp only
  repeat' first
    | with_reducible first
      | exact ke | exact Keeps.refl _ | apply Keeps.ite | apply Keeps.iteAns | apply Keeps.addSat
      | apply Keeps.dramAtomic | apply Keeps.fresh | apply Keeps.lateWrite | apply Keeps.raise | rfl
    | intro _ | split

theorem noteHeat {s0 : State} {who : Requester} {tg : Target} {op : TierOp} {s : State}
    (ke : Keeps s0 s) : Keeps s0 (Machine.noteHeat who tg op s) := by
  unfold Machine.noteHeat
  try dsimp only
  repeat' first
    | with_reducible first
      | exact ke | exact Keeps.refl _ | apply Keeps.ite | apply Keeps.heatTouch | rfl
    | intro _ | split

theorem answer {s0 : State} {allow : Bool} {who : Requester} {tg : Target} {op : TierOp} {s : State}
    (ke : Keeps s0 s) : Keeps s0 (Machine.answer allow who tg op s).s := by
  unfold Machine.answer
  try dsimp only
  repeat' first
    | with_reducible first
      | exact ke | exact Keeps.refl _ | apply Keeps.ite | apply Keeps.iteAns | apply Keeps.perform | rfl
    | intro _ | split

theorem access {s0 : State} {allow : Bool} {who : Requester} {tg : Target} {op : TierOp} {s : State}
    (ke : Keeps s0 s) : Keeps s0 (Machine.access allow who tg op s).s := by
  unfold Machine.access
  try dsimp only
  repeat' first
    | with_reducible first
      | exact ke | exact Keeps.refl _ | apply Keeps.ite | apply Keeps.iteAns | apply Keeps.answer
      | apply Keeps.lateAnswer | apply Keeps.noteHeat | rfl
    | intro _ | split | with_reducible apply Keeps.lit

theorem sweep {s0 : State} {space off len : Nat} {s : State}
    (ke : Keeps s0 s) : Keeps s0 (Machine.sweep space off len s).2 := by
  unfold Machine.sweep
  try dsimp only
  repeat' first
    | with_reducible first
      | exact ke | exact Keeps.refl _ | apply Keeps.ite | apply Keeps.iteSnd | apply Keeps.add64
      | apply Keeps.countUnwritten | apply Keeps.lateAnswer | apply Keeps.noteFtUe | apply Keeps.readGranules
      | refine Keeps.sndEq ?_ (by assumption) | rfl
    | intro _ | split | with_reducible apply Keeps.lit

theorem sweepPlane {s0 : State} {h off len : Nat} {s : State}
    (ke : Keeps s0 s) : Keeps s0 (Machine.sweepPlane h off len s).2.2 := by
  unfold Machine.sweepPlane
  try dsimp only
  repeat' first
    | with_reducible first
      | exact ke | exact Keeps.refl _ | apply Keeps.ite | apply Keeps.sweep | rfl
    | intro _ | split

theorem look {s0 : State} {rs : List (Nat × Nat × Nat)} {s : State}
    (ke : Keeps s0 s) : Keeps s0 (Machine.look rs s).2.2 := by
  unfold Machine.look
  try dsimp only
  repeat' first
    | with_reducible first
      | exact ke | exact Keeps.refl _ | apply Keeps.ite | apply Keeps.foldl | apply Keeps.sweepPlane
      | apply Keeps.foldSnd | apply Keeps.foldSnd2 | rfl
    | intro _ | split

theorem present {s0 : State} {use : AccessUse} {req : AccessReq} {s : State}
    (ke : Keeps s0 s) : Keeps s0 (Machine.present use req s) := by
  unfold Machine.present
  try dsimp only
  repeat' first
    | with_reducible first
      | exact ke | exact Keeps.refl _ | rfl
    | intro _ | split | with_reducible apply Keeps.lit

/-! ### Place -/

theorem setMoves {s0 : State} {ms : List Move} {s : State} (ke : Keeps s0 s) : Keeps s0 (Machine.setMoves ms s) := by
  unfold Machine.setMoves
  try dsimp only
  repeat' first
    | with_reducible first
      | exact ke | exact Keeps.refl _ | rfl
    | intro _ | split | with_reducible apply Keeps.lit

theorem setMoveField {s0 : State} {h kind : Nat} {up : Bool} {s : State}
    (ke : Keeps s0 s) : Keeps s0 (Machine.setMoveField h kind up s) := by
  unfold Machine.setMoveField
  try dsimp only
  repeat' first
    | with_reducible first
      | exact ke | exact Keeps.refl _ | apply Keeps.setTensor

theorem dropMove {s0 : State} {h : Nat} {s : State} (ke : Keeps s0 s) : Keeps s0 (Machine.dropMove h s) := by
  unfold Machine.dropMove
  try dsimp only
  repeat' first
    | with_reducible first
      | exact ke | exact Keeps.refl _ | apply Keeps.refreshHeat | apply Keeps.setMoveField | apply Keeps.setMoves

theorem dropVictim {s0 : State} {h : Nat} {s : State} (ke : Keeps s0 s) : Keeps s0 (Machine.dropVictim h s) := by
  unfold Machine.dropVictim
  try dsimp only
  repeat' first
    | with_reducible first
      | exact ke | exact Keeps.refl _ | apply Keeps.setMoves

theorem freeNCopy {s0 : State} {h : Nat} {s : State} (ke : Keeps s0 s) : Keeps s0 (Machine.freeNCopy h s) := by
  unfold Machine.freeNCopy
  try dsimp only
  repeat' first
    | with_reducible first
      | exact ke | exact Keeps.refl _ | apply Keeps.clearDirty | apply Keeps.freeRuns | apply Keeps.setTensor

theorem moveGranule {s0 : State} {srcD : Bool} {dstD : Bool} {sg dg : Nat} {s : State}
    (ke : Keeps s0 s) : Keeps s0 (Machine.moveGranule srcD dstD sg dg s) := by
  unfold Machine.moveGranule
  try dsimp only
  repeat' first
    | with_reducible first
      | exact ke | exact Keeps.refl _ | apply Keeps.ite | apply Keeps.poisonGranule | apply Keeps.readGranule

theorem moveBytes {s0 : State} {srcD dstD : Bool} {soff len doff : Nat} {s : State}
    (ke : Keeps s0 s) : Keeps s0 (Machine.moveBytes srcD dstD soff len doff s) := by
  unfold Machine.moveBytes
  try dsimp only
  repeat' first
    | with_reducible first
      | exact ke | exact Keeps.refl _ | apply Keeps.ite | apply Keeps.cleanGranules | apply Keeps.foldl
      | apply Keeps.moveGranule | apply Keeps.readGranule | apply Keeps.setMem | apply Keeps.foldSnd
      | apply Keeps.foldSnd2 | apply wf_mcopy
    | assumption | with_reducible rfl | intro _

theorem copyUp {s0 : State} {h : Nat} {s : State} (ke : Keeps s0 s) : Keeps s0 (Machine.copyUp h s) := by
  unfold Machine.copyUp
  try dsimp only
  repeat' first
    | with_reducible first
      | exact ke | exact Keeps.refl _ | apply Keeps.ite | apply Keeps.add64 | apply Keeps.clearDirty
      | apply Keeps.foldl | apply Keeps.moveBytes | apply Keeps.setWritten | apply Keeps.foldSnd
      | apply Keeps.foldSnd2 | rfl
    | intro _

theorem copyDown {s0 : State} {h : Nat} {s : State} (ke : Keeps s0 s) : Keeps s0 (Machine.copyDown h s) := by
  unfold Machine.copyDown
  try dsimp only
  repeat' first
    | with_reducible first
      | exact ke | exact Keeps.refl _ | apply Keeps.ite | apply Keeps.add64 | apply Keeps.foldl
      | apply Keeps.moveBytes | apply Keeps.openPage | apply Keeps.foldSnd | apply Keeps.foldSnd2 | rfl
    | intro _

theorem copyStage {s0 : State} {h : Nat} {s : State} (ke : Keeps s0 s) : Keeps s0 (Machine.copyStage h s) := by
  unfold Machine.copyStage
  extract_lets t len a b c lost e
  have ka : Keeps s0 a := foldl (fun u x => openPage (refl u)) _ ke
  have kb : Keeps s0 b := ka.setMemD (wf_mcopy _ _ _ _ _)
  exact foldl (fun u x => foldl (fun v y => tierUe (poisonGranule (refl v))) _ (refl u)) _
    (foldl (fun u _ => noteFtUe (refl u)) _ ((kb.add64 _ _).add64 _ _))

theorem finishMove {s0 : State} {m : Move} {s : State} (ke : Keeps s0 s) : Keeps s0 (Machine.finishMove m s) := by
  unfold Machine.finishMove
  try dsimp only
  repeat' first
    | with_reducible first
      | exact ke | exact Keeps.refl _ | apply Keeps.ite | apply Keeps.addSat | apply Keeps.copyDown
      | apply Keeps.copyStage | apply Keeps.copyUp | apply Keeps.dropMove | apply Keeps.freeNCopy
      | apply Keeps.setTensor

theorem moveSpace_some {s0 : State} {h kind : Nat} {s u : State} (ke : Keeps s0 s)
    (e : Machine.moveSpace h kind s = some u) : Keeps s0 u := by
  unfold Machine.moveSpace at e
  dsimp only at e
  split at e
  · cases hc : Machine.allocN (copySize (s.tensor h)) (.copy h) s with
    | none => rw [hc] at e; cases e
    | some b => rw [hc] at e; injection e with e; subst e; exact (allocN_some ke hc).setTensor _ _
  · split at e
    · cases hc : Machine.allocD (copySize (s.tensor h)) (.copy h) s with
      | none => rw [hc] at e; cases e
      | some b => rw [hc] at e; injection e with e; subst e; exact (allocD_some ke hc).setTensor _ _
    · injection e with e; subst e; exact ke

theorem startMove_some {s0 : State} {h kind cls : Nat} {bg : Bool} {s u : State} (ke : Keeps s0 s)
    (e : Machine.startMove h kind cls bg s = some u) : Keeps s0 u := by
  unfold Machine.startMove at e
  split at e
  · injection e with e; subst e; exact finishMove ke
  · cases hc : Machine.moveSpace h kind s with
    | none => rw [hc] at e; cases e
    | some b =>
      rw [hc] at e; injection e with e; subst e
      exact traceIn (refreshHeat (setMoveField (setMoves (moveSpace_some ke hc))))

theorem abandonMove {s0 : State} {m : Move} {off : Nat} {s : State}
    (ke : Keeps s0 s) : Keeps s0 (Machine.abandonMove m off s) := by
  unfold Machine.abandonMove
  try dsimp only
  repeat' first
    | with_reducible first
      | exact ke | exact Keeps.refl _ | apply Keeps.ite | apply Keeps.addSat | apply Keeps.dropMove
      | apply Keeps.dropVictim | apply Keeps.foldl | apply Keeps.freeRuns | apply Keeps.fresh | apply Keeps.lateWrite
      | apply Keeps.moveBytes | apply Keeps.openPage | apply Keeps.raise | apply Keeps.setTensor | apply Keeps.foldSnd
      | apply Keeps.foldSnd2 | rfl
    | intro _

theorem cancelDemotion {s0 : State} {h : Nat} {s : State}
    (ke : Keeps s0 s) : Keeps s0 (Machine.cancelDemotion h s) := by
  unfold Machine.cancelDemotion
  try dsimp only
  repeat' first
    | with_reducible first
      | exact ke | exact Keeps.refl _ | apply Keeps.dropMove | apply Keeps.dropVictim

theorem evaluateHeat {s0 : State} {s : State} (ke : Keeps s0 s) : Keeps s0 (Machine.evaluateHeat s) := by
  unfold Machine.evaluateHeat
  try dsimp only
  repeat' first
    | with_reducible first
      | exact ke | exact Keeps.refl _ | apply Keeps.ite | apply Keeps.foldl | apply Keeps.setTensor
      | apply Keeps.foldSnd | apply Keeps.foldSnd2 | rfl
    | intro _ | split | with_reducible apply Keeps.lit

theorem demoteAll {s0 : State} {vs : List Nat} {cls : Nat} {bg : Bool} {s : State}
    (ke : Keeps s0 s) : Keeps s0 (vs.foldl (fun s v => (Machine.startMove v MOVE_DEMOTE cls bg s).getD s) s) :=
  foldl (fun u _ => getD (fun _ e => startMove_some (refl u) e) (refl u)) _ ke

theorem admitWith {s0 : State} {room : Option (List Nat)} {c : Nat} {s : State} (ke : Keeps s0 s) :
    Keeps s0 (Machine.admitWith room c s) := by
  unfold Machine.admitWith
  split
  · exact ke
  · exact getD (fun v e => startMove_some ke e) ke
  · exact refreshHeat (setMoveField (setMoves (demoteAll ke)))

theorem admitPromotion {s0 : State} {c : Nat} {s : State}
    (ke : Keeps s0 s) : Keeps s0 (Machine.admitPromotion c s) := by
  unfold Machine.admitPromotion
  try dsimp only
  repeat' first
    | with_reducible first
      | exact ke | exact Keeps.refl _ | apply Keeps.admitWith

theorem planMoves {s0 : State} {s : State} (ke : Keeps s0 s) : Keeps s0 (Machine.planMoves s) := by
  unfold Machine.planMoves
  try dsimp only
  repeat' first
    | with_reducible first
      | exact ke | exact Keeps.refl _ | apply Keeps.ite | apply Keeps.admitPromotion | apply Keeps.foldl
      | refine Keeps.startMove_some ?_ (by assumption) | apply Keeps.demoteAll | apply Keeps.getD
      | apply Keeps.foldSnd | apply Keeps.foldSnd2 | rfl
    | intro _

theorem raiseMove {s0 : State} {h cls : Nat} {s : State} (ke : Keeps s0 s) : Keeps s0 (Machine.raiseMove h cls s) := by
  unfold Machine.raiseMove
  try dsimp only
  repeat' first
    | with_reducible first
      | exact ke | exact Keeps.refl _ | apply Keeps.ite | apply Keeps.refreshHeat | apply Keeps.setMoveField
      | apply Keeps.setMoves

theorem onHalt {s0 : State} {h cls : Nat} {s : State} (ke : Keeps s0 s) : Keeps s0 (Machine.onHalt h cls s).2 := by
  unfold Machine.onHalt
  try dsimp only
  repeat' first
    | with_reducible first
      | exact ke | exact Keeps.refl _ | apply Keeps.ite | apply Keeps.iteSnd | apply Keeps.addSat
      | apply Keeps.cancelDemotion | apply Keeps.raiseMove | refine Keeps.startMove_some ?_ (by assumption) | rfl
    | intro _ | split

theorem demoteFor {s0 : State} {need : Nat} {keep : List Nat} {s : State}
    (ke : Keeps s0 s) : Keeps s0 (Machine.demoteFor need keep s) := by
  unfold Machine.demoteFor
  try dsimp only
  repeat' first
    | with_reducible first
      | exact ke | exact Keeps.refl _ | apply Keeps.ite | apply Keeps.foldl
      | refine Keeps.startMove_some ?_ (by assumption) | apply Keeps.demoteAll | apply Keeps.getD
      | apply Keeps.foldSnd | apply Keeps.foldSnd2 | rfl
    | intro _

theorem pinPromote {s0 : State} {n : Nat} {keep : List Nat} {h : Nat} {s : State} (ke : Keeps s0 s) :
    Keeps s0 (Machine.pinPromote n keep h s).2 := by
  induction n generalizing s with
  | zero => exact ke
  | succ n ih =>
    unfold Machine.pinPromote
    split
    · rename_i e; exact startMove_some ke e
    · split
      · exact ke
      · split
        · exact ke
        · split
          · rename_i e; exact ih (startMove_some ke e)
          · exact ke

theorem pinOne {s0 : State} {keep : List Nat} {acc : Option (Nat × Nat) × State} {h : Nat} (ke : Keeps s0 acc.2) :
    Keeps s0 (Machine.pinOne keep acc h).2 := by
  unfold Machine.pinOne
  dsimp only
  split
  · exact raiseMove ke
  · split
    · exact ke
    · split
      · split
        · rename_i e; exact startMove_some ke e
        · exact ke
      · split <;> exact pinPromote ke

theorem pinStep {s0 : State} {hs : List Nat} {s : State} (ke : Keeps s0 s) : Keeps s0 (Machine.pinStep hs s).2 := by
  unfold Machine.pinStep
  split
  · exact ke
  · extract_lets a lack need
    exact foldSnd (fun _ _ => pinOne (refl _)) (demoteFor (foldl (fun u _ => (refl u).setTensor _ _) _ ke))

theorem keepPinned {s0 : State} {hs : List Nat} {s : State} (ke : Keeps s0 s) : Keeps s0 (Machine.keepPinned hs s) := by
  unfold Machine.keepPinned
  try dsimp only
  repeat' first
    | with_reducible first
      | exact ke | exact Keeps.refl _ | apply Keeps.ite | apply Keeps.cancelDemotion | apply Keeps.foldl
      | apply Keeps.foldSnd | apply Keeps.foldSnd2 | rfl
    | intro _

theorem unpin {s0 : State} {hs : List Nat} {s : State} (ke : Keeps s0 s) : Keeps s0 (Machine.unpin hs s) := by
  unfold Machine.unpin
  try dsimp only
  repeat' first
    | with_reducible first
      | exact ke | exact Keeps.refl _ | apply Keeps.foldl | apply Keeps.setTensor | apply Keeps.foldSnd
      | apply Keeps.foldSnd2 | rfl
    | intro _

theorem freeTensor {s0 : State} {h : Nat} {s : State} (ke : Keeps s0 s) : Keeps s0 (Machine.freeTensor h s) := by
  unfold Machine.freeTensor
  try dsimp only
  repeat' first
    | with_reducible first
      | exact ke | exact Keeps.refl _ | apply Keeps.ite | apply Keeps.clearDirty | apply Keeps.dropVictim
      | apply Keeps.freeRuns | apply Keeps.refreshHeat | apply Keeps.setMoves | apply Keeps.setTensor | rfl
    | intro _ | split | with_reducible apply Keeps.lit

theorem defineTensor_inr {s0 : State} {t : Tensor} {s u : State} {a : Nat} (ke : Keeps s0 s)
    (e : Machine.defineTensor t s = .inr (a, u)) : Keeps s0 u := by
  unfold Machine.defineTensor at e
  split at e
  · cases e
  · split at e
    · cases e
    · rename_i h; injection e with e; injection e with _ e; subst e
      exact refreshHeat ((allocD_some ke h).setTensor _ _)

theorem registerFTensor_some {s0 : State} {f : FTensor} {a : Nat} {s : State} {x : Nat × State} (ke : Keeps s0 s)
    (e : Machine.registerFTensor f a s = some x) : Keeps s0 x.2 := by
  unfold Machine.registerFTensor at e
  cases hc : freeHandle s with
  | none => rw [hc] at e; cases e
  | some h => rw [hc] at e; injection e with e; subst e; exact ke.setTensor _ _

/-! ### Mesh -/

theorem sendPacket {s0 : State} {dst : Nat} {hull : Option Nat} {o : Packet} {s : State}
    (ke : Keeps s0 s) : Keeps s0 (Machine.sendPacket dst hull o s) := by
  unfold Machine.sendPacket
  try dsimp only
  repeat' first
    | with_reducible first
      | exact ke | exact Keeps.refl _ | apply Keeps.ite | apply Keeps.sendOn | rfl
    | intro _ | split | with_reducible apply Keeps.lit

theorem stepError {s0 : State} {h status : Nat} {addr : DWord} {s : State}
    (ke : Keeps s0 s) : Keeps s0 (Machine.stepError h status addr s) := by
  unfold Machine.stepError
  try dsimp only
  repeat' first
    | with_reducible first
      | exact ke | exact Keeps.refl _ | apply Keeps.ite | apply Keeps.setHull | apply Keeps.step | rfl
    | intro _ | split

theorem unreached {s0 : State} {dst : Nat} {use : ReqUse} {s : State}
    (ke : Keeps s0 s) : Keeps s0 (Machine.unreached dst use s) := by
  unfold Machine.unreached
  try dsimp only
  repeat' first
    | with_reducible first
      | exact ke | exact Keeps.refl _ | apply Keeps.setTile | apply Keeps.stepError | rfl
    | intro _ | split

theorem sendRequest {s0 : State} {dst : Nat} {hull : Option Nat} {use : ReqUse} {mk : PktHdr → Packet} {s : State}
    (ke : Keeps s0 s) : Keeps s0 (Machine.sendRequest dst hull use mk s) := by
  unfold Machine.sendRequest
  try dsimp only
  repeat' first
    | with_reducible first
      | exact ke | exact Keeps.refl _ | apply Keeps.ite | apply Keeps.sendPacket | apply Keeps.unreached | rfl
    | intro _ | split | with_reducible apply Keeps.lit

theorem enterPort {s0 : State} {p st : Nat} {s : State} (ke : Keeps s0 s) : Keeps s0 (Machine.enterPort p st s) := by
  unfold Machine.enterPort
  try dsimp only
  repeat' first
    | with_reducible first
      | exact ke | exact Keeps.refl _ | apply Keeps.ite | apply Keeps.raise | apply Keeps.recordEvent | apply Keeps.wr

theorem refreshHubIdle {s0 : State} {p : Nat} {s : State}
    (ke : Keeps s0 s) : Keeps s0 (Machine.refreshHubIdle p s) := by
  unfold Machine.refreshHubIdle
  try dsimp only
  repeat' first
    | with_reducible first
      | exact ke | exact Keeps.refl _ | apply Keeps.wrB

theorem setHub {s0 : State} {p idx : Nat} {q : List (Nat × BitVec 512)} {s : State}
    (ke : Keeps s0 s) : Keeps s0 (Machine.setHub p idx q s) := by
  unfold Machine.setHub
  try dsimp only
  repeat' first
    | with_reducible first
      | exact ke | exact Keeps.refl _ | apply Keeps.refreshHubIdle | apply Keeps.setPod

theorem creditChan {s0 : State} {k q n : Nat} {s : State}
    (ke : Keeps s0 s) : Keeps s0 (Machine.creditChan k q n s) := by
  unfold Machine.creditChan
  try dsimp only
  repeat' first
    | with_reducible first
      | exact ke | exact Keeps.refl _ | apply Keeps.setTile

theorem riserCredit {s0 : State} {key : Nat} {n : Nat} {s : State}
    (ke : Keeps s0 s) : Keeps s0 (Machine.riserCredit key n s) := by
  unfold Machine.riserCredit
  try dsimp only
  repeat' first
    | with_reducible first
      | exact ke | exact Keeps.refl _ | apply Keeps.ite | apply Keeps.creditChan | apply Keeps.setTile

theorem riserResume {s0 : State} {k : Nat} {s : State} (ke : Keeps s0 s) : Keeps s0 (Machine.riserResume k s) := by
  unfold Machine.riserResume
  try dsimp only
  repeat' first
    | with_reducible first
      | exact ke | exact Keeps.refl _ | apply Keeps.creditChan | apply Keeps.foldl | apply Keeps.setTile
      | apply Keeps.foldSnd | apply Keeps.foldSnd2 | rfl
    | intro _

theorem risersResume {s0 : State} {p : Nat} {s : State} (ke : Keeps s0 s) : Keeps s0 (Machine.risersResume p s) := by
  unfold Machine.risersResume
  try dsimp only
  repeat' first
    | with_reducible first
      | exact ke | exact Keeps.refl _ | apply Keeps.foldl | apply Keeps.refreshHubIdle | apply Keeps.riserResume
      | apply Keeps.foldSnd | apply Keeps.foldSnd2 | rfl
    | intro _

theorem hubTake {s0 : State} {p idx : Nat} {s : State} (ke : Keeps s0 s) : Keeps s0 (Machine.hubTake p idx s).2 := by
  unfold Machine.hubTake
  try dsimp only
  repeat' first
    | with_reducible first
      | exact ke | exact Keeps.refl _ | apply Keeps.ite | apply Keeps.iteSnd | apply Keeps.riserCredit
      | apply Keeps.setHub | rfl
    | intro _ | split

theorem routeSendOne {s0 : State} {p n : Nat} {s : State}
    (ke : Keeps s0 s) : Keeps s0 (Machine.routeSendOne p n s) := by
  unfold Machine.routeSendOne
  try dsimp only
  repeat' first
    | with_reducible first
      | exact ke | exact Keeps.refl _ | apply Keeps.ite | apply Keeps.hubTake | apply Keeps.sendRequest
      | apply Keeps.setPod | refine Keeps.sndEq ?_ (by assumption) | rfl
    | intro _ | split

theorem routePump {s0 : State} {p n : Nat} {s : State} (ke : Keeps s0 s) : Keeps s0 (Machine.routePump p n s) := by
  unfold Machine.routePump
  try dsimp only
  repeat' first
    | with_reducible first
      | exact ke | exact Keeps.refl _ | apply Keeps.iterate | apply Keeps.routeSendOne | rfl
    | intro _

theorem routePushed {s0 : State} {p n : Nat} {s : State} (ke : Keeps s0 s) : Keeps s0 (Machine.routePushed p n s) := by
  unfold Machine.routePushed
  try dsimp only
  repeat' first
    | with_reducible first
      | exact ke | exact Keeps.refl _ | apply Keeps.ite | apply Keeps.routePump | apply Keeps.sendRequest
      | apply Keeps.setPod | apply Keeps.unreached

theorem riserStep {s0 : State} {k : Nat} {s : State} (ke : Keeps s0 s) : Keeps s0 (Machine.riserStep k s) := by
  unfold Machine.riserStep
  try dsimp only
  repeat' first
    | with_reducible first
      | exact ke | exact Keeps.refl _ | apply Keeps.ite | apply Keeps.routePushed | apply Keeps.setHub
      | apply Keeps.setTile | rfl
    | intro _ | split

theorem riserPump {s0 : State} {k : Nat} {s : State} (ke : Keeps s0 s) : Keeps s0 (Machine.riserPump k s) := by
  unfold Machine.riserPump
  try dsimp only
  repeat' first
    | with_reducible first
      | exact ke | exact Keeps.refl _ | apply Keeps.iterate | apply Keeps.riserStep | rfl
    | intro _

theorem localStep {s0 : State} {k : Nat} {s : State} (ke : Keeps s0 s) : Keeps s0 (Machine.localStep k s) := by
  unfold Machine.localStep
  try dsimp only
  repeat' first
    | with_reducible first
      | exact ke | exact Keeps.refl _ | apply Keeps.ite | apply Keeps.setRouter | apply Keeps.setTile | rfl
    | intro _ | split

theorem localPump {s0 : State} {k : Nat} {s : State} (ke : Keeps s0 s) : Keeps s0 (Machine.localPump k s) := by
  unfold Machine.localPump
  try dsimp only
  repeat' first
    | with_reducible first
      | exact ke | exact Keeps.refl _ | apply Keeps.iterate | apply Keeps.localStep | rfl
    | intro _

theorem execQueueEntrySend {tile q : Nat} {s : State} : Answers s (Machine.execQueueEntrySend tile q s) := by
  unfold Machine.execQueueEntrySend
  try dsimp only
  repeat' first
    | with_reducible first
      | apply Keeps.ans | apply Keeps.ansIte | exact Keeps.refl _ | apply Keeps.ite | apply Keeps.addWrap
      | apply Keeps.countCorrected | apply Keeps.localPump | apply Keeps.progress | apply Keeps.raiseFault
      | apply Keeps.refreshHubIdle | apply Keeps.riserPump | apply Keeps.setTile | rfl
    | intro _ | split

theorem execCreditReturnSend {tile q : Nat} {s : State} : Answers s (Machine.execCreditReturnSend tile q s) := by
  unfold Machine.execCreditReturnSend
  try dsimp only
  repeat' first
    | with_reducible first
      | apply Keeps.ans | apply Keeps.ansIte | exact Keeps.refl _ | apply Keeps.ite | apply Keeps.addWrap
      | apply Keeps.localPump | apply Keeps.refreshInjectStopped | apply Keeps.sendRequest | apply Keeps.setTile | rfl
    | intro _ | split

theorem dropHead {s0 : State} {k i vc : Nat} {s : State} (ke : Keeps s0 s) : Keeps s0 (Machine.dropHead k i vc s) := by
  unfold Machine.dropHead
  try dsimp only
  repeat' first
    | with_reducible first
      | exact ke | exact Keeps.refl _ | apply Keeps.ite | apply Keeps.localPump | apply Keeps.setRouter

theorem deliver {s0 : State} {x y out vc : Nat} {f : Flit} {s : State}
    (ke : Keeps s0 s) : Keeps s0 (Machine.deliver x y out vc f s) := by
  unfold Machine.deliver
  try dsimp only
  repeat' first
    | with_reducible first
      | exact ke | exact Keeps.refl _ | apply Keeps.ite | apply Keeps.setRouter | apply Keeps.setTile | rfl
    | intro _ | split

theorem noteServed {s0 : State} {x y out vc i : Nat} {s : State}
    (ke : Keeps s0 s) : Keeps s0 (Machine.noteServed x y out vc i s) := by
  unfold Machine.noteServed
  try dsimp only
  repeat' first
    | with_reducible first
      | exact ke | exact Keeps.refl _ | apply Keeps.setRouter

theorem checkFlit {s0 : State} {k i : Nat} {errs : List Nat} {f : Flit} {s : State}
    (ke : Keeps s0 s) : Keeps s0 (Machine.checkFlit k i errs f s).2 := by
  unfold Machine.checkFlit
  try dsimp only
  repeat' first
    | with_reducible first
      | exact ke | exact Keeps.refl _ | apply Keeps.ite | apply Keeps.iteSnd | apply Keeps.addSat | apply Keeps.raise
      | apply Keeps.raiseFault

theorem execMeshFlitForward {x y : Nat} {port : RouterOutput} {errors : FlitErrors} {s : State} :
    Answers s (Machine.execMeshFlitForward x y port errors s) := by
  unfold Machine.execMeshFlitForward
  try dsimp only
  repeat' first
    | with_reducible first
      | apply Keeps.ans | apply Keeps.ansIte | exact Keeps.refl _ | apply Keeps.ite | apply Keeps.checkFlit
      | apply Keeps.deliver | apply Keeps.dropHead | apply Keeps.noteServed | apply Keeps.getD
      | refine Keeps.sndEq ?_ (by assumption) | rfl
    | intro _ | split

theorem ejectFlit {s0 : State} {k : Nat} {s : State} (ke : Keeps s0 s) : Keeps s0 (Machine.ejectFlit k s) := by
  unfold Machine.ejectFlit
  try dsimp only
  repeat' first
    | with_reducible first
      | exact ke | exact Keeps.refl _ | apply Keeps.addWrap | apply Keeps.setTile

theorem acceptEntry {s0 : State} {k q : Nat} {data : BitVec 512} {s : State}
    (ke : Keeps s0 s) : Keeps s0 (Machine.acceptEntry k q data s) := by
  unfold Machine.acceptEntry
  try dsimp only
  repeat' first
    | with_reducible first
      | exact ke | exact Keeps.refl _ | apply Keeps.raiseFault | apply Keeps.setTile | rfl
    | intro _ | split

theorem execDataFlitArrive {tile : Nat} {s : State} : Answers s (Machine.execDataFlitArrive tile s) := by
  unfold Machine.execDataFlitArrive
  try dsimp only
  repeat' first
    | with_reducible first
      | apply Keeps.ans | apply Keeps.ansIte | exact Keeps.refl _ | apply Keeps.ite | apply Keeps.acceptEntry
      | apply Keeps.ejectFlit | apply Keeps.raiseFault | rfl
    | intro _ | split

theorem execCreditFlitArrive {tile : Nat} {s : State} : Answers s (Machine.execCreditFlitArrive tile s) := by
  unfold Machine.execCreditFlitArrive
  try dsimp only
  repeat' first
    | with_reducible first
      | apply Keeps.ans | apply Keeps.ansIte | exact Keeps.refl _ | apply Keeps.ite | apply Keeps.ejectFlit
      | apply Keeps.raiseFault | apply Keeps.setTile | rfl
    | intro _ | split

/-! ### Sched -/

theorem advanceTo {s0 : State} {v : Nat} {s : State} (ke : Keeps s0 s) : Keeps s0 (Machine.advanceTo v s) :=
  ke.trans ⟨rfl, List.prefix_refl _, Nat.le_refl _, id, advanceTo_counter v s⟩

theorem setCycEntry {s0 : State} {bank n r : Nat} {v : Word} {s : State}
    (ke : Keeps s0 s) : Keeps s0 (Machine.setCycEntry bank n r v s) := by
  unfold Machine.setCycEntry
  try dsimp only
  repeat' first
    | with_reducible first
      | exact ke | exact Keeps.refl _ | rfl
    | intro _ | split | with_reducible apply Keeps.lit

theorem refreshCycSlots {s0 : State} {s : State} (ke : Keeps s0 s) : Keeps s0 (Machine.refreshCycSlots s) := by
  unfold Machine.refreshCycSlots
  try dsimp only
  repeat' first
    | with_reducible first
      | exact ke | exact Keeps.refl _ | apply Keeps.foldl | apply Keeps.wr32 | apply Keeps.foldSnd
      | apply Keeps.foldSnd2 | rfl
    | intro _

theorem cycRemoveHull {s0 : State} {h : Nat} {s : State} (ke : Keeps s0 s) : Keeps s0 (Machine.cycRemoveHull h s) := by
  unfold Machine.cycRemoveHull
  try dsimp only
  repeat' first
    | with_reducible first
      | exact ke | exact Keeps.refl _ | apply Keeps.ite | apply Keeps.foldl | apply Keeps.refreshCycSlots
      | apply Keeps.setCycEntry | apply Keeps.foldSnd | apply Keeps.foldSnd2 | rfl
    | intro _

theorem cycReset {s0 : State} {s : State} (ke : Keeps s0 s) : Keeps s0 (Machine.cycReset s) := by
  unfold Machine.cycReset
  try dsimp only
  repeat' first
    | with_reducible first
      | exact ke | exact Keeps.refl _ | apply Keeps.refreshCycSlots | apply Keeps.wr | rfl
    | intro _ | split | with_reducible apply Keeps.lit

theorem markRequests {s0 : State} {p : Nat → Bool} {f : Request → Request} {s : State}
    (ke : Keeps s0 s) : Keeps s0 (Machine.markRequests p f s) := by
  unfold Machine.markRequests
  try dsimp only
  repeat' first
    | with_reducible first
      | exact ke | exact Keeps.refl _ | apply Keeps.ite | apply Keeps.foldl | apply Keeps.setRequest
      | apply Keeps.foldSnd | apply Keeps.foldSnd2 | rfl
    | intro _

theorem markStep {s0 : State} {h : Nat} {f : Step → Step} {s : State}
    (ke : Keeps s0 s) : Keeps s0 (Machine.markStep h f s) := by
  unfold Machine.markStep
  try dsimp only
  repeat' first
    | with_reducible first
      | exact ke | exact Keeps.refl _ | apply Keeps.ite | apply Keeps.setHull | apply Keeps.step | rfl
    | intro _ | split

theorem markBreaches {s0 : State} {s : State} (ke : Keeps s0 s) : Keeps s0 (Machine.markBreaches s) := by
  unfold Machine.markBreaches
  try dsimp only
  repeat' first
    | with_reducible first
      | exact ke | exact Keeps.refl _ | apply Keeps.breach | apply Keeps.foldl | apply Keeps.markRequests
      | apply Keeps.markStep | apply Keeps.foldSnd | apply Keeps.foldSnd2 | rfl
    | intro _

theorem noteCause {s0 : State} {t rank party : Nat} {s : State}
    (ke : Keeps s0 s) : Keeps s0 (Machine.noteCause t rank party s) := by
  unfold Machine.noteCause
  try dsimp only
  repeat' first
    | with_reducible first
      | exact ke | exact Keeps.refl _ | apply Keeps.ite | apply Keeps.setSlot

theorem breach {s0 : State} {hr hk hid lr lk lid : Nat} {s : State}
    (ke : Keeps s0 s) : Keeps s0 (Machine.breach hr hk hid lr lk lid s) := by
  unfold Machine.breach
  try dsimp only
  repeat' first
    | with_reducible first
      | exact ke | exact Keeps.refl _ | apply Keeps.ite | apply Keeps.foldl | apply Keeps.markRequests
      | apply Keeps.markStep | apply Keeps.noteCause | apply Keeps.raise | apply Keeps.recordEvent
      | apply Keeps.foldSnd | apply Keeps.foldSnd2 | rfl
    | intro _ | split | with_reducible apply Keeps.lit

theorem sendFlit {s0 : State} {p v cls : Nat} {s : State}
    (ke : Keeps s0 s) : Keeps s0 (Machine.sendFlit p v cls s) := by
  unfold Machine.sendFlit
  try dsimp only
  repeat' first
    | with_reducible first
      | exact ke | exact Keeps.refl _ | apply Keeps.ite | apply Keeps.add64 | apply Keeps.emit
      | apply Keeps.refreshLag | apply Keeps.setPort

theorem noteMaint {s0 : State} {r u time : Nat} {s : State}
    (ke : Keeps s0 s) : Keeps s0 (Machine.noteMaint r u time s) := by
  unfold Machine.noteMaint
  try dsimp only
  repeat' first
    | with_reducible first
      | exact ke | exact Keeps.refl _ | rfl
    | intro _ | split | with_reducible apply Keeps.lit

theorem observeWait {s0 : State} {r hull waited : Nat} {cause : BlockCause} {s : State}
    (ke : Keeps s0 s) : Keeps s0 (Machine.observeWait r hull waited cause s) := by
  unfold Machine.observeWait
  try dsimp only
  repeat' first
    | with_reducible first
      | exact ke | exact Keeps.refl _ | apply Keeps.ite | apply Keeps.addSat | apply Keeps.breach
      | apply Keeps.markRequests | apply Keeps.markStep | apply Keeps.raise | apply Keeps.step | apply Keeps.wr32
      | rfl
    | intro _ | split

theorem noteGrant {s0 : State} {r unit service : Nat} {c : Cand} {oneWaits : Bool} {s : State}
    (ke : Keeps s0 s) : Keeps s0 (Machine.noteGrant r unit service c oneWaits s) := by
  unfold Machine.noteGrant
  try dsimp only
  repeat' first
    | with_reducible first
      | exact ke | exact Keeps.refl _ | apply Keeps.ite | rfl
    | intro _ | split | with_reducible apply Keeps.lit

theorem endBlocks {s0 : State} {r unit : Nat} {s : State}
    (ke : Keeps s0 s) : Keeps s0 (Machine.endBlocks r unit s) := by
  unfold Machine.endBlocks
  try dsimp only
  repeat' first
    | with_reducible first
      | exact ke | exact Keeps.refl _ | apply Keeps.ite | apply Keeps.wr | rfl
    | intro _ | split | with_reducible apply Keeps.lit

theorem execArbiterGrant {res : Resource} {unit waited service : Nat} {cause : BlockCause} {s : State} :
    Answers s (Machine.execArbiterGrant res unit waited service cause s) := by
  unfold Machine.execArbiterGrant
  try dsimp only
  repeat' first
    | with_reducible first
      | apply Keeps.ans | apply Keeps.ansIte | exact Keeps.refl _ | apply Keeps.ite | apply Keeps.endBlocks
      | apply Keeps.foldl | apply Keeps.noteCause | apply Keeps.noteGrant | apply Keeps.observeWait
      | apply Keeps.sendFlit | apply Keeps.foldSnd | apply Keeps.foldSnd2 | rfl
    | intro _ | split | with_reducible apply Keeps.lit

theorem syncFrame {s0 : State} {s : State} (ke : Keeps s0 s) : Keeps s0 (Machine.syncFrame s) := by
  unfold Machine.syncFrame
  try dsimp only
  repeat' first
    | with_reducible first
      | exact ke | exact Keeps.refl _ | apply Keeps.wr | apply Keeps.wr64 | rfl
    | intro _ | split | with_reducible apply Keeps.lit

theorem clearDue {s0 : State} {s : State} (ke : Keeps s0 s) : Keeps s0 (Machine.clearDue s) := by
  unfold Machine.clearDue
  try dsimp only
  repeat' first
    | with_reducible first
      | exact ke | exact Keeps.refl _ | rfl
    | intro _ | split | with_reducible apply Keeps.lit

theorem execCalibrationWindow {place : UnitAt} {ns : Nat} {s : State} :
    Answers s (Machine.execCalibrationWindow place ns s) := by
  unfold Machine.execCalibrationWindow
  try dsimp only
  repeat' first
    | with_reducible first
      | apply Keeps.ans | apply Keeps.ansIte | exact Keeps.refl _ | apply Keeps.ite | apply Keeps.addSat
      | apply Keeps.noteMaint | apply Keeps.place | apply Keeps.wr | rfl
    | intro _ | split | with_reducible apply Keeps.lit

theorem execCalOverdue {dTier : Bool} {unit : Nat} {s : State} : Answers s (Machine.execCalOverdue dTier unit s) := by
  unfold Machine.execCalOverdue
  try dsimp only
  repeat' first
    | with_reducible first
      | apply Keeps.ans | apply Keeps.ansIte | exact Keeps.refl _ | apply Keeps.ite | apply Keeps.raise

theorem rollMeters {s0 : State} {s : State} (ke : Keeps s0 s) : Keeps s0 (Machine.rollMeters s) := by
  unfold Machine.rollMeters
  try dsimp only
  repeat' first
    | with_reducible first
      | exact ke | exact Keeps.refl _ | apply Keeps.ite | apply Keeps.foldl | apply Keeps.wr32 | apply Keeps.foldSnd
      | apply Keeps.foldSnd2 | rfl
    | intro _ | split | with_reducible apply Keeps.lit

/-! ### Operands -/

theorem issueGate_inl {s0 : State} {op k : Nat} {s u : State} (ke : Keeps s0 s)
    (e : Machine.issueGate op k s = .inl u) : Keeps s0 u := by
  unfold Machine.issueGate at e
  split at e
  · injection e with e; subst e; exact ke
  · dsimp only at e
    split at e
    · injection e with e; subst e; exact raiseFault ke
    · split at e
      · injection e with e; subst e; exact ke
      · split at e
        · injection e with e; subst e; exact ke.setTile _ _
        · cases e

theorem tileOp {s0 : State} {op k : Nat} {run : Tile → Nat → State → Issue} {s : State} (ke : Keeps s0 s) :
    Keeps s0 (Machine.tileOp op k run s) := by
  unfold Machine.tileOp
  split
  · rename_i h; exact issueGate_inl ke h
  · split
    · exact ke.setTile _ _
    · exact raiseFault ke
    · exact countCorrected (ke.setTile _ _)
    · exact ke.fresh.setTile _ _

/-! ### Stream -/

theorem refreshEngine {s0 : State} {p e : Nat} {s : State}
    (ke : Keeps s0 s) : Keeps s0 (Machine.refreshEngine p e s) := by
  unfold Machine.refreshEngine
  try dsimp only
  repeat' first
    | with_reducible first
      | exact ke | exact Keeps.refl _ | apply Keeps.refreshHubIdle | apply Keeps.wr | apply Keeps.wr64
      | apply Keeps.wrB

theorem setQueue {s0 : State} {p e : Nat} {q : List Desc} {s : State}
    (ke : Keeps s0 s) : Keeps s0 (Machine.setQueue p e q s) := by
  unfold Machine.setQueue
  try dsimp only
  repeat' first
    | with_reducible first
      | exact ke | exact Keeps.refl _ | apply Keeps.refreshEngine | apply Keeps.setEngine

theorem setDesc {s0 : State} {p e : Nat} {d : Desc} {s : State}
    (ke : Keeps s0 s) : Keeps s0 (Machine.setDesc p e d s) := by
  unfold Machine.setDesc
  try dsimp only
  repeat' first
    | with_reducible first
      | exact ke | exact Keeps.refl _ | apply Keeps.ite | apply Keeps.setQueue

theorem endDesc {s0 : State} {p e : Nat} {d : Desc} {flag : Nat} {s : State}
    (ke : Keeps s0 s) : Keeps s0 (Machine.endDesc p e d flag s) := by
  unfold Machine.endDesc
  try dsimp only
  repeat' first
    | with_reducible first
      | exact ke | exact Keeps.refl _ | apply Keeps.addSat | apply Keeps.progress | apply Keeps.raise
      | apply Keeps.setQueue | apply Keeps.setTile

theorem failDesc {s0 : State} {p e : Nat} {d : Desc} {code : Nat} {addr : DWord} {s : State}
    (ke : Keeps s0 s) : Keeps s0 (Machine.failDesc p e d code addr s) := by
  unfold Machine.failDesc
  try dsimp only
  repeat' first
    | with_reducible first
      | exact ke | exact Keeps.refl _ | apply Keeps.endDesc | apply Keeps.stepError | rfl
    | intro _ | split

theorem discardDesc {s0 : State} {p e : Nat} {d : Desc} {s : State}
    (ke : Keeps s0 s) : Keeps s0 (Machine.discardDesc p e d s) := by
  unfold Machine.discardDesc
  try dsimp only
  repeat' first
    | with_reducible first
      | exact ke | exact Keeps.refl _ | apply Keeps.setQueue | apply Keeps.setTile

theorem discardHalted {s0 : State} {h : Nat} {s : State} (ke : Keeps s0 s) : Keeps s0 (Machine.discardHalted h s) := by
  unfold Machine.discardHalted
  try dsimp only
  repeat' first
    | with_reducible first
      | exact ke | exact Keeps.refl _ | apply Keeps.discardDesc | apply Keeps.foldl | apply Keeps.foldSnd
      | apply Keeps.foldSnd2 | rfl
    | intro _

theorem noteUnwritten {s0 : State} {p : Nat} {code : Nat} {s : State}
    (ke : Keeps s0 s) : Keeps s0 (Machine.noteUnwritten p code s) := by
  unfold Machine.noteUnwritten
  try dsimp only
  repeat' first
    | with_reducible first
      | exact ke | exact Keeps.refl _ | apply Keeps.ite | apply Keeps.setHull | apply Keeps.step | rfl
    | intro _ | split

theorem execStreamOp {tile : Nat} {s : State} : Answers s (Machine.execStreamOp tile s) := by
  unfold Machine.execStreamOp
  split
  · rename_i h; exact ans (issueGate_inl (refl s) h)
  · extract_lets p t idx tk g who r raw e job d t2 a src b c
    have kr : Keeps s r.s := access (refl s)
    split
    · exact ans ((refl s).setTile _ _)
    · split
      · exact ans ((refl s).setTile _ _)
      · have kc : Keeps s c := setQueue ((kr.setTile _ _).setPod _ _)
        exact ans (ite (failDesc kc) (noteUnwritten kc))

theorem takeHub {s0 : State} {p e n : Nat} {d : Desc} {s : State} (ke : Keeps s0 s) :
    Keeps s0 (Machine.takeHub p e n d s).2 := by
  induction n generalizing d s with
  | zero => exact ke
  | succ n ih =>
    unfold Machine.takeHub
    dsimp only
    split
    · exact ke
    · split
      · rename_i h
        exact sndEq (hubTake ke) h
      · rename_i h
        exact ih (sndEq (hubTake ke) h)

theorem sendChunk {s0 : State} {p e : Nat} {d : Desc} {tg : Target} {op : TierOp} {s : State}
    (ke : Keeps s0 s) : Keeps s0 (Machine.sendChunk p e d tg op s) := by
  unfold Machine.sendChunk
  try dsimp only
  repeat' first
    | with_reducible first
      | exact ke | exact Keeps.refl _ | apply Keeps.ite | apply Keeps.failDesc | apply Keeps.sendRequest
      | apply Keeps.setDesc | apply Keeps.setEngine | rfl
    | intro _ | split | with_reducible apply Keeps.lit

theorem haltDesc {s0 : State} {p e : Nat} {d : Desc} {s : State}
    (ke : Keeps s0 s) : Keeps s0 (Machine.haltDesc p e d s) := by
  unfold Machine.haltDesc
  try dsimp only
  repeat' first
    | with_reducible first
      | exact ke | exact Keeps.refl _ | apply Keeps.ite | apply Keeps.addSat | apply Keeps.discardDesc
      | apply Keeps.failDesc | apply Keeps.foldl | apply Keeps.onHalt | apply Keeps.setDesc | apply Keeps.foldSnd
      | apply Keeps.foldSnd2 | refine Keeps.sndEq ?_ (by assumption) | rfl
    | intro _ | split

theorem execChunkIssue {pod eng : Nat} {s : State} : Answers s (Machine.execChunkIssue pod eng s) := by
  unfold Machine.execChunkIssue
  try dsimp only
  repeat' first
    | with_reducible first
      | apply Keeps.ans | apply Keeps.ansIte | exact Keeps.refl _ | apply Keeps.ite | apply Keeps.failDesc
      | apply Keeps.haltDesc | apply Keeps.raise | apply Keeps.raiseFault | apply Keeps.sendChunk
      | apply Keeps.setDesc | apply Keeps.takeHub | apply Keeps.tileRead | rfl
    | intro _ | split

theorem execStreamResume {engine : EngineAt} {cycles : Nat} {s : State} :
    Answers s (Machine.execStreamResume engine cycles s) := by
  unfold Machine.execStreamResume
  try dsimp only
  repeat' first
    | with_reducible first
      | apply Keeps.ans | apply Keeps.ansIte | exact Keeps.refl _ | apply Keeps.ite | apply Keeps.addSat
      | apply Keeps.failDesc | apply Keeps.onHalt | apply Keeps.setDesc | refine Keeps.sndEq ?_ (by assumption) | rfl
    | intro _ | split

theorem deliverEntries {s0 : State} {k q : Nat} {xs : List (List Byte)} {n : Nat} {s : State} (ke : Keeps s0 s) :
    Keeps s0 (Machine.deliverEntries k q xs n s).2 := by
  induction xs generalizing n s with
  | nil => exact ke
  | cons x xs ih =>
    unfold Machine.deliverEntries
    dsimp only
    split
    · exact ke
    · split
      · with_reducible exact acceptEntry ke
      · with_reducible exact ih (acceptEntry ke)

theorem dropEnded {s0 : State} {id : Nat} {s : State} (ke : Keeps s0 s) : Keeps s0 (Machine.dropEnded id s) := by
  unfold Machine.dropEnded
  try dsimp only
  repeat' first
    | with_reducible first
      | exact ke | exact Keeps.refl _ | rfl
    | intro _ | split | with_reducible apply Keeps.lit

theorem chunkDone {s0 : State} {p e : Nat} {d : Desc} {n : Nat} {s : State}
    (ke : Keeps s0 s) : Keeps s0 (Machine.chunkDone p e d n s) := by
  unfold Machine.chunkDone
  try dsimp only
  repeat' first
    | with_reducible first
      | exact ke | exact Keeps.refl _ | apply Keeps.foldl | apply Keeps.setDesc

theorem noteStepped {s0 : State} {dTier : Bool} {s : State} {g : Nat}
    (ke : Keeps s0 s) : Keeps s0 (Machine.noteStepped dTier s g) := by
  unfold Machine.noteStepped
  try dsimp only
  repeat' first
    | with_reducible first
      | exact ke | exact Keeps.refl _ | rfl
    | intro _ | split | with_reducible apply Keeps.lit

theorem noteWrote {s0 : State} {h space off len : Nat} {s : State}
    (ke : Keeps s0 s) : Keeps s0 (Machine.noteWrote h space off len s) := by
  unfold Machine.noteWrote
  try dsimp only
  repeat' first
    | with_reducible first
      | exact ke | exact Keeps.refl _ | apply Keeps.ite | apply Keeps.foldl | apply Keeps.noteStepped
      | apply Keeps.setHull | apply Keeps.step | apply Keeps.foldSnd | apply Keeps.foldSnd2 | rfl
    | intro _ | split

theorem noteChunk {s0 : State} {p : Nat} {who : Requester} {tg : Target} {len : Nat} {s : State}
    (ke : Keeps s0 s) : Keeps s0 (Machine.noteChunk p who tg len s) := by
  unfold Machine.noteChunk
  try dsimp only
  repeat' first
    | with_reducible first
      | exact ke | exact Keeps.refl _ | apply Keeps.ite | apply Keeps.noteWrote | rfl
    | intro _ | split

theorem applyChunk {s0 : State} {p e : Nat} {d : Desc} {n : Nat} {x : Ended} {s : State}
    (ke : Keeps s0 s) : Keeps s0 (Machine.applyChunk p e d n x s) := by
  unfold Machine.applyChunk
  try dsimp only
  repeat' first
    | with_reducible first
      | exact ke | exact Keeps.refl _ | apply Keeps.ite | apply Keeps.add64 | apply Keeps.chunkDone
      | apply Keeps.deliverEntries | apply Keeps.dropEnded | apply Keeps.failDesc | apply Keeps.noteChunk
      | apply Keeps.noteUnwritten | apply Keeps.setDesc | apply Keeps.tileWrite

theorem execChunkResponse {pod eng : Nat} {s : State} : Answers s (Machine.execChunkResponse pod eng s) := by
  unfold Machine.execChunkResponse
  try dsimp only
  repeat' first
    | with_reducible first
      | apply Keeps.ans | apply Keeps.ansIte | exact Keeps.refl _ | apply Keeps.ite | apply Keeps.applyChunk
      | apply Keeps.dropEnded | rfl
    | intro _ | split

theorem execDescriptorComplete {pod eng : Nat} {s : State} : Answers s (Machine.execDescriptorComplete pod eng s) := by
  unfold Machine.execDescriptorComplete
  try dsimp only
  repeat' first
    | with_reducible first
      | apply Keeps.ans | apply Keeps.ansIte | exact Keeps.refl _ | apply Keeps.endDesc | rfl
    | intro _ | split

theorem execStreamStop {pod eng : Nat} {s : State} : Answers s (Machine.execStreamStop pod eng s) := by
  unfold Machine.execStreamStop
  try dsimp only
  repeat' first
    | with_reducible first
      | apply Keeps.ans | apply Keeps.ansIte | exact Keeps.refl _ | apply Keeps.wr

/-! ### Requests -/

theorem startRun {s0 : State} {r : Running} {s : State} (ke : Keeps s0 s) : Keeps s0 (Machine.startRun r s) := by
  unfold Machine.startRun
  try dsimp only
  repeat' first
    | with_reducible first
      | exact ke | exact Keeps.refl _ | rfl
    | intro _ | split | with_reducible apply Keeps.lit

theorem setRun {s0 : State} {r : Running} {s : State} (ke : Keeps s0 s) : Keeps s0 (Machine.setRun r s) := by
  unfold Machine.setRun
  try dsimp only
  repeat' first
    | with_reducible first
      | exact ke | exact Keeps.refl _ | apply Keeps.ite | rfl
    | intro _ | split | with_reducible apply Keeps.lit

theorem dropRun {s0 : State} {seqNo : Nat} {s : State} (ke : Keeps s0 s) : Keeps s0 (Machine.dropRun seqNo s) := by
  unfold Machine.dropRun
  try dsimp only
  repeat' first
    | with_reducible first
      | exact ke | exact Keeps.refl _ | apply Keeps.dropReads | rfl
    | intro _ | split | with_reducible apply Keeps.lit

theorem endRun {s0 : State} {r : Running} {status progress detail : Nat} {s : State}
    (ke : Keeps s0 s) : Keeps s0 (Machine.endRun r status progress detail s) := by
  unfold Machine.endRun
  try dsimp only
  repeat' first
    | with_reducible first
      | exact ke | exact Keeps.refl _ | apply Keeps.ite | apply Keeps.complete | apply Keeps.dropRun

theorem endRunAt {s0 : State} {r : Running} {step : Nat} {s : State}
    (ke : Keeps s0 s) : Keeps s0 (Machine.endRunAt r step s) := by
  unfold Machine.endRunAt
  try dsimp only
  repeat' first
    | with_reducible first
      | exact ke | exact Keeps.refl _ | apply Keeps.ite | apply Keeps.completeAt | apply Keeps.dropRun

theorem pumpFence {s0 : State} {r : Running} {s : State} (ke : Keeps s0 s) : Keeps s0 (Machine.pumpFence r s) := by
  unfold Machine.pumpFence
  try dsimp only
  repeat' first
    | with_reducible first
      | exact ke | exact Keeps.refl _ | apply Keeps.ite | apply Keeps.endRun | rfl
    | intro _ | split

theorem pumpFences {s0 : State} {s : State} (ke : Keeps s0 s) : Keeps s0 (Machine.pumpFences s) := by
  unfold Machine.pumpFences
  try dsimp only
  repeat' first
    | with_reducible first
      | exact ke | exact Keeps.refl _ | apply Keeps.foldl | apply Keeps.pumpFence | apply Keeps.foldSnd
      | apply Keeps.foldSnd2 | rfl
    | intro _

theorem finishRun {s0 : State} {r : Running} {status progress detail : Nat} {s : State}
    (ke : Keeps s0 s) : Keeps s0 (Machine.finishRun r status progress detail s) := by
  unfold Machine.finishRun
  try dsimp only
  repeat' first
    | with_reducible first
      | exact ke | exact Keeps.refl _ | apply Keeps.endRun | apply Keeps.progress | apply Keeps.pumpFences

theorem finishRuns {s0 : State} {p : Running → Bool} {status detail : Nat} {s : State}
    (ke : Keeps s0 s) : Keeps s0 (Machine.finishRuns p status detail s) := by
  unfold Machine.finishRuns
  try dsimp only
  repeat' first
    | with_reducible first
      | exact ke | exact Keeps.refl _ | apply Keeps.finishRun | apply Keeps.foldl | apply Keeps.foldSnd
      | apply Keeps.foldSnd2 | rfl
    | intro _

theorem refreshLive {s0 : State} {s : State} (ke : Keeps s0 s) : Keeps s0 (Machine.refreshLive s) := by
  unfold Machine.refreshLive
  try dsimp only
  repeat' first
    | with_reducible first
      | exact ke | exact Keeps.refl _ | apply Keeps.wr32

theorem releaseKv {s0 : State} {q : Request} {s : State} (ke : Keeps s0 s) : Keeps s0 (Machine.releaseKv q s) := by
  unfold Machine.releaseKv
  try dsimp only
  repeat' first
    | with_reducible first
      | exact ke | exact Keeps.refl _ | apply Keeps.ite | apply Keeps.setHull

theorem endRequest {s0 : State} {i final status detail : Nat} {s : State}
    (ke : Keeps s0 s) : Keeps s0 (Machine.endRequest i final status detail s) := by
  unfold Machine.endRequest
  try dsimp only
  repeat' first
    | with_reducible first
      | exact ke | exact Keeps.refl _ | apply Keeps.ite | apply Keeps.add64 | apply Keeps.completeAt
      | apply Keeps.progress | apply Keeps.refreshLive | apply Keeps.releaseKv | apply Keeps.setRequest | rfl
    | intro _ | split | with_reducible apply Keeps.lit

theorem failRequest {s0 : State} {i status : Nat} {detail : Option Nat} {s : State}
    (ke : Keeps s0 s) : Keeps s0 (Machine.failRequest i status detail s) := by
  unfold Machine.failRequest
  try dsimp only
  repeat' first
    | with_reducible first
      | exact ke | exact Keeps.refl _ | apply Keeps.endRequest

theorem cancelRequest {s0 : State} {i : Nat} {s : State} (ke : Keeps s0 s) : Keeps s0 (Machine.cancelRequest i s) := by
  unfold Machine.cancelRequest
  try dsimp only
  repeat' first
    | with_reducible first
      | exact ke | exact Keeps.refl _ | apply Keeps.endRequest

theorem refill {s0 : State} {s : State} (ke : Keeps s0 s) : Keeps s0 (Machine.refill s) := by
  unfold Machine.refill
  try dsimp only
  repeat' first
    | with_reducible first
      | exact ke | exact Keeps.refl _ | apply Keeps.ite | apply Keeps.foldl | apply Keeps.setSlot
      | apply Keeps.foldSnd | apply Keeps.foldSnd2 | rfl
    | intro _

theorem releaseSeg {s0 : State} {g : Seg} {s : State} (ke : Keeps s0 s) : Keeps s0 (Machine.releaseSeg g s) := by
  unfold Machine.releaseSeg
  try dsimp only
  repeat' first
    | with_reducible first
      | exact ke | exact Keeps.refl _ | apply Keeps.ite | apply Keeps.setSlot

theorem releaseStep {s0 : State} {st : Step} {s : State} (ke : Keeps s0 s) : Keeps s0 (Machine.releaseStep st s) := by
  unfold Machine.releaseStep
  try dsimp only
  repeat' first
    | with_reducible first
      | exact ke | exact Keeps.refl _ | apply Keeps.foldl | apply Keeps.releaseSeg | apply Keeps.foldSnd
      | apply Keeps.foldSnd2 | rfl
    | intro _

theorem floorTest {s0 : State} {wStart t : Nat} {s : State}
    (ke : Keeps s0 s) : Keeps s0 (Machine.floorTest wStart t s) := by
  unfold Machine.floorTest
  try dsimp only
  repeat' first
    | with_reducible first
      | exact ke | exact Keeps.refl _ | apply Keeps.ite | apply Keeps.breach | apply Keeps.markRequests
      | apply Keeps.raise | apply Keeps.setSlot

theorem newWindow {s0 : State} {s : State} (ke : Keeps s0 s) : Keeps s0 (Machine.newWindow s) := by
  unfold Machine.newWindow
  try dsimp only
  repeat' first
    | with_reducible first
      | exact ke | exact Keeps.refl _ | apply Keeps.foldl | apply Keeps.setRequest | apply Keeps.foldSnd
      | apply Keeps.foldSnd2 | rfl
    | intro _

theorem floorTests {s0 : State} {f : Nat} {s : State} (ke : Keeps s0 s) : Keeps s0 (Machine.floorTests f s) := by
  unfold Machine.floorTests
  try dsimp only
  repeat' first
    | with_reducible first
      | exact ke | exact Keeps.refl _ | apply Keeps.ite | apply Keeps.floorTest | apply Keeps.foldl
      | apply Keeps.newWindow | apply Keeps.foldSnd | apply Keeps.foldSnd2 | rfl
    | intro _

end Keeps
end Sys2Proof.Machine
end

