-- ==== Sys2Proof/Laws/KeepsServe.lean ====
section
/-! SUPPORT. What no operation of the block does, said once for each operation of the epoch log, the sequencer, serving, power, the plane, the scan and vector commands:
a shared operation keeps, and a command answers only what keeps. -/

namespace Sys2Proof.Machine
namespace Keeps

/-! ### Epoch -/

theorem setTwa {s0 : State} {code : Nat} {s : State} (ke : Keeps s0 s) : Keeps s0 (Machine.setTwa code s) := by
  unfold Machine.setTwa
  try dsimp only
  repeat' first
    | with_reducible first
      | exact ke | exact Keeps.refl _ | apply Keeps.ite | apply Keeps.emit | rfl
    | intro _ | split | with_reducible apply Keeps.lit

theorem chargeTwin {s0 : State} {gs : List Nat} {s : State} (ke : Keeps s0 s) : Keeps s0 (Machine.chargeTwin gs s) := by
  unfold Machine.chargeTwin
  try dsimp only
  repeat' first
    | with_reducible first
      | exact ke | exact Keeps.refl _ | apply Keeps.ite | apply Keeps.foldl | apply Keeps.foldSnd
      | apply Keeps.foldSnd2 | rfl
    | intro _ | split | with_reducible apply Keeps.lit

theorem twinResync {s0 : State} {epoch cause : Nat} {s : State}
    (ke : Keeps s0 s) : Keeps s0 (Machine.twinResync epoch cause s) := by
  unfold Machine.twinResync
  try dsimp only
  repeat' first
    | with_reducible first
      | exact ke | exact Keeps.refl _ | apply Keeps.addSat | apply Keeps.recordEvent

theorem sendEpoch {s0 : State} {kind h : Nat} {step : DWord} {body : List MirrorRec} {abort : Bool} {s : State}
    (ke : Keeps s0 s) : Keeps s0 (Machine.sendEpoch kind h step body abort s).2 := by
  unfold Machine.sendEpoch
  try dsimp only
  repeat' first
    | with_reducible first
      | exact ke | exact Keeps.refl _ | apply Keeps.fabricTrace | apply Keeps.foldl | apply Keeps.sendTwin
      | apply Keeps.step | apply Keeps.wr64 | apply Keeps.foldSnd | apply Keeps.foldSnd2 | rfl
    | intro _ | split | with_reducible apply Keeps.lit

theorem sendSnapshot {s0 : State} {s : State} (ke : Keeps s0 s) : Keeps s0 (Machine.sendSnapshot s) := by
  unfold Machine.sendSnapshot
  try dsimp only
  repeat' first
    | with_reducible first
      | exact ke | exact Keeps.refl _ | apply Keeps.sendEpoch | apply Keeps.wr | rfl
    | intro _ | split | with_reducible apply Keeps.lit

theorem oversized {s0 : State} {kind h : Nat} {step : DWord} {s : State}
    (ke : Keeps s0 s) : Keeps s0 (Machine.oversized kind h step s) := by
  unfold Machine.oversized
  try dsimp only
  repeat' first
    | with_reducible first
      | exact ke | exact Keeps.refl _ | apply Keeps.sendEpoch | apply Keeps.sendSnapshot | apply Keeps.step
      | apply Keeps.twinResync

theorem commandEpochWith {s0 : State} {extra : List MirrorRec} {before s : State}
    (ke : Keeps s0 s) : Keeps s0 (Machine.commandEpochWith extra before s) := by
  unfold Machine.commandEpochWith
  try dsimp only
  repeat' first
    | with_reducible first
      | exact ke | exact Keeps.refl _ | apply Keeps.ite | apply Keeps.oversized | apply Keeps.sendEpoch

theorem commandEpoch {s0 : State} {before s : State} (ke : Keeps s0 s) : Keeps s0 (Machine.commandEpoch before s) := by
  unfold Machine.commandEpoch
  try dsimp only
  repeat' first
    | with_reducible first
      | exact ke | exact Keeps.refl _ | apply Keeps.commandEpochWith

/-! ### Sequencer -/

theorem execEndOp {tile : Nat} {s : State} : Answers s (Machine.execEndOp tile s) := by
  unfold Machine.execEndOp
  try dsimp only
  repeat' first
    | with_reducible first
      | apply Keeps.ans | apply Keeps.ansIte | exact Keeps.refl _ | apply Keeps.tileOp

theorem execRepeatOp {tile : Nat} {s : State} : Answers s (Machine.execRepeatOp tile s) := by
  unfold Machine.execRepeatOp
  try dsimp only
  repeat' first
    | with_reducible first
      | apply Keeps.ans | apply Keeps.ansIte | exact Keeps.refl _ | apply Keeps.tileOp

theorem execWaitOp {tile : Nat} {s : State} : Answers s (Machine.execWaitOp tile s) := by
  unfold Machine.execWaitOp
  try dsimp only
  repeat' first
    | with_reducible first
      | apply Keeps.ans | apply Keeps.ansIte | exact Keeps.refl _ | apply Keeps.tileOp

theorem execInGraphFence {tile : Nat} {s : State} : Answers s (Machine.execInGraphFence tile s) := by
  unfold Machine.execInGraphFence
  try dsimp only
  repeat' first
    | with_reducible first
      | apply Keeps.ans | apply Keeps.ansIte | exact Keeps.refl _ | apply Keeps.tileOp

theorem parkPods {s0 : State} {h : Nat} {s : State} (ke : Keeps s0 s) : Keeps s0 (Machine.parkPods h s) := by
  unfold Machine.parkPods
  try dsimp only
  repeat' first
    | with_reducible first
      | exact ke | exact Keeps.refl _ | apply Keeps.ite | apply Keeps.foldl | apply Keeps.wr | apply Keeps.foldSnd
      | apply Keeps.foldSnd2 | rfl
    | intro _

theorem partEpoch {s0 : State} {h : Nat} {st : Step} {s : State}
    (ke : Keeps s0 s) : Keeps s0 (Machine.partEpoch h st s) := by
  unfold Machine.partEpoch
  try dsimp only
  repeat' first
    | with_reducible first
      | exact ke | exact Keeps.refl _ | apply Keeps.ite | apply Keeps.chargeTwin | apply Keeps.oversized
      | apply Keeps.sendEpoch

theorem stepEnds {s0 : State} {h : Nat} {s : State} (ke : Keeps s0 s) : Keeps s0 (Machine.stepEnds h s) := by
  unfold Machine.stepEnds
  try dsimp only
  repeat' first
    | with_reducible first
      | exact ke | exact Keeps.refl _ | apply Keeps.ite | apply Keeps.breach | apply Keeps.parkPods
      | apply Keeps.partEpoch | apply Keeps.progress | apply Keeps.sendPacket | apply Keeps.setHull | apply Keeps.step
      | rfl
    | intro _ | split

theorem execStepBoundaryReached {tile : Nat} {s : State} : Answers s (Machine.execStepBoundaryReached tile s) := by
  unfold Machine.execStepBoundaryReached
  try dsimp only
  repeat' first
    | with_reducible first
      | apply Keeps.ans | apply Keeps.ansIte | exact Keeps.refl _ | apply Keeps.ite | apply Keeps.raiseFault
      | apply Keeps.setTile | apply Keeps.stepEnds | rfl
    | intro _ | split

theorem startTile {s0 : State} {k : Nat} {s : State} (ke : Keeps s0 s) : Keeps s0 (Machine.startTile k s) := by
  unfold Machine.startTile
  try dsimp only
  repeat' first
    | with_reducible first
      | exact ke | exact Keeps.refl _ | apply Keeps.raiseFault | apply Keeps.setTile | rfl
    | intro _ | split

theorem switchSlots {s0 : State} {p : Nat} {s : State} (ke : Keeps s0 s) : Keeps s0 (Machine.switchSlots p s) := by
  unfold Machine.switchSlots
  try dsimp only
  repeat' first
    | with_reducible first
      | exact ke | exact Keeps.refl _ | apply Keeps.wr | rfl
    | intro _ | split

theorem takeMap {s0 : State} {h : Nat} {s : State} (ke : Keeps s0 s) : Keeps s0 (Machine.takeMap h s) := by
  unfold Machine.takeMap
  split
  · exact ke
  · extract_lets r a hl
    have kr : Keeps s0 r.2.2 := look ke
    have ka : Keeps s0 a := by
      show Keeps s0 (match r.1 with | some f => Machine.stepError h f.1 (BitVec.ofNat 64 f.2) r.2.2 | none => r.2.2)
      split
      · exact stepError kr
      · exact kr
    split
    · exact ka.setHull _ _
    · exact ka

theorem execStepStart {hull : Nat} {s : State} : Answers s (Machine.execStepStart hull s) := by
  unfold Machine.execStepStart
  extract_lets hl
  split
  · exact ans (refl s)
  · split
    · exact ans (refl s)
    · extract_lets a b _src c d e g f i
      have ka : Keeps s a := syncFrame (advanceTo (refl s))
      have kc : Keeps s c := (takeMap ka).setHull _ _
      have kd : Keeps s d := ite (foldl (fun u _ => (refl u).setRequest _ _) _ kc) kc
      have ki : Keeps s i := foldl (fun u _ => startTile (refl u)) _ (foldl (fun u _ => switchSlots (refl u)) _ (setPods kd))
      split
      · exact ans (foldl (fun u _ => foldl (fun v _ => (refl v).wr _ _) _ (refl u)) _ ki)
      · exact ans (markBreaches ki)

theorem execStall {hull : Nat} {s : State} : Answers s (Machine.execStall hull s) := by
  unfold Machine.execStall
  try dsimp only
  repeat' first
    | with_reducible first
      | apply Keeps.ans | apply Keeps.ansIte | exact Keeps.refl _ | apply Keeps.ite | apply Keeps.foldl
      | apply Keeps.hullFault | apply Keeps.notePodFault | apply Keeps.step | apply Keeps.wr32 | apply Keeps.foldSnd
      | apply Keeps.foldSnd2 | rfl
    | intro _ | split

/-! ### Serving -/

theorem regionWrite {s0 : State} {hull region off : Nat} {data : List Byte} {s : State}
    (ke : Keeps s0 s) : Keeps s0 (Machine.regionWrite hull region off data s) := by
  unfold Machine.regionWrite
  try dsimp only
  repeat' first
    | with_reducible first
      | exact ke | exact Keeps.refl _ | apply Keeps.noteWrote | apply Keeps.storeBytes

theorem unpause {s0 : State} {h : Nat} {s : State} (ke : Keeps s0 s) : Keeps s0 (Machine.unpause h s) := by
  unfold Machine.unpause
  try dsimp only
  repeat' first
    | with_reducible first
      | exact ke | exact Keeps.refl _ | apply Keeps.ite | apply Keeps.foldl | apply Keeps.setRequest
      | apply Keeps.foldSnd | apply Keeps.foldSnd2 | rfl
    | intro _

theorem pauseRequest {s0 : State} {i : Nat} {s : State} (ke : Keeps s0 s) : Keeps s0 (Machine.pauseRequest i s) := by
  unfold Machine.pauseRequest
  try dsimp only
  repeat' first
    | with_reducible first
      | exact ke | exact Keeps.refl _ | apply Keeps.addSat | apply Keeps.requestTrace | apply Keeps.setRequest

theorem addSeg {s0 : State} {g : Seg} {f : Forming} (ke : Keeps s0 f.s) : Keeps s0 (Machine.addSeg g f).s := by
  unfold Machine.addSeg
  exact ite (ke.setSlot _ _) ke

theorem leaveOut {s0 : State} {t : Nat} {f : Forming} (ke : Keeps s0 f.s) : Keeps s0 (Machine.leaveOut t f).s :=
  ke.setSlot _ _

theorem formOne {s0 : State} {rows : Nat} {f : Forming} {i : Nat} (ke : Keeps s0 f.s) :
    Keeps s0 (Machine.formOne rows f i).s := by
  unfold Machine.formOne
  extract_lets q row n a k
  split
  · exact leaveOut ke
  · split
    · split
      · exact addSeg ke
      · exact leaveOut ke
    · split
      · exact addSeg ke
      · split
        · exact pauseRequest ke
        · exact addSeg ke

theorem armStart {s0 : State} {h : Nat} {s : State} (ke : Keeps s0 s) : Keeps s0 (Machine.armStart h s) := by
  unfold Machine.armStart
  try dsimp only
  repeat' first
    | with_reducible first
      | exact ke | exact Keeps.refl _ | apply Keeps.ite | apply Keeps.foldl | apply Keeps.regionWrite
      | apply Keeps.sendPacket | apply Keeps.setHull | apply Keeps.step | apply Keeps.stepError | apply Keeps.foldSnd
      | apply Keeps.foldSnd2 | rfl
    | intro _ | split

theorem stageRow {s0 : State} {h row : Nat} {data : List Byte} {s : State}
    (ke : Keeps s0 s) : Keeps s0 (Machine.stageRow h row data s) := by
  unfold Machine.stageRow
  try dsimp only
  repeat' first
    | with_reducible first
      | exact ke | exact Keeps.refl _ | apply Keeps.regionWrite | rfl
    | intro _ | split

theorem stageSeg {s0 : State} {h : Nat} {s : State} {g : Seg}
    (ke : Keeps s0 s) : Keeps s0 (Machine.stageSeg h s g) := by
  unfold Machine.stageSeg
  try dsimp only
  repeat' first
    | with_reducible first
      | exact ke | exact Keeps.refl _ | apply Keeps.ite | apply Keeps.dmaIn | apply Keeps.foldl | apply Keeps.setHull
      | apply Keeps.stageRow | apply Keeps.step | apply Keeps.foldSnd | apply Keeps.foldSnd2 | rfl
    | intro _ | split

theorem formStep {s0 : State} {h : Nat} {s : State} (ke : Keeps s0 s) : Keeps s0 (Machine.formStep h s) := by
  unfold Machine.formStep
  extract_lets a hl f b used t st src c d
  have ka : Keeps s0 a := unpause ke
  have kb : Keeps s0 b := foldOn (p := Forming.s) (fun _ _ => formOne (refl _)) ka
  have kc : Keeps s0 c := kb.setHull _ _
  have kd : Keeps s0 d := foldl (g := Machine.stageSeg h) (fun _ _ => stageSeg (refl _)) _ kc
  split
  · exact ke
  · split
    · exact kb
    · split
      · exact ite (armStart kd) kd
      · exact kd

theorem formAll {s0 : State} {s : State} (ke : Keeps s0 s) : Keeps s0 (Machine.formAll s) := by
  unfold Machine.formAll
  try dsimp only
  repeat' first
    | with_reducible first
      | exact ke | exact Keeps.refl _ | apply Keeps.foldl | apply Keeps.formStep | apply Keeps.foldSnd
      | apply Keeps.foldSnd2 | rfl
    | intro _

theorem setStep {s0 : State} {h : Nat} {f : Step → Step} {s : State}
    (ke : Keeps s0 s) : Keeps s0 (Machine.setStep h f s) := by
  unfold Machine.setStep
  try dsimp only
  repeat' first
    | with_reducible first
      | exact ke | exact Keeps.refl _ | apply Keeps.setHull | apply Keeps.step | rfl
    | intro _ | split

theorem execEmitEntry {pod : Nat} {s : State} : Answers s (Machine.execEmitEntry pod s) := by
  unfold Machine.execEmitEntry
  try dsimp only
  repeat' first
    | with_reducible first
      | apply Keeps.ans | apply Keeps.ansIte | exact Keeps.refl _ | apply Keeps.ite | apply Keeps.hubTake
      | apply Keeps.setStep | apply Keeps.step | refine Keeps.sndEq ?_ (by assumption) | rfl
    | intro _ | split

theorem execServingPortEntry {pod port : Nat} {s : State} : Answers s (Machine.execServingPortEntry pod port s) := by
  unfold Machine.execServingPortEntry
  try dsimp only
  repeat' first
    | with_reducible first
      | apply Keeps.ans | apply Keeps.ansIte | exact Keeps.refl _ | apply Keeps.ite | apply Keeps.hubTake
      | apply Keeps.regionWrite | apply Keeps.setStep | apply Keeps.step | refine Keeps.sndEq ?_ (by assumption) | rfl
    | intro _ | split

theorem sendBytes {s0 : State} {hull dev g : Nat} {data : List Byte} {s : State}
    (ke : Keeps s0 s) : Keeps s0 (Machine.sendBytes hull dev g data s) := by
  unfold Machine.sendBytes
  try dsimp only
  repeat' first
    | with_reducible first
      | exact ke | exact Keeps.refl _ | apply Keeps.ite | apply Keeps.access | apply Keeps.foldl
      | apply Keeps.noteWrote | apply Keeps.sendRequest | apply Keeps.stepError | apply Keeps.foldSnd
      | apply Keeps.foldSnd2 | rfl
    | intro _

theorem raiseArrived {s0 : State} {hull dev g n : Nat} {s : State}
    (ke : Keeps s0 s) : Keeps s0 (Machine.raiseArrived hull dev g n s) := by
  unfold Machine.raiseArrived
  try dsimp only
  repeat' first
    | with_reducible first
      | exact ke | exact Keeps.refl _ | apply Keeps.ite | apply Keeps.access | apply Keeps.noteWrote
      | apply Keeps.sendRequest | apply Keeps.stepError

theorem sendHalf {s0 : State} {h half dev : Nat} {xs : List Sel} {rowOf : Nat → List Byte} {s : State}
    (ke : Keeps s0 s) : Keeps s0 (Machine.sendHalf h half dev xs rowOf s) := by
  unfold Machine.sendHalf
  try dsimp only
  repeat' first
    | with_reducible first
      | exact ke | exact Keeps.refl _ | apply Keeps.ite | apply Keeps.raiseArrived | apply Keeps.sendBytes | rfl
    | intro _ | split

theorem dispatchHalf {s0 : State} {h : Nat} {halfB : Bool} {st : Step} {s : State}
    (ke : Keeps s0 s) : Keeps s0 (Machine.dispatchHalf h halfB st s) := by
  unfold Machine.dispatchHalf
  try dsimp only
  repeat' first
    | with_reducible first
      | exact ke | exact Keeps.refl _ | apply Keeps.ite | apply Keeps.addSat | apply Keeps.foldl | apply Keeps.raise
      | apply Keeps.regionWrite | apply Keeps.sendHalf | apply Keeps.setStep | apply Keeps.foldSnd
      | apply Keeps.foldSnd2 | rfl
    | intro _ | split

theorem execExpertDispatch {hull : Nat} {halfB : Bool} {s : State} :
    Answers s (Machine.execExpertDispatch hull halfB s) := by
  unfold Machine.execExpertDispatch
  try dsimp only
  repeat' first
    | with_reducible first
      | apply Keeps.ans | apply Keeps.ansIte | exact Keeps.refl _ | apply Keeps.ite | apply Keeps.dispatchHalf
      | apply Keeps.step | rfl
    | intro _ | split

theorem chargeTokens {s0 : State} {t n : Nat} {charged : Bool} {s : State}
    (ke : Keeps s0 s) : Keeps s0 (Machine.chargeTokens t n charged s) := by
  unfold Machine.chargeTokens
  try dsimp only
  repeat' first
    | with_reducible first
      | exact ke | exact Keeps.refl _ | apply Keeps.ite | apply Keeps.add64 | apply Keeps.setSlot

theorem commitSeg {s0 : State} {st : Step} {d : Done} {x : Seg × BitVec 512} (ke : Keeps s0 d.s) :
    Keeps s0 (Machine.commitSeg st d x).s := by
  have kr : ∀ g, Keeps s0 (Machine.releaseSeg g d.s) := fun g => releaseSeg ke
  unfold Machine.commitSeg
  extract_lets g q e
  split
  · exact (kr g).setRequest _ _
  · split
    · exact (kr g).setRequest _ _
    · exact ((chargeTokens (kr g)).add64 _ _ |>.add64 _ _).setRequest _ _

theorem settleRequest {s0 : State} {s : State} {x : Nat × Bool}
    (ke : Keeps s0 s) : Keeps s0 (Machine.settleRequest s x) := by
  unfold Machine.settleRequest
  try dsimp only
  repeat' first
    | with_reducible first
      | exact ke | exact Keeps.refl _ | apply Keeps.ite | apply Keeps.cancelRequest | apply Keeps.endRequest
      | apply Keeps.finishRuns

theorem commitEffects {s0 : State} {h : Nat} {s : State} (ke : Keeps s0 s) : Keeps s0 (Machine.commitEffects h s) := by
  unfold Machine.commitEffects
  split
  · exact ke
  · extract_lets d a b hl
    have kd : Keeps s0 d.s := foldOn (p := Done.s) (fun _ _ => commitSeg (refl _)) ke
    have kb : Keeps s0 b := foldl (fun _ _ => settleRequest (refl _)) _ (foldl (fun _ _ => (refl _).dmaOut _ _ _) _ kd)
    exact (kb.setHull _ _).addSat _ _

theorem failStep {s0 : State} {h status : Nat} {addr : DWord} {s : State}
    (ke : Keeps s0 s) : Keeps s0 (Machine.failStep h status addr s) := by
  unfold Machine.failStep
  try dsimp only
  repeat' first
    | with_reducible first
      | exact ke | exact Keeps.refl _ | apply Keeps.ite | apply Keeps.addSat | apply Keeps.failRequest
      | apply Keeps.finishRuns | apply Keeps.foldl | apply Keeps.releaseStep | apply Keeps.setHull | apply Keeps.step
      | apply Keeps.foldSnd | apply Keeps.foldSnd2 | rfl
    | intro _ | split

theorem emitFault {s0 : State} {h : Nat} {st : Step} {s : State}
    (ke : Keeps s0 s) : Keeps s0 (Machine.emitFault h st s) := by
  unfold Machine.emitFault
  try dsimp only
  repeat' first
    | with_reducible first
      | exact ke | exact Keeps.refl _ | apply Keeps.podFault | rfl
    | intro _ | split

theorem noteUnsent {s0 : State} {n : Nat} {s : State} (ke : Keeps s0 s) : Keeps s0 (Machine.noteUnsent n s) := by
  unfold Machine.noteUnsent
  try dsimp only
  repeat' first
    | with_reducible first
      | exact ke | exact Keeps.refl _ | apply Keeps.ite | rfl
    | intro _ | split | with_reducible apply Keeps.lit

theorem stepEpoch {s0 : State} {h : Nat} {st : Step} {s : State}
    (ke : Keeps s0 s) : Keeps s0 (Machine.stepEpoch h st s) := by
  unfold Machine.stepEpoch
  try dsimp only
  repeat' first
    | with_reducible first
      | exact ke | exact Keeps.refl _ | apply Keeps.ite | apply Keeps.chargeTwin | apply Keeps.commitEffects
      | apply Keeps.noteUnsent | apply Keeps.oversized | apply Keeps.sendEpoch | apply Keeps.setStep

theorem endStep {s0 : State} {h : Nat} {s : State} (ke : Keeps s0 s) : Keeps s0 (Machine.endStep h s) := by
  unfold Machine.endStep
  try dsimp only
  repeat' first
    | with_reducible first
      | exact ke | exact Keeps.refl _ | apply Keeps.ite | apply Keeps.commandEpoch | apply Keeps.commitEffects
      | apply Keeps.emitFault | apply Keeps.failStep | apply Keeps.sendEpoch | apply Keeps.step
      | apply Keeps.stepEpoch | refine Keeps.sndEq ?_ (by assumption) | rfl
    | intro _ | split

theorem admitOne {s0 : State} {h : Nat} {s : State} (ke : Keeps s0 s) : Keeps s0 (Machine.admitOne h s) := by
  unfold Machine.admitOne
  try dsimp only
  repeat' first
    | with_reducible first
      | exact ke | exact Keeps.refl _ | apply Keeps.requestTrace | apply Keeps.setHull | apply Keeps.setRequest | rfl
    | intro _ | split

theorem admitAll {s0 : State} {h : Nat} {s : State} (ke : Keeps s0 s) : Keeps s0 (Machine.admitAll h s) := by
  unfold Machine.admitAll
  try dsimp only
  repeat' first
    | with_reducible first
      | exact ke | exact Keeps.refl _ | apply Keeps.admitOne | apply Keeps.iterate | rfl
    | intro _

theorem execKvAdmission {hull : Nat} {s : State} : Answers s (Machine.execKvAdmission hull s) := by
  unfold Machine.execKvAdmission
  try dsimp only
  repeat' first
    | with_reducible first
      | apply Keeps.ans | apply Keeps.ansIte | exact Keeps.refl _ | apply Keeps.ite | apply Keeps.admitOne
      | apply Keeps.formStep

theorem execBoundaryReport {hull : Nat} {report : PartReport} {s : State} :
    Answers s (Machine.execBoundaryReport hull report s) := by
  unfold Machine.execBoundaryReport
  try dsimp only
  repeat' first
    | with_reducible first
      | apply Keeps.ans | apply Keeps.ansIte | exact Keeps.refl _ | apply Keeps.ite | apply Keeps.breach
      | apply Keeps.setStep | apply Keeps.step | apply Keeps.stepError | rfl
    | intro _ | split

theorem execStartNotice {hull : Nat} {plan : StepPlan} {s : State} :
    Answers s (Machine.execStartNotice hull plan s) := by
  unfold Machine.execStartNotice
  try dsimp only
  repeat' first
    | with_reducible first
      | apply Keeps.ans | apply Keeps.ansIte | exact Keeps.refl _ | apply Keeps.ite | apply Keeps.setHull

/-! ### Power -/

theorem accrue {s0 : State} {s : State} (ke : Keeps s0 s) : Keeps s0 (Machine.accrue s) := by
  unfold Machine.accrue
  try dsimp only
  repeat' first
    | with_reducible first
      | exact ke | exact Keeps.refl _ | rfl
    | intro _ | split | with_reducible apply Keeps.lit

theorem changeCeiling {s0 : State} {f : State → State} {s : State} (hf : ∀ u, Keeps u (f u)) (ke : Keeps s0 s) :
    Keeps s0 (Machine.changeCeiling f s) := accrue ((accrue ke).trans (hf _))

theorem requestRamp {s0 : State} {a : RampAct} {s : State} (ke : Keeps s0 s) : Keeps s0 (Machine.requestRamp a s) := by
  unfold Machine.requestRamp
  try dsimp only
  repeat' first
    | with_reducible first
      | exact ke | exact Keeps.refl _ | apply Keeps.traceIn | rfl
    | intro _ | split | with_reducible apply Keeps.lit

theorem wantDomain {s0 : State} {d : Nat} {s : State} (ke : Keeps s0 s) : Keeps s0 (Machine.wantDomain d s) := by
  unfold Machine.wantDomain
  try dsimp only
  repeat' first
    | with_reducible first
      | exact ke | exact Keeps.refl _ | apply Keeps.ite | apply Keeps.requestRamp

theorem powerPods {s0 : State} {ps : List Nat} {s : State} (ke : Keeps s0 s) : Keeps s0 (Machine.powerPods ps s) := by
  unfold Machine.powerPods
  try dsimp only
  repeat' first
    | with_reducible first
      | exact ke | exact Keeps.refl _ | apply Keeps.foldl | apply Keeps.wantDomain | apply Keeps.foldSnd
      | apply Keeps.foldSnd2 | rfl
    | intro _

theorem retarget {s0 : State} {p : Nat} {s : State} (ke : Keeps s0 s) : Keeps s0 (Machine.retarget p s) := by
  unfold Machine.retarget
  try dsimp only
  repeat' first
    | with_reducible first
      | exact ke | exact Keeps.refl _ | apply Keeps.ite | apply Keeps.setPod | apply Keeps.wr

theorem raisePods {s0 : State} {ps : List Nat} {s : State} (ke : Keeps s0 s) : Keeps s0 (Machine.raisePods ps s) := by
  unfold Machine.raisePods
  try dsimp only
  repeat' first
    | with_reducible first
      | exact ke | exact Keeps.refl _ | apply Keeps.ite | apply Keeps.foldl | apply Keeps.requestRamp | apply Keeps.wr
      | apply Keeps.foldSnd | apply Keeps.foldSnd2 | rfl
    | intro _

theorem lowerPods {s0 : State} {ps : List Nat} {s : State} (ke : Keeps s0 s) : Keeps s0 (Machine.lowerPods ps s) := by
  unfold Machine.lowerPods
  try dsimp only
  repeat' first
    | with_reducible first
      | exact ke | exact Keeps.refl _ | apply Keeps.ite | apply Keeps.foldl | apply Keeps.requestRamp
      | apply Keeps.foldSnd | apply Keeps.foldSnd2 | rfl
    | intro _ | split | with_reducible apply Keeps.lit

theorem wipeTiles {s0 : State} {p : Nat} {s : State} (ke : Keeps s0 s) : Keeps s0 (Machine.wipeTiles p s) := by
  unfold Machine.wipeTiles
  try dsimp only
  repeat' first
    | with_reducible first
      | exact ke | exact Keeps.refl _ | rfl
    | intro _ | split | with_reducible apply Keeps.lit

theorem resetPodWindow {s0 : State} {p : Nat} {s : State}
    (ke : Keeps s0 s) : Keeps s0 (Machine.resetPodWindow p s) := by
  unfold Machine.resetPodWindow
  try dsimp only
  repeat' first
    | with_reducible first
      | exact ke | exact Keeps.refl _ | apply Keeps.setPod | apply Keeps.wr | rfl
    | intro _ | split | with_reducible apply Keeps.lit

theorem loseUnit {s0 : State} {dTier : Bool} {u : Nat} {s : State} (ke : Keeps s0 s) :
    Keeps s0 (Machine.loseUnit dTier u s) := by
  unfold Machine.loseUnit
  refine foldl (fun v x => ?_) _ ke
  extract_lets b t
  cases dTier
  · exact litTier (refl v).fresh (wf_mwrite _ _ _) id rfl
  · exact litTier (refl v).fresh id (wf_mwrite _ _ _) rfl

theorem resetMesh {s0 : State} {d : Nat} {s : State} (ke : Keeps s0 s) : Keeps s0 (Machine.resetMesh d s) := by
  unfold Machine.resetMesh
  try dsimp only
  repeat' first
    | with_reducible first
      | exact ke | exact Keeps.refl _ | apply Keeps.foldl | apply Keeps.setPod | apply Keeps.foldSnd
      | apply Keeps.foldSnd2 | rfl
    | intro _ | split | with_reducible apply Keeps.lit

theorem domainOffNow {s0 : State} {d : Nat} {s : State} (ke : Keeps s0 s) : Keeps s0 (Machine.domainOffNow d s) := by
  unfold Machine.domainOffNow
  try dsimp only
  repeat' first
    | with_reducible first
      | exact ke | exact Keeps.refl _ | apply Keeps.ite | apply Keeps.enterPort | apply Keeps.foldl
      | apply Keeps.loseUnit | apply Keeps.resetMesh | apply Keeps.resetPodWindow | apply Keeps.wipeTiles
      | apply Keeps.wr | apply Keeps.wr32 | apply Keeps.foldSnd | apply Keeps.foldSnd2 | rfl
    | intro _ | split | with_reducible apply Keeps.lit

/-! ### Plane -/

theorem execPlaneRun {op : BankedOp} {s : State} : Answers s (Machine.execPlaneRun op s) := by
  unfold Machine.execPlaneRun
  try dsimp only
  repeat' first
    | with_reducible first
      | apply Keeps.ans | apply Keeps.ansIte | exact Keeps.refl _ | apply Keeps.ite | apply Keeps.bankWaits
      | apply Keeps.countCorrected | apply Keeps.owesAnew | apply Keeps.progress | apply Keeps.raiseFault
      | apply Keeps.setTile | rfl
    | intro _ | split

/-! ### Scan -/

theorem scanOut {s0 : State} {h l p base : Nat} {s : State}
    (ke : Keeps s0 s) : Keeps s0 (Machine.scanOut h l p base s) := by
  unfold Machine.scanOut
  extract_lets a m b
  have ka : Keeps s0 a := foldl (fun u x => openPage (refl u)) _ ke
  have kb : Keeps s0 b := cleanGranules (ka.setMemN (wf_folds (fun m t => wf_putImage _ _ m) _ _))
  exact storeBytes kb

theorem correctSave {s0 : State} {base : Nat} {s : State}
    (ke : Keeps s0 s) : Keeps s0 (Machine.correctSave base s) := by
  unfold Machine.correctSave
  try dsimp only
  repeat' first
    | with_reducible first
      | exact ke | exact Keeps.refl _ | apply Keeps.foldl | apply Keeps.noteCorrected | apply Keeps.foldSnd
      | apply Keeps.foldSnd2 | rfl
    | intro _

theorem correctStores {s0 : State} {p : Nat} {s : State} (ke : Keeps s0 s) : Keeps s0 (Machine.correctStores p s) := by
  unfold Machine.correctStores
  try dsimp only
  repeat' first
    | with_reducible first
      | exact ke | exact Keeps.refl _ | apply Keeps.countCorrected | apply Keeps.foldl | apply Keeps.setTile
      | apply Keeps.foldSnd | apply Keeps.foldSnd2 | rfl
    | intro _

theorem scanIn {s0 : State} {h p base : Nat} {s : State} (ke : Keeps s0 s) : Keeps s0 (Machine.scanIn h p base s) := by
  unfold Machine.scanIn
  try dsimp only
  repeat' first
    | with_reducible first
      | exact ke | exact Keeps.refl _ | apply Keeps.ite | apply Keeps.foldl | apply Keeps.setTile | apply Keeps.wr
      | apply Keeps.wr32 | apply Keeps.foldSnd | apply Keeps.foldSnd2 | rfl
    | intro _

/-! ### Vector -/

theorem execSop {tile : Nat} {s : State} : Answers s (Machine.execSop tile s) := by
  unfold Machine.execSop
  try dsimp only
  repeat' first
    | with_reducible first
      | apply Keeps.ans | apply Keeps.ansIte | exact Keeps.refl _ | apply Keeps.tileOp

theorem execVint {tile : Nat} {s : State} : Answers s (Machine.execVint tile s) := by
  unfold Machine.execVint
  try dsimp only
  repeat' first
    | with_reducible first
      | apply Keeps.ans | apply Keeps.ansIte | exact Keeps.refl _ | apply Keeps.tileOp

theorem execVfp {tile : Nat} {s : State} : Answers s (Machine.execVfp tile s) := by
  unfold Machine.execVfp
  try dsimp only
  repeat' first
    | with_reducible first
      | apply Keeps.ans | apply Keeps.ansIte | exact Keeps.refl _ | apply Keeps.tileOp

theorem execVxlane {tile : Nat} {s : State} : Answers s (Machine.execVxlane tile s) := by
  unfold Machine.execVxlane
  try dsimp only
  repeat' first
    | with_reducible first
      | apply Keeps.ans | apply Keeps.ansIte | exact Keeps.refl _ | apply Keeps.tileOp

theorem cvtCount {s0 : State} {p : Nat} {c : Cvt} {s : State}
    (ke : Keeps s0 s) : Keeps s0 (Machine.cvtCount p c s) := by
  unfold Machine.cvtCount
  try dsimp only
  repeat' first
    | with_reducible first
      | exact ke | exact Keeps.refl _ | apply Keeps.ite | apply Keeps.addSat

theorem execVcvt {tile : Nat} {s : State} : Answers s (Machine.execVcvt tile s) := by
  unfold Machine.execVcvt
  try dsimp only
  repeat' first
    | with_reducible first
      | apply Keeps.ans | apply Keeps.ansIte | exact Keeps.refl _ | apply Keeps.ite | apply Keeps.cvtCount
      | apply Keeps.tileOp

theorem withWaits {s0 : State} {tile : Nat} {w : BankWait} {before after : State}
    (ke : Keeps s0 after) : Keeps s0 (Machine.withWaits tile w before after) := by
  unfold Machine.withWaits
  try dsimp only
  repeat' first
    | with_reducible first
      | exact ke | exact Keeps.refl _ | apply Keeps.ite | apply Keeps.bankWaits

theorem execVload {op : BankedOp} {s : State} : Answers s (Machine.execVload op s) := by
  unfold Machine.execVload
  try dsimp only
  repeat' first
    | with_reducible first
      | apply Keeps.ans | apply Keeps.ansIte | exact Keeps.refl _ | apply Keeps.tileOp | apply Keeps.withWaits

theorem execVstore {op : BankedOp} {s : State} : Answers s (Machine.execVstore op s) := by
  unfold Machine.execVstore
  try dsimp only
  repeat' first
    | with_reducible first
      | apply Keeps.ans | apply Keeps.ansIte | exact Keeps.refl _ | apply Keeps.tileOp | apply Keeps.withWaits

theorem execVpush {tile : Nat} {s : State} : Answers s (Machine.execVpush tile s) := by
  unfold Machine.execVpush
  try dsimp only
  repeat' first
    | with_reducible first
      | apply Keeps.ans | apply Keeps.ansIte | exact Keeps.refl _ | apply Keeps.tileOp

theorem execVpop {tile : Nat} {s : State} : Answers s (Machine.execVpop tile s) := by
  unfold Machine.execVpop
  try dsimp only
  repeat' first
    | with_reducible first
      | apply Keeps.ans | apply Keeps.ansIte | exact Keeps.refl _ | apply Keeps.ite | apply Keeps.owesAnew
      | apply Keeps.progress | apply Keeps.tileOp

theorem execVsfu {tile : Nat} {s : State} : Answers s (Machine.execVsfu tile s) := by
  unfold Machine.execVsfu
  try dsimp only
  repeat' first
    | with_reducible first
      | apply Keeps.ans | apply Keeps.ansIte | exact Keeps.refl _ | apply Keeps.tileOp

theorem sfuGranted {s0 : State} {pod k u : Nat} {s : State}
    (ke : Keeps s0 s) : Keeps s0 (Machine.sfuGranted pod k u s) := by
  unfold Machine.sfuGranted
  try dsimp only
  repeat' first
    | with_reducible first
      | exact ke | exact Keeps.refl _ | apply Keeps.addSat | apply Keeps.foldl | apply Keeps.setPod
      | apply Keeps.setTile | apply Keeps.wr | apply Keeps.foldSnd | apply Keeps.foldSnd2 | rfl
    | intro _

theorem execSfuGrant {pod k : Nat} {s : State} : Answers s (Machine.execSfuGrant pod k s) := by
  unfold Machine.execSfuGrant
  try dsimp only
  repeat' first
    | with_reducible first
      | apply Keeps.ans | apply Keeps.ansIte | exact Keeps.refl _ | apply Keeps.ite | apply Keeps.sfuGranted | rfl
    | intro _ | split

theorem execSfuResultWrite {tile : Nat} {s : State} : Answers s (Machine.execSfuResultWrite tile s) := by
  unfold Machine.execSfuResultWrite
  try dsimp only
  repeat' first
    | with_reducible first
      | apply Keeps.ans | apply Keeps.ansIte | exact Keeps.refl _ | apply Keeps.ite | apply Keeps.setPod
      | apply Keeps.setTile | rfl
    | intro _ | split

end Keeps
end Sys2Proof.Machine
end

