-- ==== Sys2Proof/Laws/KeepsHull.lean ====
section
/-! SUPPORT. What no operation of the block does, said once for each operation of the hulls, the flash tier and the host commands on them:
a shared operation keeps, and a command answers only what keeps. -/

namespace Sys2Proof.Machine
namespace Keeps

/-! ### Hulls -/

theorem defineRegion_inr {s0 : State} {dTier share : Bool} {h elem : Nat} {s u : State} {a : Nat} (ke : Keeps s0 s)
    (e : Machine.defineRegion dTier share h elem s = .inr (a, u)) : Keeps s0 u := by
  unfold Machine.defineRegion at e
  dsimp only at e
  split at e
  · cases e
  · split at e
    · cases e
    · rename_i hc; injection e with e; injection e with _ e; subst e
      split at hc
      · exact (allocD_some ke hc).setTensor _ _
      · exact (allocN_some ke hc).setTensor _ _

theorem clearPodCounters {s0 : State} {p : Nat} {s : State}
    (ke : Keeps s0 s) : Keeps s0 (Machine.clearPodCounters p s) := by
  unfold Machine.clearPodCounters
  try dsimp only
  repeat' first
    | with_reducible first
      | exact ke | exact Keeps.refl _ | apply Keeps.foldl | apply Keeps.setPod | apply Keeps.wr32
      | apply Keeps.foldSnd | apply Keeps.foldSnd2 | rfl
    | intro _

theorem writeMap {s0 : State} {ps : List Nat} {p : Nat} {s : State}
    (ke : Keeps s0 s) : Keeps s0 (Machine.writeMap ps p s) := by
  unfold Machine.writeMap
  try dsimp only
  repeat' first
    | with_reducible first
      | exact ke | exact Keeps.refl _ | apply Keeps.foldl | apply Keeps.wr32 | apply Keeps.foldSnd
      | apply Keeps.foldSnd2 | rfl
    | intro _

theorem writeTable {s0 : State} {hl : Hull} {l p : Nat} {s : State}
    (ke : Keeps s0 s) : Keeps s0 (Machine.writeTable hl l p s) := by
  unfold Machine.writeTable
  try dsimp only
  repeat' first
    | with_reducible first
      | exact ke | exact Keeps.refl _ | apply Keeps.foldl | apply Keeps.wr | apply Keeps.wr64 | apply Keeps.foldSnd
      | apply Keeps.foldSnd2 | rfl
    | intro _ | split

theorem emptyPod {s0 : State} {p : Nat} {s : State} (ke : Keeps s0 s) : Keeps s0 (Machine.emptyPod p s) := by
  unfold Machine.emptyPod
  try dsimp only
  repeat' first
    | with_reducible first
      | exact ke | exact Keeps.refl _ | apply Keeps.foldl | apply Keeps.refreshEngine | apply Keeps.refreshHubIdle
      | apply Keeps.setPod | apply Keeps.wr | apply Keeps.foldSnd | apply Keeps.foldSnd2 | rfl
    | intro _

theorem quietTiles {s0 : State} {p : Nat} {s : State} (ke : Keeps s0 s) : Keeps s0 (Machine.quietTiles p s) := by
  unfold Machine.quietTiles
  try dsimp only
  repeat' first
    | with_reducible first
      | exact ke | exact Keeps.refl _ | apply Keeps.foldl | apply Keeps.setTile | apply Keeps.foldSnd
      | apply Keeps.foldSnd2 | rfl
    | intro _

theorem assignPod {s0 : State} {h : Nat} {ps : List Nat} {wdog : Nat} {compat : Bool} {p : Nat} {s : State}
    (ke : Keeps s0 s) : Keeps s0 (Machine.assignPod h ps wdog compat p s) := by
  unfold Machine.assignPod
  try dsimp only
  repeat' first
    | with_reducible first
      | exact ke | exact Keeps.refl _ | apply Keeps.clearPodCounters | apply Keeps.emptyPod | apply Keeps.quietTiles
      | apply Keeps.wr | apply Keeps.wr32 | apply Keeps.wrB | apply Keeps.writeMap

theorem releasePod {s0 : State} {p : Nat} {s : State} (ke : Keeps s0 s) : Keeps s0 (Machine.releasePod p s) := by
  unfold Machine.releasePod
  try dsimp only
  repeat' first
    | with_reducible first
      | exact ke | exact Keeps.refl _ | apply Keeps.ite | apply Keeps.emptyPod | apply Keeps.quietTiles
      | apply Keeps.wr | apply Keeps.wr32

theorem hullDevices {s0 : State} {rd : PkgRead} {s : State}
    (ke : Keeps s0 s) : Keeps s0 (Machine.hullDevices rd s).2 := by
  unfold Machine.hullDevices
  try dsimp only
  repeat' first
    | with_reducible first
      | exact ke | exact Keeps.refl _ | apply Keeps.ite | apply Keeps.iteSnd | apply Keeps.foldl | apply Keeps.fresh
      | apply Keeps.foldSnd | apply Keeps.foldSnd2 | rfl
    | intro _

theorem copyContents {s0 : State} {pkg hd : Nat} {r : TierReq} {s : State}
    (ke : Keeps s0 s) : Keeps s0 (Machine.copyContents pkg hd r s) := by
  unfold Machine.copyContents
  try dsimp only
  repeat' first
    | with_reducible first
      | exact ke | exact Keeps.refl _ | apply Keeps.ite | apply Keeps.foldl | apply Keeps.openPage
      | apply Keeps.setMem | apply Keeps.foldSnd | apply Keeps.foldSnd2 | apply wf_mcopy
    | assumption | with_reducible rfl | intro _

theorem substituteTable {s0 : State} {handles devices : List Nat} {hd : Nat} {r : TierReq} {s : State}
    (ke : Keeps s0 s) : Keeps s0 (Machine.substituteTable handles devices hd r s) := by
  unfold Machine.substituteTable
  try dsimp only
  repeat' first
    | with_reducible first
      | exact ke | exact Keeps.refl _ | apply Keeps.foldl | apply Keeps.storeBytes | apply Keeps.foldSnd
      | apply Keeps.foldSnd2 | rfl
    | intro _

theorem fillRequests {s0 : State} {pkg : Nat} {rs : List TierReq} {handles devices : List Nat} {p : TierReq → Bool} {s : State} (ke : Keeps s0 s) : Keeps s0 (Machine.fillRequests pkg rs handles devices p s) := by
  unfold Machine.fillRequests
  try dsimp only
  repeat' first
    | with_reducible first
      | exact ke | exact Keeps.refl _ | apply Keeps.ite | apply Keeps.copyContents | apply Keeps.foldl
      | apply Keeps.substituteTable | apply Keeps.foldSnd | apply Keeps.foldSnd2 | rfl
    | intro _

theorem startLoad {s0 : State} {p l slot cfg pkg : Nat} {s : State}
    (ke : Keeps s0 s) : Keeps s0 (Machine.startLoad p l slot cfg pkg s) := by
  unfold Machine.startLoad
  try dsimp only
  repeat' first
    | with_reducible first
      | exact ke | exact Keeps.refl _ | apply Keeps.ite | apply Keeps.refreshHubIdle | apply Keeps.setPod
      | apply Keeps.wr | apply Keeps.wr64

theorem startLoads {s0 : State} {h slot cfg pkg : Nat} {s : State}
    (ke : Keeps s0 s) : Keeps s0 (Machine.startLoads h slot cfg pkg s) := by
  unfold Machine.startLoads
  try dsimp only
  repeat' first
    | with_reducible first
      | exact ke | exact Keeps.refl _ | apply Keeps.foldl | apply Keeps.startLoad | apply Keeps.foldSnd
      | apply Keeps.foldSnd2 | rfl
    | intro _

theorem storeLoad {s0 : State} {h p : Nat} {ld : Load} {s : State}
    (ke : Keeps s0 s) : Keeps s0 (Machine.storeLoad h p ld s) := by
  unfold Machine.storeLoad
  try dsimp only
  repeat' first
    | with_reducible first
      | exact ke | exact Keeps.refl _ | apply Keeps.addSat | apply Keeps.foldl | apply Keeps.refreshHubIdle
      | apply Keeps.setPod | apply Keeps.setTile | apply Keeps.wr | apply Keeps.foldSnd | apply Keeps.foldSnd2 | rfl
    | intro _

theorem tryLoad {s0 : State} {h : Nat} {s : State} {r : Running}
    (ke : Keeps s0 s) : Keeps s0 (Machine.tryLoad h s r) := by
  unfold Machine.tryLoad
  try dsimp only
  repeat' first
    | with_reducible first
      | exact ke | exact Keeps.refl _ | apply Keeps.ite | apply Keeps.finishRun | apply Keeps.startLoads | rfl
    | intro _ | split

theorem nextLoad {s0 : State} {h : Nat} {s : State} (ke : Keeps s0 s) : Keeps s0 (Machine.nextLoad h s) := by
  unfold Machine.nextLoad
  try dsimp only
  repeat' first
    | with_reducible first
      | exact ke | exact Keeps.refl _ | apply Keeps.foldl | apply Keeps.tryLoad | apply Keeps.foldSnd
      | apply Keeps.foldSnd2 | rfl
    | intro _

theorem stopLoad {s0 : State} {p : Nat} {s : State} (ke : Keeps s0 s) : Keeps s0 (Machine.stopLoad p s) := by
  unfold Machine.stopLoad
  try dsimp only
  repeat' first
    | with_reducible first
      | exact ke | exact Keeps.refl _ | apply Keeps.ite | apply Keeps.raise | apply Keeps.refreshHubIdle
      | apply Keeps.setPod | apply Keeps.wr

theorem emptyLoading {s0 : State} {p : Nat} {s : State} (ke : Keeps s0 s) : Keeps s0 (Machine.emptyLoading p s) := by
  unfold Machine.emptyLoading
  try dsimp only
  repeat' first
    | with_reducible first
      | exact ke | exact Keeps.refl _ | apply Keeps.ite | apply Keeps.foldl | apply Keeps.wr | apply Keeps.foldSnd
      | apply Keeps.foldSnd2 | rfl
    | intro _

theorem dropLoads {s0 : State} {h : Nat} {s : State} (ke : Keeps s0 s) : Keeps s0 (Machine.dropLoads h s) := by
  unfold Machine.dropLoads
  try dsimp only
  repeat' first
    | with_reducible first
      | exact ke | exact Keeps.refl _ | apply Keeps.emptyLoading | apply Keeps.foldl | apply Keeps.stopLoad
      | apply Keeps.foldSnd | apply Keeps.foldSnd2 | rfl
    | intro _

theorem abortLoads {s0 : State} {h : Nat} {s : State} (ke : Keeps s0 s) : Keeps s0 (Machine.abortLoads h s) := by
  unfold Machine.abortLoads
  try dsimp only
  repeat' first
    | with_reducible first
      | exact ke | exact Keeps.refl _ | apply Keeps.dropLoads | apply Keeps.finishRun | apply Keeps.foldl
      | apply Keeps.foldSnd | apply Keeps.foldSnd2 | rfl
    | intro _

theorem noteLoads {s0 : State} {ps : List Nat} {f : Option Fail} {s : State}
    (ke : Keeps s0 s) : Keeps s0 (Machine.noteLoads ps f s) := by
  unfold Machine.noteLoads
  try dsimp only
  repeat' first
    | with_reducible first
      | exact ke | exact Keeps.refl _ | apply Keeps.ite | apply Keeps.foldl | apply Keeps.raise | apply Keeps.wr32
      | apply Keeps.foldSnd | apply Keeps.foldSnd2 | rfl
    | intro _ | split

theorem startShells {s0 : State} {configs p : Nat} {s : State}
    (ke : Keeps s0 s) : Keeps s0 (Machine.startShells configs p s) := by
  unfold Machine.startShells
  try dsimp only
  repeat' first
    | with_reducible first
      | exact ke | exact Keeps.refl _ | apply Keeps.ite | apply Keeps.foldl | apply Keeps.setTile | apply Keeps.wr
      | apply Keeps.foldSnd | apply Keeps.foldSnd2 | rfl
    | intro _

theorem checkActive {s0 : State} {h : Nat} {s : State} (ke : Keeps s0 s) : Keeps s0 (Machine.checkActive h s) := by
  unfold Machine.checkActive
  try dsimp only
  repeat' first
    | with_reducible first
      | exact ke | exact Keeps.refl _ | apply Keeps.foldl | apply Keeps.raiseFault | apply Keeps.foldSnd
      | apply Keeps.foldSnd2 | rfl
    | intro _ | split

theorem unpinHull {s0 : State} {h : Nat} {s : State} (ke : Keeps s0 s) : Keeps s0 (Machine.unpinHull h s) := by
  unfold Machine.unpinHull
  try dsimp only
  repeat' first
    | with_reducible first
      | exact ke | exact Keeps.refl _ | apply Keeps.setHull | apply Keeps.unpin

theorem releaseHull {s0 : State} {h : Nat} {s : State} (ke : Keeps s0 s) : Keeps s0 (Machine.releaseHull h s) := by
  unfold Machine.releaseHull
  try dsimp only
  repeat' first
    | with_reducible first
      | exact ke | exact Keeps.refl _ | apply Keeps.ite | apply Keeps.foldl | apply Keeps.freeRuns
      | apply Keeps.freeTensor | apply Keeps.lowerPods | apply Keeps.refreshHeat | apply Keeps.releasePod
      | apply Keeps.setTensor | apply Keeps.unpinHull | apply Keeps.foldSnd | apply Keeps.foldSnd2 | rfl
    | intro _ | split | with_reducible apply Keeps.lit

theorem failCreate {s0 : State} {r : Running} {h status detail : Nat} {s : State}
    (ke : Keeps s0 s) : Keeps s0 (Machine.failCreate r h status detail s) := by
  unfold Machine.failCreate
  try dsimp only
  repeat' first
    | with_reducible first
      | exact ke | exact Keeps.refl _ | apply Keeps.finishRun | apply Keeps.hullTrace | apply Keeps.releaseHull

theorem reserveOne_inr {s0 : State} {h : Nat} {o : Nat → Bool} {im : List Nat} {acc : Resv} {x : TierReq × Nat}
    (ha : ∀ hs v, acc = .inr (hs, v) → Keeps s0 v) :
    ∀ hs v, Machine.reserveOne h o im acc x = .inr (hs, v) → Keeps s0 v := by
  intro hs v e
  unfold Machine.reserveOne at e
  split at e
  · cases e
  · have ka := ha _ _ rfl
    dsimp only at e
    split at e
    · split at e
      · cases e
      · cases e
      · rename_i hd; injection e with e; injection e with _ e; subst e; exact defineTensor_inr ka hd
    · split at e
      · split at e
        · cases e
        · injection e with e; injection e with _ e; subst e; exact ka.setTensor _ _
      · split at e
        · cases e
        · cases e
        · rename_i hd; injection e with e; injection e with _ e; subst e; exact defineRegion_inr ka hd

theorem reserveAll_inr {s0 : State} {h : Nat} {o : Nat → Bool} {im : List Nat} {l : List (TierReq × Nat)} {acc : Resv}
    (ha : ∀ hs v, acc = .inr (hs, v) → Keeps s0 v) :
    ∀ hs v, l.foldl (Machine.reserveOne h o im) acc = .inr (hs, v) → Keeps s0 v := by
  induction l generalizing acc with
  | nil => exact ha
  | cons x l ih => exact ih (reserveOne_inr ha)

theorem reserveSaves_inr {s0 : State} {h n : Nat} {acc : Resv}
    (ha : ∀ hs v, acc = .inr (hs, v) → Keeps s0 v) :
    ∀ hs v, Machine.reserveSaves h acc n = .inr (hs, v) → Keeps s0 v := by
  unfold Machine.reserveSaves
  generalize List.range n = l
  induction l generalizing acc with
  | nil => exact ha
  | cons x l ih =>
    refine ih ?_
    intro hs v e
    dsimp only at e
    split at e
    · cases e
    · split at e
      · cases e
      · rename_i hc; injection e with e; injection e with _ e; subst e; exact allocN_some (ha _ _ rfl) hc

theorem inr_self {s t : State} (ke : Keeps s t) : ∀ hs v, (Sum.inr ([], t) : Resv) = .inr (hs, v) → Keeps s v := by
  intro hs v e; injection e with e; injection e with _ e; subst e; exact ke

theorem createReserve {s0 : State} {r : Running} {h : Nat} {s : State} (ke : Keeps s0 s) :
    Keeps s0 (Machine.createReserve r h s) := by
  unfold Machine.createReserve
  extract_lets s hl e rd rs im op
  have ke : Keeps s0 s := hullTrace ke
  split
  · exact failCreate ke
  · rename_i h1
    split
    · exact failCreate ke
    · rename_i h2
      have k1 := reserveAll_inr (inr_self ke) _ _ h1
      have k2 := reserveSaves_inr (inr_self k1) _ _ h2
      extract_lets hl2
      have kl := look (rs := sourceRanges hl.pkg rs) (k2.setHull h hl2)
      generalize Machine.look (sourceRanges hl.pkg rs) (State.setHull _ h hl2) = x at kl ⊢
      split
      · exact failCreate kl
      · extract_lets r2 b need hv c
        have kb : Keeps s0 b := refreshHeat ((fillRequests kl).setHull _ _)
        split
        · exact failCreate (kb.setHull _ _)
        · have kc : Keeps s0 c := foldl (fun _ _ => writeTable (assignPod (refl _))) _ kb
          exact startLoads (setRun kc)

theorem finishCreate {s0 : State} {r : Running} {h : Nat} {s : State}
    (ke : Keeps s0 s) : Keeps s0 (Machine.finishCreate r h s) := by
  unfold Machine.finishCreate
  try dsimp only
  repeat' first
    | with_reducible first
      | exact ke | exact Keeps.refl _ | apply Keeps.ite | apply Keeps.checkActive | apply Keeps.dmaOut
      | apply Keeps.finishRun | apply Keeps.raisePods | apply Keeps.setHull | apply Keeps.setPods

theorem createPin {s0 : State} {r : Running} {h : Nat} {s : State} (ke : Keeps s0 s) :
    Keeps s0 (Machine.createPin r h s) := by
  unfold Machine.createPin
  extract_lets hs x
  have kx : Keeps s0 x.2 := pinStep (keepPinned ke)
  split
  · exact failCreate kx
  · exact ite (finishCreate kx) (setRun kx)

theorem createChecks {s0 : State} {r : Running} {h : Nat} {s : State}
    (ke : Keeps s0 s) : Keeps s0 (Machine.createChecks r h s) := by
  unfold Machine.createChecks
  try dsimp only
  repeat' first
    | with_reducible first
      | exact ke | exact Keeps.refl _ | apply Keeps.ite | apply Keeps.createPin | apply Keeps.failCreate
      | apply Keeps.finishCreate | apply Keeps.foldl | apply Keeps.noteLoads | apply Keeps.setHull
      | apply Keeps.startShells | apply Keeps.foldSnd | apply Keeps.foldSnd2 | rfl
    | intro _ | split

theorem createHull {s0 : State} {r : Running} {pkg : Nat} {s : State}
    (ke : Keeps s0 s) : Keeps s0 (Machine.createHull r pkg s) := by
  unfold Machine.createHull
  try dsimp only
  repeat' first
    | with_reducible first
      | exact ke | exact Keeps.refl _ | apply Keeps.ite | apply Keeps.complete | apply Keeps.hullDevices
      | apply Keeps.powerPods | apply Keeps.setHull | apply Keeps.startRun | refine Keeps.sndEq ?_ (by assumption)
      | rfl
    | intro _ | split | with_reducible apply Keeps.litFree

theorem beginQuiesce {s0 : State} {h : Nat} {s : State} (ke : Keeps s0 s) : Keeps s0 (Machine.beginQuiesce h s) := by
  unfold Machine.beginQuiesce
  try dsimp only
  repeat' first
    | with_reducible first
      | exact ke | exact Keeps.refl _ | apply Keeps.ite | apply Keeps.foldl | apply Keeps.refreshInjectStopped
      | apply Keeps.wr | apply Keeps.foldSnd | apply Keeps.foldSnd2 | rfl
    | intro _

theorem beginHalt {s0 : State} {h : Nat} {s : State} (ke : Keeps s0 s) : Keeps s0 (Machine.beginHalt h s) := by
  unfold Machine.beginHalt
  try dsimp only
  repeat' first
    | with_reducible first
      | exact ke | exact Keeps.refl _ | apply Keeps.ite | apply Keeps.abortLoads | apply Keeps.foldl
      | apply Keeps.setHull | apply Keeps.setPods | apply Keeps.wr | apply Keeps.foldSnd | apply Keeps.foldSnd2 | rfl
    | intro _

theorem startPodScan {s0 : State} {p dir : Nat} {s : State}
    (ke : Keeps s0 s) : Keeps s0 (Machine.startPodScan p dir s) := by
  unfold Machine.startPodScan
  try dsimp only
  repeat' first
    | with_reducible first
      | exact ke | exact Keeps.refl _ | apply Keeps.refreshHubIdle | apply Keeps.setPod | apply Keeps.wr

theorem endPodScan {s0 : State} {p : Nat} {bad : Bool} {s : State}
    (ke : Keeps s0 s) : Keeps s0 (Machine.endPodScan p bad s) := by
  unfold Machine.endPodScan
  try dsimp only
  repeat' first
    | with_reducible first
      | exact ke | exact Keeps.refl _ | apply Keeps.ite | apply Keeps.raise | apply Keeps.refreshHubIdle
      | apply Keeps.setPod | apply Keeps.wr

theorem startScan {s0 : State} {h dir : Nat} {s : State} (ke : Keeps s0 s) : Keeps s0 (Machine.startScan h dir s) := by
  unfold Machine.startScan
  try dsimp only
  repeat' first
    | with_reducible first
      | exact ke | exact Keeps.refl _ | apply Keeps.foldl | apply Keeps.startPodScan | apply Keeps.wr64
      | apply Keeps.getD | apply Keeps.foldSnd | apply Keeps.foldSnd2 | rfl
    | intro _

theorem execQuiescenceReached {hull : Nat} {s : State} : Answers s (Machine.execQuiescenceReached hull s) := by
  unfold Machine.execQuiescenceReached
  try dsimp only
  repeat' first
    | with_reducible first
      | apply Keeps.ans | apply Keeps.ansIte | exact Keeps.refl _ | apply Keeps.ite | apply Keeps.beginQuiesce
      | apply Keeps.foldl | apply Keeps.refreshInjectStopped | apply Keeps.startScan | apply Keeps.foldSnd
      | apply Keeps.foldSnd2 | rfl
    | intro _

theorem badRecord {s0 : State} {p : Nat} {s : State} (ke : Keeps s0 s) : Keeps s0 (Machine.badRecord p s) := by
  unfold Machine.badRecord
  try dsimp only
  repeat' first
    | with_reducible first
      | exact ke | exact Keeps.refl _ | apply Keeps.raise | apply Keeps.wr

theorem beginRestore_inr {s0 : State} {h : Nat} {s u : State} (ke : Keeps s0 s)
    (e : Machine.beginRestore h s = .inr u) : Keeps s0 u := by
  unfold Machine.beginRestore at e
  dsimp only at e
  split at e
  · injection e with e; subst e; exact startScan (foldl (fun _ _ => writeMap (refl _)) _ ke)
  · cases e

theorem beginRestore_inl {s0 : State} {h : Nat} {s : State} {x : Nat × State} (ke : Keeps s0 s)
    (e : Machine.beginRestore h s = .inl x) : Keeps s0 x.2 := by
  unfold Machine.beginRestore at e
  dsimp only at e
  split at e
  · cases e
  · injection e with e; subst e
    with_reducible apply foldl
    · exact fun _ _ => badRecord (refl _)
    · exact ke

theorem restoreFails {s0 : State} {r : Running} {l : Nat} {s : State}
    (ke : Keeps s0 s) : Keeps s0 (Machine.restoreFails r l s) := by
  unfold Machine.restoreFails
  try dsimp only
  repeat' first
    | with_reducible first
      | exact ke | exact Keeps.refl _ | apply Keeps.finishRun

theorem resumeHull {s0 : State} {h : Nat} {s : State} (ke : Keeps s0 s) : Keeps s0 (Machine.resumeHull h s) := by
  unfold Machine.resumeHull
  try dsimp only
  repeat' first
    | with_reducible first
      | exact ke | exact Keeps.refl _ | apply Keeps.foldl | apply Keeps.setHull | apply Keeps.setPods | apply Keeps.wr
      | apply Keeps.foldSnd | apply Keeps.foldSnd2 | rfl
    | intro _

theorem failRepackage {s0 : State} {r : Running} {h status detail : Nat} {s : State} (ke : Keeps s0 s) :
    Keeps s0 (Machine.failRepackage r h status detail s) := by
  unfold Machine.failRepackage
  have ke : Keeps s0 ((s.hull h).pods.foldl (fun s p => Machine.emptyLoading p s) s) :=
    foldl (g := fun s p => Machine.emptyLoading p s) (fun _ _ => emptyLoading (refl _)) _ ke
  exact finishRun (ke.setHull _ _)

theorem relocate {s0 : State} {r : Running} {h stage : Nat} {ps : List Nat} {s : State} (ke : Keeps s0 s) :
    Keeps s0 (Machine.relocate r h stage ps s) := by
  unfold Machine.relocate
  extract_lets hl old a b c d f
  have ka : Keeps s0 a := lowerPods (foldl (g := fun s p => Machine.releasePod p s) (fun _ _ => releasePod (refl _)) _ ke)
  have kb : Keeps s0 b := ka.setHull _ _
  have kc : Keeps s0 c := foldl (fun _ _ => refreshInjectStopped ((((writeTable (assignPod (refl _))).wr _ _).wr _ _).wr _ _)) _ kb
  have kf : Keeps s0 f := setRun (raisePods kc)
  split
  · rename_i hb; exact restoreFails (beginRestore_inl kf hb)
  · rename_i hb; exact beginRestore_inr kf hb

theorem repackage {s0 : State} {r : Running} {h stage : Nat} {ps : List Nat} {s : State} (ke : Keeps s0 s) :
    Keeps s0 (Machine.repackage r h stage ps s) := by
  unfold Machine.repackage
  extract_lets hl pkg rd rs seen s1 oldRs isDesc oldTables kept gone r2 old
  have ks : Keeps s0 seen.2.2 := by with_reducible exact look ke
  have ke : Keeps s0 s1 := ks
  split
  · exact failRepackage ke
  split
  · exact failRepackage ke
  · rename_i h1
    split
    · exact failRepackage ke
    · rename_i h2
      have k1 := reserveAll_inr (inr_self ke) _ _ h1
      have k2 := reserveSaves_inr (inr_self k1) _ _ h2
      extract_lets a b handles c d hl2 f g
      have ka : Keeps s0 a := freeRuns k2
      have kb : Keeps s0 b := foldl (fun _ _ => freeTensor (refl _)) _ ka
      have kc : Keeps s0 c := fillRequests kb
      have kd : Keeps s0 d := lowerPods (foldl (g := fun s p => Machine.releasePod p s) (fun _ _ => releasePod (refl _)) _ kc)
      have kf : Keeps s0 f := refreshHeat (kd.setHull _ _)
      have kg : Keeps s0 g := foldl (fun _ _ => (writeTable (assignPod (refl _))).wr _ _) _ kf
      exact startLoads (setRun kg)

theorem repackageChecks {s0 : State} {r : Running} {h : Nat} {s : State}
    (ke : Keeps s0 s) : Keeps s0 (Machine.repackageChecks r h s) := by
  unfold Machine.repackageChecks
  try dsimp only
  repeat' first
    | with_reducible first
      | exact ke | exact Keeps.refl _ | apply Keeps.checkActive | apply Keeps.failRepackage | apply Keeps.finishRun
      | apply Keeps.foldl | apply Keeps.formStep | apply Keeps.noteLoads | apply Keeps.raisePods
      | apply Keeps.resumeHull | apply Keeps.startShells | apply Keeps.wr32 | apply Keeps.foldSnd
      | apply Keeps.foldSnd2 | rfl
    | intro _ | split

theorem finishDestroy {s0 : State} {r : Running} {h : Nat} {s : State}
    (ke : Keeps s0 s) : Keeps s0 (Machine.finishDestroy r h s) := by
  unfold Machine.finishDestroy
  try dsimp only
  repeat' first
    | with_reducible first
      | exact ke | exact Keeps.refl _ | apply Keeps.cycRemoveHull | apply Keeps.failRequest | apply Keeps.finishRun
      | apply Keeps.finishRuns | apply Keeps.foldl | apply Keeps.releaseHull | apply Keeps.foldSnd
      | apply Keeps.foldSnd2 | rfl
    | intro _

theorem dropWork {s0 : State} {h : Nat} {s : State} (ke : Keeps s0 s) : Keeps s0 (Machine.dropWork h s) := by
  unfold Machine.dropWork
  try dsimp only
  repeat' first
    | with_reducible first
      | exact ke | exact Keeps.refl _ | apply Keeps.foldl | apply Keeps.refreshHubIdle | apply Keeps.setPod
      | apply Keeps.setQueue | apply Keeps.foldSnd | apply Keeps.foldSnd2 | rfl
    | intro _ | split | with_reducible apply Keeps.lit

theorem handleFault {s0 : State} {h : Nat} {tell : Bool} {s : State}
    (ke : Keeps s0 s) : Keeps s0 (Machine.handleFault h tell s) := by
  unfold Machine.handleFault
  try dsimp only
  repeat' first
    | with_reducible first
      | exact ke | exact Keeps.refl _ | apply Keeps.ite | apply Keeps.abortLoads | apply Keeps.addSat
      | apply Keeps.dropWork | apply Keeps.failRequest | apply Keeps.finishRuns | apply Keeps.foldl
      | apply Keeps.recordEvent | apply Keeps.releaseStep | apply Keeps.sendEpoch | apply Keeps.sendPacket
      | apply Keeps.setHull | apply Keeps.step | apply Keeps.foldSnd | apply Keeps.foldSnd2
      | refine Keeps.sndEq ?_ (by assumption) | rfl
    | intro _ | split

theorem releaseMirror {s0 : State} {h : Nat} {s : State} (ke : Keeps s0 s) : Keeps s0 (Machine.releaseMirror h s) := by
  unfold Machine.releaseMirror
  try dsimp only
  repeat' first
    | with_reducible first
      | exact ke | exact Keeps.refl _ | apply Keeps.ite | apply Keeps.dropRun | apply Keeps.foldl
      | apply Keeps.freeRuns | apply Keeps.lowerPods | apply Keeps.refreshHeat | apply Keeps.releasePod
      | apply Keeps.foldSnd | apply Keeps.foldSnd2 | rfl
    | intro _ | split | with_reducible apply Keeps.lit

theorem mirrorLoad {s0 : State} {r : Running} {h : Nat} {s : State} (ke : Keeps s0 s) :
    Keeps s0 (Machine.mirrorLoad r h s) := by
  unfold Machine.mirrorLoad
  extract_lets a _src hl b c
  have kb : Keeps s0 b := (look (rs := _) ke).setHull _ _
  have kc : Keeps s0 c := foldl (fun _ _ => writeTable (assignPod (refl _))) _ kb
  exact startLoads (setRun kc)

theorem applyShell {s0 : State} {h : Nat} {s : State} {x : Nat × Nat × Nat}
    (ke : Keeps s0 s) : Keeps s0 (Machine.applyShell h s x) := by
  unfold Machine.applyShell
  try dsimp only
  repeat' first
    | with_reducible first
      | exact ke | exact Keeps.refl _ | apply Keeps.foldl | apply Keeps.storeLoad | apply Keeps.wr
      | apply Keeps.foldSnd | apply Keeps.foldSnd2 | rfl
    | intro _

theorem mirrorChecks {s0 : State} {r : Running} {h : Nat} {s : State}
    (ke : Keeps s0 s) : Keeps s0 (Machine.mirrorChecks r h s) := by
  unfold Machine.mirrorChecks
  try dsimp only
  repeat' first
    | with_reducible first
      | exact ke | exact Keeps.refl _ | apply Keeps.applyShell | apply Keeps.checkActive | apply Keeps.dropRun
      | apply Keeps.foldl | apply Keeps.formStep | apply Keeps.noteLoads | apply Keeps.raisePods
      | apply Keeps.releaseMirror | apply Keeps.setPods | apply Keeps.startShells | apply Keeps.foldSnd
      | apply Keeps.foldSnd2 | rfl
    | intro _ | split

theorem advanceHull {s0 : State} {h : Nat} {s : State} (ke : Keeps s0 s) : Keeps s0 (Machine.advanceHull h s) := by
  unfold Machine.advanceHull
  extract_lets hl
  split
  · exact ke
  · split
    · exact ite (createReserve ke) ke
    · exact ite (createChecks ke) ke
    · exact createPin ke
    · exact ite (relocate ke) (beginQuiesce ke)
    · exact ite (repackage ke) ke
    · exact ite (failRepackage ke) ke
    · exact ite (repackageChecks ke) ke
    · exact ite (finishDestroy ke) ke
    · exact beginQuiesce ke
    · exact ite (mirrorLoad ke) ke
    · exact ite (mirrorChecks ke) ke
    · exact ke

theorem advanceAll {s0 : State} {s : State} (ke : Keeps s0 s) : Keeps s0 (Machine.advanceAll s) := by
  unfold Machine.advanceAll
  try dsimp only
  repeat' first
    | with_reducible first
      | exact ke | exact Keeps.refl _ | apply Keeps.advanceHull | apply Keeps.foldl | apply Keeps.foldSnd
      | apply Keeps.foldSnd2 | rfl
    | intro _

theorem advanceMirrored {s0 : State} {s : State} (ke : Keeps s0 s) : Keeps s0 (Machine.advanceMirrored s) := by
  unfold Machine.advanceMirrored
  try dsimp only
  repeat' first
    | with_reducible first
      | exact ke | exact Keeps.refl _ | apply Keeps.advanceAll | apply Keeps.commandEpoch

theorem parkRequests {s0 : State} {h : Nat} {s : State} (ke : Keeps s0 s) : Keeps s0 (Machine.parkRequests h s) := by
  unfold Machine.parkRequests
  try dsimp only
  repeat' first
    | with_reducible first
      | exact ke | exact Keeps.refl _ | apply Keeps.failRequest | apply Keeps.finishRuns | apply Keeps.foldl
      | apply Keeps.foldSnd | apply Keeps.foldSnd2 | rfl
    | intro _

theorem afterBoundary {s0 : State} {h : Nat} {s : State} (ke : Keeps s0 s) : Keeps s0 (Machine.afterBoundary h s) := by
  unfold Machine.afterBoundary
  try dsimp only
  repeat' first
    | with_reducible first
      | exact ke | exact Keeps.refl _ | apply Keeps.ite | apply Keeps.advanceHull | apply Keeps.beginQuiesce
      | apply Keeps.commandEpoch | apply Keeps.formStep | apply Keeps.parkRequests

theorem commitStep {s0 : State} {h : Nat} {s : State} (ke : Keeps s0 s) : Keeps s0 (Machine.commitStep h s) := by
  unfold Machine.commitStep
  try dsimp only
  repeat' first
    | with_reducible first
      | exact ke | exact Keeps.refl _ | apply Keeps.ite | apply Keeps.afterBoundary | apply Keeps.endStep

theorem execStepCommit {hull : Nat} {s : State} : Answers s (Machine.execStepCommit hull s) := by
  unfold Machine.execStepCommit
  try dsimp only
  repeat' first
    | with_reducible first
      | apply Keeps.ans | apply Keeps.ansIte | exact Keeps.refl _ | apply Keeps.commitStep

theorem execHullFaultHandling {hull : Nat} {s : State} : Answers s (Machine.execHullFaultHandling hull s) := by
  unfold Machine.execHullFaultHandling
  try dsimp only
  repeat' first
    | with_reducible first
      | apply Keeps.ans | apply Keeps.ansIte | exact Keeps.refl _ | apply Keeps.advanceHull | apply Keeps.commandEpoch
      | apply Keeps.handleFault

theorem foreignFault {s0 : State} {h : Nat} {rec : DWord} {s : State}
    (ke : Keeps s0 s) : Keeps s0 (Machine.foreignFault h rec s) := by
  unfold Machine.foreignFault
  try dsimp only
  repeat' first
    | with_reducible first
      | exact ke | exact Keeps.refl _ | apply Keeps.ite | apply Keeps.advanceHull | apply Keeps.haltPods
      | apply Keeps.handleFault | apply Keeps.setHull

theorem execFaultNotice {n : FaultNote} {s : State} : Answers s (Machine.execFaultNotice n s) := by
  unfold Machine.execFaultNotice
  try dsimp only
  repeat' first
    | with_reducible first
      | apply Keeps.ans | apply Keeps.ansIte | exact Keeps.refl _ | apply Keeps.commandEpoch | apply Keeps.foldl
      | apply Keeps.foreignFault | apply Keeps.foldSnd | apply Keeps.foldSnd2 | rfl
    | intro _

theorem loadChecks {s0 : State} {r : Running} {h : Nat} {ld : Load} {before s : State}
    (ke : Keeps s0 s) : Keeps s0 (Machine.loadChecks r h ld before s) := by
  unfold Machine.loadChecks
  try dsimp only
  repeat' first
    | with_reducible first
      | exact ke | exact Keeps.refl _ | apply Keeps.commandEpoch | apply Keeps.commandEpochWith
      | apply Keeps.finishRun | apply Keeps.foldl | apply Keeps.noteLoads | apply Keeps.setHull | apply Keeps.wr
      | apply Keeps.foldSnd | apply Keeps.foldSnd2 | rfl
    | intro _ | split

theorem bareFails {s0 : State} {p : Nat} {ld : Load} {s : State}
    (ke : Keeps s0 s) : Keeps s0 (Machine.bareFails p ld s) := by
  unfold Machine.bareFails
  try dsimp only
  repeat' first
    | with_reducible first
      | exact ke | exact Keeps.refl _ | apply Keeps.stopLoad | apply Keeps.wr

theorem bareStore {s0 : State} {p : Nat} {sp : Spot} {ld : Load} {s : State}
    (ke : Keeps s0 s) : Keeps s0 (Machine.bareStore p sp ld s) := by
  unfold Machine.bareStore
  try dsimp only
  repeat' first
    | with_reducible first
      | exact ke | exact Keeps.refl _ | apply Keeps.addSat | apply Keeps.foldl | apply Keeps.raise
      | apply Keeps.refreshHubIdle | apply Keeps.setPod | apply Keeps.setTile | apply Keeps.wr | apply Keeps.foldSnd
      | apply Keeps.foldSnd2 | rfl
    | intro _

theorem bareDone {s0 : State} {h p : Nat} {ld : Load} {s : State}
    (ke : Keeps s0 s) : Keeps s0 (Machine.bareDone h p ld s) := by
  unfold Machine.bareDone
  try dsimp only
  repeat' first
    | with_reducible first
      | exact ke | exact Keeps.refl _ | apply Keeps.ite | apply Keeps.bareFails | apply Keeps.bareStore
      | apply Keeps.sweep | apply Keeps.wr32 | refine Keeps.sndEq ?_ (by assumption) | rfl
    | intro _ | split

theorem loadFails {s0 : State} {h : Nat} {ld : Load} {status detail : Nat} {s : State}
    (ke : Keeps s0 s) : Keeps s0 (Machine.loadFails h ld status detail s) := by
  unfold Machine.loadFails
  try dsimp only
  repeat' first
    | with_reducible first
      | exact ke | exact Keeps.refl _ | apply Keeps.dropLoads | apply Keeps.failCreate | apply Keeps.failRepackage
      | apply Keeps.finishRun | apply Keeps.nextLoad | apply Keeps.releaseMirror | rfl
    | intro _ | split

theorem noteLoadRun {s0 : State} {h : Nat} {ld : Load} {u : Bool} {s : State}
    (ke : Keeps s0 s) : Keeps s0 (Machine.noteLoadRun h ld u s) := by
  unfold Machine.noteLoadRun
  try dsimp only
  repeat' first
    | with_reducible first
      | exact ke | exact Keeps.refl _ | apply Keeps.ite | apply Keeps.setRun | rfl
    | intro _ | split

theorem execShellLoadDone {pod : Nat} {s : State} : Answers s (Machine.execShellLoadDone pod s) := by
  unfold Machine.execShellLoadDone
  split
  · rename_i ld h _ _
    refine ansIte (ans (refl s)) (ansIte (ans (abortLoads (refl s))) (ansIte (ans (nextLoad (bareDone (refl s)))) ?_))
    have kl := look (rs := loadRanges s h pod ld) (refl s)
    split
    · rename_i e; rw [e] at kl; exact ans (commandEpoch (loadFails kl))
    · rename_i e; rw [e] at kl
      extract_lets s1 hl
      have k1 : Keeps s s1 := storeLoad (noteLoadRun kl)
      split
      · refine ansIte (ans k1) ?_
        have kt := look (rs := tableRanges s1 h) k1
        split
        · rename_i e2; rw [e2] at kt; exact ans (commandEpoch (loadFails (foldl (fun _ _ => (refl _).wr _ _) _ kt)))
        · rename_i e2; rw [e2] at kt; exact ans (nextLoad (loadChecks kt))
      · exact ansIte (ans (startLoad k1)) (ans (commandEpoch (advanceHull k1)))
  · exact ans (refl s)

theorem startBare {s0 : State} {p : Nat} {s : State} (ke : Keeps s0 s) : Keeps s0 (Machine.startBare p s) := by
  unfold Machine.startBare
  try dsimp only
  repeat' first
    | with_reducible first
      | exact ke | exact Keeps.refl _ | apply Keeps.ite | apply Keeps.refreshHubIdle | apply Keeps.setPod
      | apply Keeps.wr

theorem abortPod {s0 : State} {p : Nat} {s : State} (ke : Keeps s0 s) : Keeps s0 (Machine.abortPod p s) := by
  unfold Machine.abortPod
  try dsimp only
  repeat' first
    | with_reducible first
      | exact ke | exact Keeps.refl _ | apply Keeps.ite | apply Keeps.abortLoads | apply Keeps.failCreate
      | apply Keeps.failRepackage | apply Keeps.releaseMirror | apply Keeps.stopLoad | apply Keeps.wr | rfl
    | intro _ | split

theorem huskShell {s0 : State} {p v : Nat} {s : State} (ke : Keeps s0 s) : Keeps s0 (Machine.huskShell p v s) := by
  unfold Machine.huskShell
  try dsimp only
  repeat' first
    | with_reducible first
      | exact ke | exact Keeps.refl _ | apply Keeps.ite | apply Keeps.abortPod | apply Keeps.startBare

theorem huskScan {s0 : State} {p v : Nat} {s : State} (ke : Keeps s0 s) : Keeps s0 (Machine.huskScan p v s) := by
  unfold Machine.huskScan
  try dsimp only
  repeat' first
    | with_reducible first
      | exact ke | exact Keeps.refl _ | apply Keeps.ite | apply Keeps.badRecord | apply Keeps.startPodScan
      | apply Keeps.writeMap | rfl
    | intro _ | split

theorem finishSwitch {s0 : State} {r : Running} {all : List Nat} {s : State}
    (ke : Keeps s0 s) : Keeps s0 (Machine.finishSwitch r all s) := by
  unfold Machine.finishSwitch
  try dsimp only
  repeat' first
    | with_reducible first
      | exact ke | exact Keeps.refl _ | apply Keeps.commandEpoch | apply Keeps.done | apply Keeps.endRunAt
      | apply Keeps.foldl | apply Keeps.resumeHull | apply Keeps.sendTwin | apply Keeps.setTwa | apply Keeps.step
      | apply Keeps.wr | apply Keeps.foldSnd | apply Keeps.foldSnd2 | rfl
    | intro _ | split | with_reducible apply Keeps.lit

theorem switchDrained {s0 : State} {r : Running} {left all : List Nat} {h : Nat} {bad : Option Nat} {s : State}
    (ke : Keeps s0 s) : Keeps s0 (Machine.switchDrained r left all h bad s) := by
  unfold Machine.switchDrained
  try dsimp only
  repeat' first
    | with_reducible first
      | exact ke | exact Keeps.refl _ | apply Keeps.ite | apply Keeps.finishRun | apply Keeps.finishSwitch
      | apply Keeps.foldl | apply Keeps.formStep | apply Keeps.resumeHull | apply Keeps.setRun | apply Keeps.foldSnd
      | apply Keeps.foldSnd2 | rfl
    | intro _ | split

theorem drainDone {s0 : State} {h : Nat} {s : State} (ke : Keeps s0 s) : Keeps s0 (Machine.drainDone h s) := by
  unfold Machine.drainDone
  try dsimp only
  repeat' first
    | with_reducible first
      | exact ke | exact Keeps.refl _ | apply Keeps.ite | apply Keeps.advanceHull | apply Keeps.endRunAt
      | apply Keeps.finishRun | apply Keeps.pumpFences | apply Keeps.setHull | apply Keeps.switchDrained
      | apply Keeps.getD | rfl
    | intro _ | split

theorem execScanOutDone {pod : Nat} {s : State} : Answers s (Machine.execScanOutDone pod s) := by
  unfold Machine.execScanOutDone
  try dsimp only
  repeat' first
    | with_reducible first
      | apply Keeps.ans | apply Keeps.ansIte | exact Keeps.refl _ | apply Keeps.ite | apply Keeps.commandEpoch
      | apply Keeps.correctStores | apply Keeps.drainDone | apply Keeps.endPodScan | apply Keeps.foldl
      | apply Keeps.scanOut | apply Keeps.uncorrectable | apply Keeps.wr | apply Keeps.foldSnd | apply Keeps.foldSnd2
      | rfl
    | intro _ | split

theorem restoreDone {s0 : State} {h : Nat} {s : State} (ke : Keeps s0 s) : Keeps s0 (Machine.restoreDone h s) := by
  unfold Machine.restoreDone
  try dsimp only
  repeat' first
    | with_reducible first
      | exact ke | exact Keeps.refl _ | apply Keeps.ite | apply Keeps.finishRun | apply Keeps.formStep
      | apply Keeps.resumeHull | rfl
    | intro _ | split

theorem execScanInDone {pod : Nat} {s : State} : Answers s (Machine.execScanInDone pod s) := by
  unfold Machine.execScanInDone
  try dsimp only
  repeat' first
    | with_reducible first
      | apply Keeps.ans | apply Keeps.ansIte | exact Keeps.refl _ | apply Keeps.ite | apply Keeps.commandEpoch
      | apply Keeps.correctSave | apply Keeps.endPodScan | apply Keeps.foldl | apply Keeps.restoreDone
      | apply Keeps.restoreFails | apply Keeps.scanIn | apply Keeps.uncorrectable | apply Keeps.wr
      | apply Keeps.writeTable | apply Keeps.foldSnd | apply Keeps.foldSnd2 | rfl
    | intro _ | split

/-! ### Command -/

theorem runCmd {s0 : State} {body : Cmd → State → State} {c : Cmd} {s : State} (hb : ∀ c t, Keeps t (body c t))
    (ke : Keeps s0 s) : Keeps s0 (Machine.runCmd body c s) := by
  unfold Machine.runCmd
  split
  · exact ke.done ..
  · exact ke.trans (hb _ _)

/-! ### CmdTensor -/

theorem definePlainRegion_inr {s0 : State} {share : Bool} {elem a : Nat} {s u : State} (ke : Keeps s0 s)
    (e : Machine.definePlainRegion share elem s = .inr (a, u)) : Keeps s0 u := by
  unfold Machine.definePlainRegion at e
  split at e
  · cases e
  · rename_i h; injection e with e; injection e with _ e; subst e
    exact refreshHeat ((defineRegion_inr ke h).setTensor _ _)

theorem execTensorDefine {ring : Nat} {s : State} : Answers s (Machine.execTensorDefine ring s) := by
  unfold Machine.execTensorDefine
  refine hostCmd (fun c t => ?_)
  have kt := refl t
  have main : ∀ (b : Bool) (x : Sum Nat (Nat × State)) (sh : Nat), (∀ h u, x = .inr (h, u) → Keeps t u) →
      Keeps t (match x with
        | .inl 1 => c.done ST_NO_HANDLE 0 0 t
        | .inl _ => c.done ST_NO_ROOM 0 sh t
        | .inr (h, s2) =>
          let s2 := if b then s2.setTensor h { s2.tensor h with bound := true, tenant := c.tenant } else s2
          Machine.commandEpoch t (c.done ST_OK 0 (hrefOf s2 h) s2)) := by
    intro b x sh hx
    split
    · exact kt.done ..
    · exact kt.done ..
    · exact commandEpoch ((ite ((hx _ _ rfl).setTensor _ _) (hx _ _ rfl)).done ..)
  dsimp only
  refine ite (kt.done ..) (ite (kt.done ..) (ite (kt.done ..) (main _ _ _ ?_)))
  intro h u e
  split at e
  · exact definePlainRegion_inr kt e
  · exact defineTensor_inr kt e

theorem hostGo {s0 : State} {h : Nat} {s : State} (ke : Keeps s0 s) : Keeps s0 (Machine.hostGo h s).2 := by
  unfold Machine.hostGo
  try dsimp only
  repeat' first
    | with_reducible first
      | exact ke | exact Keeps.refl _ | apply Keeps.ite | apply Keeps.iteSnd | apply Keeps.onHalt
      | refine Keeps.sndEq ?_ (by assumption) | rfl
    | intro _ | split

theorem finishDmaError {s0 : State} {r : Running} {done addr : Nat} {s : State}
    (ke : Keeps s0 s) : Keeps s0 (Machine.finishDmaError r done addr s) := by
  unfold Machine.finishDmaError
  try dsimp only
  repeat' first
    | with_reducible first
      | exact ke | exact Keeps.refl _ | apply Keeps.dmaErrorEvent | apply Keeps.done | apply Keeps.finishRun

theorem commandAccess {s0 : State} {r : Running} {h : Nat} {scale : Bool} {off : Nat} {op : TierOp} {s : State}
    (ke : Keeps s0 s) : Keeps s0 (Machine.commandAccess r h scale off op s) := by
  unfold Machine.commandAccess
  try dsimp only
  repeat' first
    | with_reducible first
      | exact ke | exact Keeps.refl _ | apply Keeps.present

theorem storePrefix {s0 : State} {fn h : Nat} {scale : Bool} {off code at_ : Nat} {data : List Byte} {s : State}
    (ke : Keeps s0 s) : Keeps s0 (Machine.storePrefix fn h scale off code at_ data s).2 := by
  unfold Machine.storePrefix
  try dsimp only
  repeat' first
    | with_reducible first
      | exact ke | exact Keeps.refl _ | apply Keeps.ite | apply Keeps.iteSnd | apply Keeps.answer

theorem pumpWrite {s0 : State} {r : Running} {s : State} (ke : Keeps s0 s) : Keeps s0 (Machine.pumpWrite r s) := by
  unfold Machine.pumpWrite
  try dsimp only
  repeat' first
    | with_reducible first
      | exact ke | exact Keeps.refl _ | apply Keeps.ite | apply Keeps.dmaIn | apply Keeps.done | apply Keeps.finishRun
      | apply Keeps.hostGo | apply Keeps.setRun | refine Keeps.sndEq ?_ (by assumption) | rfl
    | intro _ | split

theorem arriveWrite {s0 : State} {r : Running} {data : List Byte} {s : State}
    (ke : Keeps s0 s) : Keeps s0 (Machine.arriveWrite r data s) := by
  unfold Machine.arriveWrite
  try dsimp only
  repeat' first
    | with_reducible first
      | exact ke | exact Keeps.refl _ | apply Keeps.commandAccess | apply Keeps.done | apply Keeps.finishRun
      | apply Keeps.hostGo | refine Keeps.sndEq ?_ (by assumption) | rfl
    | intro _ | split

theorem writeEnded {s0 : State} {r : Running} {data : List Byte} {code at_ : Nat} {addr : DWord} {s : State}
    (ke : Keeps s0 s) : Keeps s0 (Machine.writeEnded r data code at_ addr s) := by
  unfold Machine.writeEnded
  try dsimp only
  repeat' first
    | with_reducible first
      | exact ke | exact Keeps.refl _ | apply Keeps.ite | apply Keeps.done | apply Keeps.finishRun
      | apply Keeps.pumpWrite | apply Keeps.setRun | apply Keeps.storePrefix | refine Keeps.sndEq ?_ (by assumption)
      | rfl
    | intro _ | split

theorem pumpRead {s0 : State} {r : Running} {s : State} (ke : Keeps s0 s) : Keeps s0 (Machine.pumpRead r s) := by
  unfold Machine.pumpRead
  try dsimp only
  repeat' first
    | with_reducible first
      | exact ke | exact Keeps.refl _ | apply Keeps.ite | apply Keeps.commandAccess | apply Keeps.done
      | apply Keeps.finishRun | apply Keeps.hostGo | refine Keeps.sndEq ?_ (by assumption) | rfl
    | intro _ | split

theorem readEnded {s0 : State} {r : Running} {code at_ : Nat} {addr : DWord} {data : List Byte} {s : State}
    (ke : Keeps s0 s) : Keeps s0 (Machine.readEnded r code at_ addr data s) := by
  unfold Machine.readEnded
  try dsimp only
  repeat' first
    | with_reducible first
      | exact ke | exact Keeps.refl _ | apply Keeps.ite | apply Keeps.dmaOut | apply Keeps.done
      | apply Keeps.finishRun | apply Keeps.pumpRead | apply Keeps.setRun | rfl
    | intro _ | split

theorem takeChannel {s0 : State} {c : Cmd} {write : Bool} {s : State}
    (ke : Keeps s0 s) : Keeps s0 (Machine.takeChannel c write s) := by
  unfold Machine.takeChannel
  try dsimp only
  repeat' first
    | with_reducible first
      | exact ke | exact Keeps.refl _ | apply Keeps.startRun | apply Keeps.wr | apply Keeps.wr64

theorem execTensorWrite {ring : Nat} {s : State} : Answers s (Machine.execTensorWrite ring s) := by
  unfold Machine.execTensorWrite
  try dsimp only
  repeat' first
    | apply Keeps.hostCmd
    | with_reducible first
      | apply Keeps.ans | apply Keeps.ansIte | exact Keeps.refl _ | apply Keeps.ite | apply Keeps.done
      | apply Keeps.hostCommand | apply Keeps.pumpWrite | apply Keeps.startRun | apply Keeps.takeChannel | rfl
    | intro _ | split

theorem execTensorRead {ring : Nat} {s : State} : Answers s (Machine.execTensorRead ring s) := by
  unfold Machine.execTensorRead
  try dsimp only
  repeat' first
    | apply Keeps.hostCmd
    | with_reducible first
      | apply Keeps.ans | apply Keeps.ansIte | exact Keeps.refl _ | apply Keeps.ite | apply Keeps.done
      | apply Keeps.hostCommand | apply Keeps.pumpRead | apply Keeps.startRun | apply Keeps.takeChannel | rfl
    | intro _ | split

theorem keepsTrip {s0 : State} {a : List Nat} {b : Option Nat} {s : State} (ke : Keeps s0 s) :
    Keeps s0 (a, b, s).2.2 := ke

theorem stageOne {s0 : State} {acc : List Nat × Option Nat × State} {h : Nat} (ke : Keeps s0 acc.2.2) :
    Keeps s0 (Machine.stageOne acc h).2.2 := by
  unfold Machine.stageOne
  extract_lets x t
  have ke : Keeps s0 x := ke
  split
  · exact ke
  · split
    · exact keepsTrip (raiseMove ke)
    · split
      · rename_i h; exact keepsTrip (startMove_some ke h)
      · exact keepsTrip ke

theorem pumpBaseStage {s0 : State} {r : Running} {s : State} (ke : Keeps s0 s) :
    Keeps s0 (Machine.pumpBaseStage r s) := by
  unfold Machine.pumpBaseStage
  split
  · extract_lets g fresh left short t
    have kt : Keeps s0 t := by
      show Keeps s0 g.2.2
      dsimp only [g]
      split
      · exact foldSnd2 (fun _ _ => stageOne (refl _)) ke
      · exact ke
    clear_value t
    exact ite (finishRun kt) (setRun kt)
  · exact ke

theorem pumpBaseStages {s0 : State} {s : State} (ke : Keeps s0 s) : Keeps s0 (Machine.pumpBaseStages s) :=
  foldl (fun _ _ => pumpBaseStage (refl _)) _ ke

theorem execTensorClass {ring : Nat} {s : State} : Answers s (Machine.execTensorClass ring s) := by
  unfold Machine.execTensorClass
  try dsimp only
  repeat' first
    | apply Keeps.hostCmd
    | with_reducible first
      | apply Keeps.ans | apply Keeps.ansIte | exact Keeps.refl _ | apply Keeps.ite | apply Keeps.commandEpoch
      | apply Keeps.done | apply Keeps.hostCommand | apply Keeps.setTensor | rfl
    | intro _ | split

theorem execVariantLoad {ring : Nat} {s : State} : Answers s (Machine.execVariantLoad ring s) := by
  unfold Machine.execVariantLoad
  try dsimp only
  repeat' first
    | apply Keeps.hostCmd
    | with_reducible first
      | apply Keeps.ans | apply Keeps.ansIte | exact Keeps.refl _ | apply Keeps.ite | apply Keeps.dmaIn
      | apply Keeps.done | apply Keeps.hostCommand | apply Keeps.startRun | rfl
    | intro _

theorem pumpVariant {s0 : State} {r : Running} {s : State} (ke : Keeps s0 s) : Keeps s0 (Machine.pumpVariant r s) := by
  unfold Machine.pumpVariant
  try dsimp only
  repeat' first
    | with_reducible first
      | exact ke | exact Keeps.refl _ | apply Keeps.dmaIn | apply Keeps.done | apply Keeps.finishRun | rfl
    | intro _ | split

theorem defineAll_inr {s0 : State} {bound : Option Nat} {es : List ListEntry} {s u : State} {a : List Nat}
    (ke : Keeps s0 s)
    (e : Machine.defineAll bound es s = .inr (a, u)) : Keeps s0 u := by
  unfold Machine.defineAll at e
  have main : ∀ (l : List ListEntry) (x : Sum (Nat × Nat) (List Nat × State)), (∀ hs v, x = .inr (hs, v) → Keeps s0 v) →
      ∀ hs v, l.foldl (fun (acc : Sum (Nat × Nat) (List Nat × State)) e => match acc with
        | .inl f => .inl f
        | .inr (hs, s) =>
          let t : Tensor := { cls := e.cls, format := e.format, elem := e.elem, scale := e.scale,
                              bound := bound.isSome, tenant := bound.getD 0 }
          match Machine.defineTensor t s with
          | .inl 1 => .inl (ST_NO_HANDLE, 0)
          | .inl _ => .inl (ST_NO_ROOM, shortD s (copySize t))
          | .inr (h, s) => .inr (hs ++ [h], s)) x = .inr (hs, v) → Keeps s0 v := by
    intro l
    induction l with
    | nil => exact fun x hx hs v e => hx hs v e
    | cons y l ih =>
      intro x hx hs v e
      refine ih _ ?_ hs v e
      intro hs2 v2 e2
      dsimp only at e2
      split at e2
      · cases e2
      · split at e2
        · cases e2
        · cases e2
        · rename_i hd; injection e2 with e2; injection e2 with _ e2; subst e2
          exact defineTensor_inr (hx _ _ rfl) hd
  exact main es _ (fun _ _ h => by injection h with h; injection h with _ h; subst h; exact ke) a u e

theorem arriveVariantList {s0 : State} {r : Running} {data : List Byte} {s : State}
    (ke : Keeps s0 s) : Keeps s0 (Machine.arriveVariantList r data s) := by
  unfold Machine.arriveVariantList
  try dsimp only
  repeat' first
    | with_reducible first
      | exact ke | exact Keeps.refl _ | apply Keeps.ite | apply Keeps.commandEpoch | apply Keeps.dmaOut
      | apply Keeps.finishRun | apply Keeps.pumpVariant | apply Keeps.setRun
      | refine Keeps.defineAll_inr ?_ (by assumption) | rfl
    | intro _ | split

theorem failVariant {s0 : State} {r : Running} {all : List Nat} {status done detail : Nat} {s : State}
    (ke : Keeps s0 s) : Keeps s0 (Machine.failVariant r all status done detail s) := by
  unfold Machine.failVariant
  try dsimp only
  repeat' first
    | with_reducible first
      | exact ke | exact Keeps.refl _ | apply Keeps.commandEpoch | apply Keeps.done | apply Keeps.finishRun
      | apply Keeps.foldl | apply Keeps.freeTensor | apply Keeps.foldSnd | apply Keeps.foldSnd2 | rfl
    | intro _

theorem arriveVariant {s0 : State} {r : Running} {data : List Byte} {s : State}
    (ke : Keeps s0 s) : Keeps s0 (Machine.arriveVariant r data s) := by
  unfold Machine.arriveVariant
  try dsimp only
  repeat' first
    | with_reducible first
      | exact ke | exact Keeps.refl _ | apply Keeps.commandAccess | rfl
    | intro _ | split

theorem variantEnded {s0 : State} {r : Running} {data : List Byte} {code at_ : Nat} {addr : DWord} {s : State}
    (ke : Keeps s0 s) : Keeps s0 (Machine.variantEnded r data code at_ addr s) := by
  unfold Machine.variantEnded
  try dsimp only
  repeat' first
    | with_reducible first
      | exact ke | exact Keeps.refl _ | apply Keeps.ite | apply Keeps.done | apply Keeps.failVariant
      | apply Keeps.pumpVariant | apply Keeps.setRun | rfl
    | intro _ | split

theorem accessDone {s0 : State} {r : Running} {op : TierOp} {code at_ : Nat} {addr : DWord} {data : List Byte} {s : State} (ke : Keeps s0 s) : Keeps s0 (Machine.accessDone r op code at_ addr data s) := by
  unfold Machine.accessDone
  try dsimp only
  repeat' first
    | with_reducible first
      | exact ke | exact Keeps.refl _ | apply Keeps.readEnded | apply Keeps.variantEnded | apply Keeps.writeEnded
      | rfl
    | intro _ | split

/-! ### Flash -/

theorem setBlock {s0 : State} {s : State} {c b : Nat} {v : Block}
    (ke : Keeps s0 s) : Keeps s0 (Machine.State.setBlock s c b v) := by
  unfold Machine.State.setBlock
  try dsimp only
  repeat' first
    | with_reducible first
      | exact ke | exact Keeps.refl _ | rfl
    | intro _ | split | with_reducible apply Keeps.lit

theorem mapExtent {s0 : State} {c e n o : Nat} {s : State}
    (ke : Keeps s0 s) : Keeps s0 (Machine.mapExtent c e n o s) := by
  unfold Machine.mapExtent
  try dsimp only
  repeat' first
    | with_reducible first
      | exact ke | exact Keeps.refl _ | rfl
    | intro _ | split | with_reducible apply Keeps.lit

theorem refreshChannel {s0 : State} {c : Nat} {s : State}
    (ke : Keeps s0 s) : Keeps s0 (Machine.refreshChannel c s) := by
  unfold Machine.refreshChannel
  try dsimp only
  repeat' first
    | with_reducible first
      | exact ke | exact Keeps.refl _ | apply Keeps.foldl | apply Keeps.wr | apply Keeps.wr32 | apply Keeps.wr64

theorem refreshSpareMin {s0 : State} {s : State} (ke : Keeps s0 s) : Keeps s0 (Machine.refreshSpareMin s) := by
  unfold Machine.refreshSpareMin
  try dsimp only
  repeat' first
    | with_reducible first
      | exact ke | exact Keeps.refl _ | apply Keeps.ite | apply Keeps.foldl | apply Keeps.wr32

theorem refreshExtents {s0 : State} {s : State} (ke : Keeps s0 s) : Keeps s0 (Machine.refreshExtents s) := by
  unfold Machine.refreshExtents
  try dsimp only
  repeat' first
    | with_reducible first
      | exact ke | exact Keeps.refl _ | apply Keeps.foldl | apply Keeps.refreshChannel | apply Keeps.wr32
      | apply Keeps.foldSnd | apply Keeps.foldSnd2 | rfl
    | intro _

theorem freeExtentAt {s0 : State} {x : State} {f : Flash} (ke : Keeps s0 x)
    (hf : Memory.wf x.flash.fmem = true → Memory.wf f.fmem = true) : Keeps s0 { x with flash := f } :=
  litFlash ke rfl rfl hf

theorem restrict {s0 : State} {cause : Nat} {s : State} (ke : Keeps s0 s) : Keeps s0 (Machine.restrict cause s) := by
  unfold Machine.restrict
  try dsimp only
  repeat' first
    | with_reducible first
      | exact ke | exact Keeps.refl _ | apply Keeps.ite | apply Keeps.recordEvent | apply Keeps.wr

theorem noteWear {s0 : State} {service : Nat} {s : State}
    (ke : Keeps s0 s) : Keeps s0 (Machine.noteWear service s) := by
  unfold Machine.noteWear
  try dsimp only
  repeat' first
    | with_reducible first
      | exact ke | exact Keeps.refl _ | rfl
    | intro _ | split | with_reducible apply Keeps.lit

theorem beginRelocation {s0 : State} {c b : Nat} {goal : Option Nat} {s : State}
    (ke : Keeps s0 s) : Keeps s0 (Machine.beginRelocation c b goal s) := by
  unfold Machine.beginRelocation
  try dsimp only
  repeat' first
    | with_reducible first
      | exact ke | exact Keeps.refl _ | apply Keeps.ite | apply Keeps.traceIn | rfl
    | intro _ | split | with_reducible apply Keeps.lit

theorem relocateBlock {s0 : State} {c b : Nat} {s : State}
    (ke : Keeps s0 s) : Keeps s0 (Machine.relocateBlock c b s) := by
  unfold Machine.relocateBlock
  try dsimp only
  repeat' first
    | with_reducible first
      | exact ke | exact Keeps.refl _ | apply Keeps.ite | apply Keeps.beginRelocation

theorem raiseBand {s0 : State} {c b band : Nat} {signal : Bool} {s : State}
    (ke : Keeps s0 s) : Keeps s0 (Machine.raiseBand c b band signal s) := by
  unfold Machine.raiseBand
  try dsimp only
  repeat' first
    | with_reducible first
      | exact ke | exact Keeps.refl _ | apply Keeps.ite | apply Keeps.raise | apply Keeps.recordEvent
      | apply Keeps.refreshChannel | apply Keeps.relocateBlock | apply Keeps.setBlock

theorem retireBlock {s0 : State} {c b cause : Nat} {s : State}
    (ke : Keeps s0 s) : Keeps s0 (Machine.retireBlock c b cause s) := by
  unfold Machine.retireBlock
  try dsimp only
  repeat' first
    | with_reducible first
      | exact ke | exact Keeps.refl _ | apply Keeps.ite | apply Keeps.addWrap | apply Keeps.mapExtent
      | apply Keeps.raise | apply Keeps.recordEvent | apply Keeps.refreshChannel | apply Keeps.refreshSpareMin
      | apply Keeps.restrict | apply Keeps.setBlock | apply Keeps.getD | rfl
    | intro _ | split | with_reducible apply Keeps.lit

theorem freeBlock {s0 : State} {c b : Nat} {s : State} (ke : Keeps s0 s) : Keeps s0 (Machine.freeBlock c b s) := by
  unfold Machine.freeBlock
  try dsimp only
  repeat' first
    | with_reducible first
      | exact ke | exact Keeps.refl _ | apply Keeps.ite | apply Keeps.retireBlock | rfl
    | intro _ | split | with_reducible apply Keeps.lit

theorem setUse {s0 : State} {e u : Nat} {s : State} (ke : Keeps s0 s) : Keeps s0 (Machine.setUse e u s) := by
  unfold Machine.setUse
  exact litFlash ke rfl rfl id

theorem freeExtent {s0 : State} {e : Nat} {s : State} (ke : Keeps s0 s) : Keeps s0 (Machine.freeExtent e s) := by
  unfold Machine.freeExtent
  generalize List.range 256 = l
  extract_lets lo a f
  have ka : Keeps s0 a := foldl (g := fun s c => Machine.freeBlock c (blockOf s c e) s) (fun _ _ => freeBlock (refl _)) _ (setUse ke)
  exact refreshExtents (freeExtentAt ka (wf_tclear _ _ _))

theorem takeRows_some {s0 : State} {n : Nat} {s u : State} {a : Nat} (ke : Keeps s0 s)
    (e : Machine.takeRows n s = some (a, u)) : Keeps s0 u := by
  unfold Machine.takeRows at e
  extract_lets fits f0 k x at e
  split at e
  · injection e with e; injection e with _ e; subst e; exact lit ke rfl rfl rfl
  · split at e
    · cases e
    · extract_lets y z f at e
      have kx : Keeps s0 x := by
        show Keeps s0 (match s.flash.openExt with | some o => Machine.setUse o 2 s | none => s)
        split
        · exact setUse ke
        · exact ke
      have ky : Keeps s0 y := foldl (fun _ _ => setUse (refl _)) _ kx
      have kz : Keeps s0 z := setUse ky
      injection e with e; injection e with _ e; subst e
      exact refreshExtents (lit kz rfl rfl rfl)

theorem takeAll_some {s0 : State} {ns : List Nat} {s u : State} {a : List Nat} (ke : Keeps s0 s)
    (e : Machine.takeAll ns s = some (a, u)) : Keeps s0 u := by
  induction ns generalizing s a with
  | nil => injection e with e; injection e with _ e; subst e; exact ke
  | cons n ns ih =>
    unfold Machine.takeAll at e
    split at e
    · cases e
    · rename_i r v h
      cases hc : Machine.takeAll ns v with
      | none => rw [hc] at e; cases e
      | some x =>
        rw [hc] at e; injection e with e; injection e with _ e; subst e
        exact ih (takeRows_some ke h) hc

theorem cryptoErase {s0 : State} {s : State} (ke : Keeps s0 s) : Keeps s0 (Machine.cryptoErase s) := by
  unfold Machine.cryptoErase
  extract_lets a f
  have ka : Keeps s0 a := foldl (g := fun s e => Machine.freeExtent e s) (fun _ _ => freeExtent (refl _)) _ ke
  refine (freeExtentAt ka ?_).wr _ _
  exact id

theorem programmed {s0 : State} {row n : Nat} {s : State}
    (ke : Keeps s0 s) : Keeps s0 (Machine.programmed row n s) := by
  unfold Machine.programmed
  try dsimp only
  repeat' first
    | with_reducible first
      | exact ke | exact Keeps.refl _ | apply Keeps.foldl | apply Keeps.setBlock | apply Keeps.foldSnd
      | apply Keeps.foldSnd2 | rfl
    | intro _

theorem moveMember {s0 : State} {id k row : Nat} {s : State}
    (ke : Keeps s0 s) : Keeps s0 (Machine.moveMember id k row s) := by
  unfold Machine.moveMember
  dsimp only
  split
  · exact ke
  · refine add64 (programmed (foldl (fun u x => ?_) _ (litFlash ke rfl rfl (wf_mcopy _ _ _ _ _)))) _ _
    exact ite ((refl u).setTensor _ _) (refl u)

theorem execCompaction {s : State} : Answers s (Machine.execCompaction s) := by
  unfold Machine.execCompaction
  dsimp only
  split
  · exact ans (refl s)
  · split
    · exact ans (refl s)
    · split
      · exact ans (refl s)
      · rename_i h
        exact ansIte (ans (refl s)) (ans (freeExtent (foldl (fun _ _ => moveMember (refl _)) _
          (traceIn (noteWear (takeAll_some (refl s) h).fresh)))))

theorem countReads {s0 : State} {ws : List Codeword} {s : State}
    (ke : Keeps s0 s) : Keeps s0 (Machine.countReads ws s) := by
  unfold Machine.countReads
  try dsimp only
  repeat' first
    | with_reducible first
      | exact ke | exact Keeps.refl _ | apply Keeps.addSat

theorem markLost {s0 : State} {k : Nat} {ws : List Codeword} {s : State}
    (ke : Keeps s0 s) : Keeps s0 (Machine.markLost k ws s) := by
  unfold Machine.markLost
  try dsimp only
  repeat' first
    | with_reducible first
      | exact ke | exact Keeps.refl _ | apply Keeps.ite | apply Keeps.foldl | apply Keeps.foldSnd
      | apply Keeps.foldSnd2 | rfl
    | intro _ | split | with_reducible apply Keeps.lit

theorem execFtChunkRead {chunk : Nat} {codewords : List Codeword} {s : State} :
    Answers s (Machine.execFtChunkRead chunk codewords s) := by
  unfold Machine.execFtChunkRead
  try dsimp only
  repeat' first
    | with_reducible first
      | apply Keeps.ans | apply Keeps.ansIte | exact Keeps.refl _ | apply Keeps.ite | apply Keeps.countReads
      | apply Keeps.foldl | apply Keeps.markLost | apply Keeps.noteFtUe | apply Keeps.raise | apply Keeps.raiseBand
      | apply Keeps.relocateBlock | apply Keeps.setBlock | apply Keeps.foldSnd | apply Keeps.foldSnd2 | rfl
    | intro _ | split

theorem execFtScrub {place : BlockAt} {retryMean32 maxBits service : Nat} {s : State} :
    Answers s (Machine.execFtScrub place retryMean32 maxBits service s) := by
  unfold Machine.execFtScrub
  try dsimp only
  repeat' first
    | with_reducible first
      | apply Keeps.ans | apply Keeps.ansIte | exact Keeps.refl _ | apply Keeps.ite | apply Keeps.noteWear
      | apply Keeps.place | apply Keeps.raiseBand | apply Keeps.relocateBlock | apply Keeps.setBlock

theorem dropReloc {s0 : State} {r : Nat × Nat × Option Nat} {s : State}
    (ke : Keeps s0 s) : Keeps s0 (Machine.dropReloc r s) := by
  unfold Machine.dropReloc
  try dsimp only
  repeat' first
    | with_reducible first
      | exact ke | exact Keeps.refl _ | rfl
    | intro _ | split | with_reducible apply Keeps.lit

theorem execBlockRelocationDone {work : ChannelWork} {s : State} :
    Answers s (Machine.execBlockRelocationDone work s) := by
  unfold Machine.execBlockRelocationDone
  try dsimp only
  repeat' first
    | with_reducible first
      | apply Keeps.ans | apply Keeps.ansIte | exact Keeps.refl _ | apply Keeps.ite | apply Keeps.add64
      | apply Keeps.dropReloc | apply Keeps.freeBlock | apply Keeps.mapExtent | apply Keeps.noteWear
      | apply Keeps.refreshChannel | apply Keeps.setBlock | rfl
    | intro _ | split

theorem execStaticLevelling {channel : Nat} {s : State} : Answers s (Machine.execStaticLevelling channel s) := by
  unfold Machine.execStaticLevelling
  try dsimp only
  repeat' first
    | with_reducible first
      | apply Keeps.ans | apply Keeps.ansIte | exact Keeps.refl _ | apply Keeps.beginRelocation | rfl
    | intro _ | split

theorem execFtEraseDone {place : BlockAt} {ok : Bool} {service : Nat} {s : State} :
    Answers s (Machine.execFtEraseDone place ok service s) := by
  unfold Machine.execFtEraseDone
  try dsimp only
  repeat' first
    | with_reducible first
      | apply Keeps.ans | apply Keeps.ansIte | exact Keeps.refl _ | apply Keeps.ite | apply Keeps.noteWear
      | apply Keeps.place | apply Keeps.raiseBand | apply Keeps.refreshChannel | apply Keeps.retireBlock
      | apply Keeps.setBlock | rfl
    | intro _ | split | with_reducible apply Keeps.lit

theorem execFtChannelFailure {channel : Nat} {s : State} : Answers s (Machine.execFtChannelFailure channel s) := by
  unfold Machine.execFtChannelFailure
  try dsimp only
  repeat' first
    | with_reducible first
      | apply Keeps.ans | apply Keeps.ansIte | exact Keeps.refl _ | apply Keeps.ite | apply Keeps.raise
      | apply Keeps.recordEvent | apply Keeps.restrict | apply Keeps.wr

theorem selectBlock {s0 : State} {v : Word} {s : State} (ke : Keeps s0 s) : Keeps s0 (Machine.selectBlock v s) := by
  unfold Machine.selectBlock
  try dsimp only
  repeat' first
    | with_reducible first
      | exact ke | exact Keeps.refl _ | apply Keeps.wr32 | apply Keeps.wr64

/-! ### CmdFlash -/

theorem removeArchive {s0 : State} {id : Nat} {s : State}
    (ke : Keeps s0 s) : Keeps s0 (Machine.removeArchive id s) := by
  unfold Machine.removeArchive
  try dsimp only
  repeat' first
    | with_reducible first
      | exact ke | exact Keeps.refl _ | apply Keeps.ite | apply Keeps.foldl | apply Keeps.setTensor
      | apply Keeps.foldSnd | apply Keeps.foldSnd2 | rfl
    | intro _ | split | with_reducible apply Keeps.lit

theorem archiveRemove {s0 : State} {c : Cmd} {s : State} (ke : Keeps s0 s) : Keeps s0 (Machine.archiveRemove c s) := by
  unfold Machine.archiveRemove
  try dsimp only
  repeat' first
    | with_reducible first
      | exact ke | exact Keeps.refl _ | apply Keeps.ite | apply Keeps.commandEpoch | apply Keeps.done
      | apply Keeps.removeArchive | rfl
    | intro _ | split

theorem execVariantArchive {ring : Nat} {s : State} : Answers s (Machine.execVariantArchive ring s) := by
  unfold Machine.execVariantArchive
  try dsimp only
  repeat' first
    | apply Keeps.hostCmd
    | with_reducible first
      | apply Keeps.ans | apply Keeps.ansIte | exact Keeps.refl _ | apply Keeps.ite | apply Keeps.archiveRemove
      | apply Keeps.dmaIn | apply Keeps.done | apply Keeps.hostCommand | apply Keeps.startRun | rfl
    | intro _

theorem planeRead {s0 : State} {fn h : Nat} {scale : Bool} {s : State}
    (ke : Keeps s0 s) : Keeps s0 (Machine.planeRead fn h scale s).2.2.2 := by
  unfold Machine.planeRead
  try dsimp only
  repeat' first
    | with_reducible first
      | exact ke | exact Keeps.refl _ | apply Keeps.ite | apply Keeps.access | rfl
    | intro _ | split

theorem gatherTensor {s0 : State} {fn seqNo : Nat} {g : Gather} {x : Nat × Nat} (ke : Keeps s0 g.s) :
    Keeps s0 (Machine.gatherTensor fn seqNo g x).s := by
  unfold Machine.gatherTensor
  extract_lets h t e c data
  have kc : Keeps s0 c.2.2.2 := planeRead (planeRead ke)
  split
  · exact ke
  · split
    · exact planeRead ke
    · split <;> exact kc

theorem gatherAll {s0 : State} {fn seqNo : Nat} {l : List (Nat × Nat)} {g : Gather} (ke : Keeps s0 g.s) :
    Keeps s0 (l.foldl (Machine.gatherTensor fn seqNo) g).s :=
  foldOn (p := Gather.s) (fun _ _ => gatherTensor (refl _)) ke

theorem arriveArchiveList {s0 : State} {r : Running} {data : List Byte} {s : State} (ke : Keeps s0 s) :
    Keeps s0 (Machine.arriveArchiveList r data s) := by
  unfold Machine.arriveArchiveList
  split
  · extract_lets vs hs
    split
    · exact finishRun ke
    · split
      · rename_i h
        extract_lets g a src b
        have kg : Keeps s0 g.s := gatherAll (takeAll_some ke h)
        split
        · exact finishRun kg
        · exact setRun (lit kg rfl rfl rfl)
      · exact finishRun ke
  · exact ke

theorem execBaseInstall {ring : Nat} {s : State} : Answers s (Machine.execBaseInstall ring s) := by
  unfold Machine.execBaseInstall
  try dsimp only
  repeat' first
    | apply Keeps.hostCmd
    | with_reducible first
      | apply Keeps.ans | apply Keeps.ansIte | exact Keeps.refl _ | apply Keeps.ite | apply Keeps.dmaIn
      | apply Keeps.done | apply Keeps.hostCommand | apply Keeps.startRun | rfl
    | intro _ | split

theorem sourceRead {s0 : State} {r : Running} {off len : Nat} {s : State}
    (ke : Keeps s0 s) : Keeps s0 (Machine.sourceRead r off len s).2.2.2 := by
  unfold Machine.sourceRead
  try dsimp only
  repeat' first
    | with_reducible first
      | exact ke | exact Keeps.refl _ | apply Keeps.ite | apply Keeps.access | rfl
    | intro _ | split

theorem gatherBase {s0 : State} {r : Running} {g : Gather} {x : ListEntry × Nat} (ke : Keeps s0 g.s) :
    Keeps s0 (Machine.gatherBase r g x).s := by
  unfold Machine.gatherBase
  extract_lets e len b
  have kb : Keeps s0 b.2.2.2 := sourceRead ke
  split
  · exact ke
  · split <;> exact kb

theorem gatherBases {s0 : State} {r : Running} {l : List (ListEntry × Nat)} {g : Gather} (ke : Keeps s0 g.s) :
    Keeps s0 (l.foldl (Machine.gatherBase r) g).s :=
  foldOn (p := Gather.s) (fun _ _ => gatherBase (refl _)) ke

theorem eraseBase {s0 : State} {s : State} (ke : Keeps s0 s) : Keeps s0 (Machine.eraseBase s) := by
  unfold Machine.eraseBase
  extract_lets a b c
  have kb : Keeps s0 b := foldl (g := fun s h => Machine.freeTensor h s) (fun _ _ => freeTensor (refl _)) _ (ke.wr _ _)
  exact foldl (g := fun s e => Machine.freeExtent e s) (fun _ _ => freeExtent (refl _)) _ (freeExtentAt kb id)

theorem registerBase {s0 : State} {fs : List FTensor} {s : State}
    (ke : Keeps s0 s) : Keeps s0 (Machine.registerBase fs s).2 := by
  unfold Machine.registerBase
  refine foldSnd (fun b f => ?_) ke
  split
  · rename_i h; have k := registerFTensor_some (refl b.2) h; exact k
  · exact refl b.2

theorem rowsDone {s0 : State} {r : Running} {s : State} (ke : Keeps s0 s) : Keeps s0 (Machine.rowsDone r s) := by
  unfold Machine.rowsDone
  try dsimp only
  repeat' first
    | with_reducible first
      | exact ke | exact Keeps.refl _ | apply Keeps.commandEpoch | apply Keeps.finishRun | apply Keeps.refreshHeat
      | apply Keeps.registerBase | apply Keeps.wr | refine Keeps.sndEq ?_ (by assumption) | rfl
    | intro _ | split | with_reducible apply Keeps.lit

theorem rowDone {s0 : State} {bytes : Nat} {r : Running} {s : State} (ke : Keeps s0 s) :
    Keeps s0 (Machine.rowDone bytes r s) := by
  unfold Machine.rowDone
  split
  · exact ite (rowsDone (setRun ke)) (setRun ke)
  · exact ite (rowsDone (setRun ke)) (setRun ke)
  · exact ke

theorem arriveBaseManifest {s0 : State} {r : Running} {data : List Byte} {s : State} (ke : Keeps s0 s) :
    Keeps s0 (Machine.arriveBaseManifest r data s) := by
  unfold Machine.arriveBaseManifest
  split
  · extract_lets es n0 total len rows exts last a g b src c r2
    have kg : Keeps s0 g.s := gatherBases (eraseBase ke)
    have kb : Keeps s0 b := refreshExtents (foldl (g := fun s e => Machine.setUse e 1 s) (fun _ _ => setUse (refl _)) _ kg)
    have kc : Keeps s0 c := lit kb rfl rfl rfl
    split
    · exact finishRun ke
    · split
      · exact finishRun ke
      · split
        · exact finishRun ke
        · split
          · exact finishRun ke
          · split
            · exact commandEpoch (finishRun kg)
            · exact commandEpoch (ite (rowsDone kc) (setRun kc))
  · exact ke

theorem execFtProgramDone {failed : List Nat} {s : State} : Answers s (Machine.execFtProgramDone failed s) := by
  unfold Machine.execFtProgramDone
  generalize List.range 256 = l
  split
  · exact ans (refl s)
  · rename_i w rest _
    extract_lets e bad a base src f b b2 c
    have ka : Keeps s a := foldl (g := fun s c => Machine.retireBlock c (blockOf s c e) 2 s) (fun _ _ => retireBlock (refl _)) _ (refl s)
    have kb : Keeps s b := litFlash ka rfl rfl (fun h => wf_fold _ (fun (x : Nat × Byte) => base + x.1) (fun x => x.2) _ (wf_tclear _ _ _ h))
    have kd : Keeps s b2 := programmed kb
    have kc : Keeps s c := (kd.add64 _ _).add64 _ _
    split
    · exact ans (refl s)
    · split
      · exact ans (rowDone kc)
      · exact ans kc

theorem keepsTriple {α β : Type} {s t : State} {a : α} {b : β} (h : Keeps s t) : Keeps s (a, b, t).2.2 := h

theorem execBaseStage {ring : Nat} {s : State} : Answers s (Machine.execBaseStage ring s) := by
  unfold Machine.execBaseStage
  try dsimp only
  repeat' first
    | apply Keeps.hostCmd
    | with_reducible first
      | apply Keeps.ans | apply Keeps.ansIte | exact Keeps.refl _ | apply Keeps.hostCommand
      | apply Keeps.pumpBaseStage | apply Keeps.startRun | rfl
    | intro _

/-! ### CmdHull -/

theorem execHullCreate {ring : Nat} {s : State} : Answers s (Machine.execHullCreate ring s) := by
  unfold Machine.execHullCreate
  refine hostCmd (fun c t => ?_)
  split
  · exact (refl t).done ..
  · extract_lets pkg
    have kl := look (rs := frontRanges (pkgRead t pkg) pkg ++ [(hrefHandle (c.p 20 8), 0, 8 * c.p 28 4)]) (refl t)
    generalize Machine.look _ t = x at kl ⊢
    split
    · exact kl.done ..
    · split
      · exact kl.done ..
      · exact commandEpoch (advanceAll (createHull kl))

theorem startRelocation {s0 : State} {c : Cmd} {h : Nat} {rd : PkgRead} {unwr : Bool} {s : State}
    (ke : Keeps s0 s) : Keeps s0 (Machine.startRelocation c h rd unwr s) := by
  unfold Machine.startRelocation
  try dsimp only
  repeat' first
    | with_reducible first
      | exact ke | exact Keeps.refl _ | apply Keeps.ite | apply Keeps.advanceHull | apply Keeps.beginHalt
      | apply Keeps.beginQuiesce | apply Keeps.done | apply Keeps.powerPods | apply Keeps.startRun | rfl
    | intro _ | split | with_reducible apply Keeps.litFree

theorem startRepackaging {s0 : State} {c : Cmd} {h pkg : Nat} {unwr : Bool} {s : State}
    (ke : Keeps s0 s) : Keeps s0 (Machine.startRepackaging c h pkg unwr s) := by
  unfold Machine.startRepackaging
  try dsimp only
  repeat' first
    | with_reducible first
      | exact ke | exact Keeps.refl _ | apply Keeps.ite | apply Keeps.advanceHull | apply Keeps.beginHalt
      | apply Keeps.done | apply Keeps.powerPods | apply Keeps.startRun | rfl
    | intro _ | split | with_reducible apply Keeps.litFree

theorem execHullResize {ring : Nat} {s : State} : Answers s (Machine.execHullResize ring s) := by
  unfold Machine.execHullResize
  refine hostCmd (fun c t => ?_)
  extract_lets h pkg
  split
  · exact (refl t).done ..
  · refine ite ((refl t).done ..) ?_
    split
    · exact (refl t).done ..
    · have kl := look (rs := frontRanges (pkgRead t pkg) pkg) (refl t)
      generalize Machine.look _ t = x at kl ⊢
      split
      · exact kl.done ..
      · exact ite (commandEpoch (startRelocation kl)) (commandEpoch (startRepackaging kl))

theorem execShellLoad {ring : Nat} {s : State} : Answers s (Machine.execShellLoad ring s) := by
  unfold Machine.execShellLoad
  refine hostCmd (fun c t => ?_)
  extract_lets h pkg slot
  split
  · exact (refl t).done ..
  · split
    · exact (refl t).done ..
    · have kl := look (rs := [(pkg, 0, 64)]) (refl t)
      generalize Machine.look _ t = x at kl ⊢
      split
      · exact kl.done ..
      · exact ite (kl.done ..) (ite (kl.done ..) (ite (kl.done ..) (ite (kl.done ..) (nextLoad (startRun kl)))))

theorem execHullDestroy {ring : Nat} {s : State} : Answers s (Machine.execHullDestroy ring s) := by
  unfold Machine.execHullDestroy
  try dsimp only
  repeat' first
    | apply Keeps.hostCmd
    | with_reducible first
      | apply Keeps.ans | apply Keeps.ansIte | exact Keeps.refl _ | apply Keeps.advanceHull | apply Keeps.beginHalt
      | apply Keeps.commandEpoch | apply Keeps.discardHalted | apply Keeps.done | apply Keeps.finishRuns
      | apply Keeps.hostCommand | apply Keeps.setHull | apply Keeps.startRun | rfl
    | intro _ | split

theorem execHullDrain {ring : Nat} {s : State} : Answers s (Machine.execHullDrain ring s) := by
  unfold Machine.execHullDrain
  try dsimp only
  repeat' first
    | apply Keeps.hostCmd
    | with_reducible first
      | apply Keeps.ans | apply Keeps.ansIte | exact Keeps.refl _ | apply Keeps.ite | apply Keeps.advanceHull
      | apply Keeps.beginHalt | apply Keeps.done | apply Keeps.hostCommand | apply Keeps.setHull
      | apply Keeps.startRun | rfl
    | intro _ | split

theorem execHullRestore {ring : Nat} {s : State} : Answers s (Machine.execHullRestore ring s) := by
  unfold Machine.execHullRestore
  refine hostCmd (fun c t => ?_)
  dsimp only
  split
  · exact (refl t).done ..
  · refine ite ((refl t).done ..) ?_
    split
    · rename_i h; exact restoreFails (beginRestore_inl (startRun (refl t)) h)
    · rename_i h; exact beginRestore_inr (startRun (refl t)) h

theorem execShellSelect {ring : Nat} {s : State} : Answers s (Machine.execShellSelect ring s) := by
  unfold Machine.execShellSelect
  try dsimp only
  repeat' first
    | apply Keeps.hostCmd
    | with_reducible first
      | apply Keeps.ans | apply Keeps.ansIte | exact Keeps.refl _ | apply Keeps.ite | apply Keeps.commandEpoch
      | apply Keeps.done | apply Keeps.foldl | apply Keeps.hostCommand | apply Keeps.setHull | apply Keeps.setTile
      | apply Keeps.foldSnd | apply Keeps.foldSnd2 | rfl
    | intro _ | split

/-! ### CmdSched -/

theorem execFence {ring : Nat} {s : State} : Answers s (Machine.execFence ring s) := by
  unfold Machine.execFence
  try dsimp only
  repeat' first
    | apply Keeps.hostCmd
    | with_reducible first
      | apply Keeps.ans | apply Keeps.ansIte | exact Keeps.refl _ | apply Keeps.hostCommand | apply Keeps.pumpFence
      | apply Keeps.startRun | rfl
    | intro _

theorem execCycleTableWrite {ring : Nat} {s : State} : Answers s (Machine.execCycleTableWrite ring s) := by
  unfold Machine.execCycleTableWrite
  try dsimp only
  repeat' first
    | apply Keeps.hostCmd
    | with_reducible first
      | apply Keeps.ans | apply Keeps.ansIte | exact Keeps.refl _ | apply Keeps.ite | apply Keeps.dmaIn
      | apply Keeps.done | apply Keeps.hostCommand | apply Keeps.startRun | rfl
    | intro _

theorem arriveCycleSource {s0 : State} {r : Running} {data : List Byte} {s : State}
    (ke : Keeps s0 s) : Keeps s0 (Machine.arriveCycleSource r data s) := by
  unfold Machine.arriveCycleSource
  try dsimp only
  repeat' first
    | with_reducible first
      | exact ke | exact Keeps.refl _ | apply Keeps.ite | apply Keeps.commandEpoch | apply Keeps.finishRun
      | apply Keeps.foldl | apply Keeps.setCycEntry | apply Keeps.foldSnd | apply Keeps.foldSnd2 | rfl
    | intro _ | split

theorem releasePins {s0 : State} {hulls : List Nat} {s : State}
    (ke : Keeps s0 s) : Keeps s0 (Machine.releasePins hulls s) := by
  unfold Machine.releasePins
  try dsimp only
  repeat' first
    | with_reducible first
      | exact ke | exact Keeps.refl _ | apply Keeps.foldl | apply Keeps.unpinHull | apply Keeps.foldSnd
      | apply Keeps.foldSnd2 | rfl
    | intro _

theorem armFrame {s0 : State} {r : Running} {frame : Nat} {hulls : List Nat} {s : State}
    (ke : Keeps s0 s) : Keeps s0 (Machine.armFrame r frame hulls s) := by
  unfold Machine.armFrame
  try dsimp only
  repeat' first
    | with_reducible first
      | exact ke | exact Keeps.refl _ | apply Keeps.ite | apply Keeps.finishRun | apply Keeps.releasePins
      | apply Keeps.setRun | apply Keeps.wr | apply Keeps.wr64

theorem pumpCycle {s0 : State} {r : Running} {s : State} (ke : Keeps s0 s) : Keeps s0 (Machine.pumpCycle r s) := by
  unfold Machine.pumpCycle
  try dsimp only
  repeat' first
    | with_reducible first
      | exact ke | exact Keeps.refl _ | apply Keeps.ite | apply Keeps.armFrame | apply Keeps.finishRun
      | apply Keeps.keepPinned | apply Keeps.pinStep | apply Keeps.releasePins | apply Keeps.setRun
      | refine Keeps.sndEq ?_ (by assumption) | rfl
    | intro _ | split

theorem pumpCycles {s0 : State} {s : State} (ke : Keeps s0 s) : Keeps s0 (Machine.pumpCycles s) := by
  unfold Machine.pumpCycles
  try dsimp only
  repeat' first
    | with_reducible first
      | exact ke | exact Keeps.refl _ | apply Keeps.foldl | apply Keeps.pumpCycle | apply Keeps.foldSnd
      | apply Keeps.foldSnd2 | rfl
    | intro _

theorem execCycleTableArm {ring : Nat} {s : State} : Answers s (Machine.execCycleTableArm ring s) := by
  unfold Machine.execCycleTableArm
  try dsimp only
  repeat' first
    | apply Keeps.hostCmd
    | with_reducible first
      | apply Keeps.ans | apply Keeps.ansIte | exact Keeps.refl _ | apply Keeps.ite | apply Keeps.done
      | apply Keeps.foldl | apply Keeps.hostCommand | apply Keeps.pumpCycle | apply Keeps.setHull
      | apply Keeps.startRun | apply Keeps.foldSnd | apply Keeps.foldSnd2 | rfl
    | intro _ | split

theorem switchBank {s0 : State} {r : Running} {f : Nat} {s : State}
    (ke : Keeps s0 s) : Keeps s0 (Machine.switchBank r f s) := by
  unfold Machine.switchBank
  try dsimp only
  repeat' first
    | with_reducible first
      | exact ke | exact Keeps.refl _ | apply Keeps.addSat | apply Keeps.commandEpoch | apply Keeps.finishRun
      | apply Keeps.refreshCycSlots | apply Keeps.releasePins | apply Keeps.wr | apply Keeps.wr64

theorem switchAt {s0 : State} {f : Nat} {s : State} (ke : Keeps s0 s) : Keeps s0 (Machine.switchAt f s) := by
  unfold Machine.switchAt
  try dsimp only
  repeat' first
    | with_reducible first
      | exact ke | exact Keeps.refl _ | apply Keeps.switchBank | rfl
    | intro _ | split

theorem execPrioritySet {ring : Nat} {s : State} : Answers s (Machine.execPrioritySet ring s) := by
  unfold Machine.execPrioritySet
  try dsimp only
  repeat' first
    | apply Keeps.hostCmd
    | with_reducible first
      | apply Keeps.ans | apply Keeps.ansIte | exact Keeps.refl _ | apply Keeps.done | apply Keeps.hostCommand
      | apply Keeps.setRingAux | rfl
    | intro _

end Keeps
end Sys2Proof.Machine
end

