-- ==== Sys2Proof/Laws/KeepsHost.lean ====
section
/-! SUPPORT. What no operation of the block does, said once for each operation of what is observed, the register space, the device commands and the host interface:
a shared operation keeps, and a command answers only what keeps. -/

namespace Sys2Proof.Machine
namespace Keeps

/-! ### Observe -/

theorem nextLog_some {s0 : State} {s u : State} {a : LogEntry} (ke : Keeps s0 s)
    (e : Machine.nextLog s = some (a, u)) : Keeps s0 u := by
  unfold Machine.nextLog at e
  split at e
  · injection e with e; injection e with _ e; subst e; exact lit ke rfl rfl rfl
  · split at e
    · cases e
    · injection e with e; injection e with _ e; subst e; exact lit ke rfl rfl rfl

theorem execLogEntryWrite {failed : Bool} {s : State} : Answers s (Machine.execLogEntryWrite failed s) := by
  unfold Machine.execLogEntryWrite
  dsimp only
  split
  · exact ans (refl s)
  · split
    · exact ans (refl s)
    · rename_i h
      split
      · exact ans ((((refl s).raise _ _).wr _ _).dmaErrorEvent ..)
      · exact ans ((((nextLog_some (refl s) h).fresh).wr _ _).dmaOut ..)

theorem advanceCursor {s0 : State} {s : State} (ke : Keeps s0 s) : Keeps s0 (Machine.advanceCursor s) := by
  unfold Machine.advanceCursor
  try dsimp only
  repeat' first
    | with_reducible first
      | exact ke | exact Keeps.refl _ | apply Keeps.ite | apply Keeps.wr

theorem execRecorderArm {ring : Nat} {s : State} : Answers s (Machine.execRecorderArm ring s) := by
  unfold Machine.execRecorderArm
  try dsimp only
  repeat' first
    | apply Keeps.hostCmd
    | with_reducible first
      | apply Keeps.ans | apply Keeps.ansIte | exact Keeps.refl _ | apply Keeps.done | apply Keeps.hostCommand
      | apply Keeps.wr64 | rfl
    | intro _

theorem execRecorderClear {ring : Nat} {s : State} : Answers s (Machine.execRecorderClear ring s) := by
  unfold Machine.execRecorderClear
  try dsimp only
  repeat' first
    | apply Keeps.hostCmd
    | with_reducible first
      | apply Keeps.ans | apply Keeps.ansIte | exact Keeps.refl _ | apply Keeps.clearRecords | apply Keeps.done
      | apply Keeps.hostCommand | rfl
    | intro _

theorem execEventPersist {s : State} : Answers s (Machine.execEventPersist s) := by
  unfold Machine.execEventPersist
  try dsimp only
  repeat' first
    | with_reducible first
      | apply Keeps.ans | apply Keeps.ansIte | exact Keeps.refl _ | apply Keeps.ite | rfl
    | intro _ | split | with_reducible apply Keeps.lit

theorem execTraceMask {ring : Nat} {s : State} : Answers s (Machine.execTraceMask ring s) := by
  unfold Machine.execTraceMask
  try dsimp only
  repeat' first
    | apply Keeps.hostCmd
    | with_reducible first
      | apply Keeps.ans | apply Keeps.ansIte | exact Keeps.refl _ | apply Keeps.done | apply Keeps.foldl
      | apply Keeps.hostCommand | apply Keeps.wr | apply Keeps.foldSnd | apply Keeps.foldSnd2 | rfl
    | intro _

theorem enableLog {s0 : State} {s : State} (ke : Keeps s0 s) : Keeps s0 (Machine.enableLog s) := by
  unfold Machine.enableLog
  try dsimp only
  repeat' first
    | with_reducible first
      | exact ke | exact Keeps.refl _ | apply Keeps.ite | apply Keeps.wr

theorem reportTail {s0 : State} {value : Word} {s : State}
    (ke : Keeps s0 s) : Keeps s0 (Machine.reportTail value s) := by
  unfold Machine.reportTail
  try dsimp only
  repeat' first
    | with_reducible first
      | exact ke | exact Keeps.refl _ | apply Keeps.ite | apply Keeps.wr

theorem execLogEnable {fn : Nat} {s : State} : Answers s (Machine.execLogEnable fn s) := by
  unfold Machine.execLogEnable
  try dsimp only
  repeat' first
    | with_reducible first
      | apply Keeps.ans | apply Keeps.ansIte | exact Keeps.refl _ | apply Keeps.ite | apply Keeps.accessViolation
      | apply Keeps.enableLog | apply Keeps.overPcie

theorem execLogTailWrite {fn : Nat} {value : Word} {s : State} : Answers s (Machine.execLogTailWrite fn value s) := by
  unfold Machine.execLogTailWrite
  try dsimp only
  repeat' first
    | with_reducible first
      | apply Keeps.ans | apply Keeps.ansIte | exact Keeps.refl _ | apply Keeps.ite | apply Keeps.accessViolation
      | apply Keeps.overPcie | apply Keeps.reportTail

theorem execTelemetryRead {ring : Nat} {s : State} : Answers s (Machine.execTelemetryRead ring s) := by
  unfold Machine.execTelemetryRead
  try dsimp only
  repeat' first
    | apply Keeps.hostCmd
    | with_reducible first
      | apply Keeps.ans | apply Keeps.ansIte | exact Keeps.refl _ | apply Keeps.ite | apply Keeps.dmaOut
      | apply Keeps.done | apply Keeps.hostCommand | rfl
    | intro _ | split

theorem execSampleStart {ring : Nat} {s : State} : Answers s (Machine.execSampleStart ring s) := by
  unfold Machine.execSampleStart
  try dsimp only
  repeat' first
    | apply Keeps.hostCmd
    | with_reducible first
      | apply Keeps.ans | apply Keeps.ansIte | exact Keeps.refl _ | apply Keeps.ite | apply Keeps.done
      | apply Keeps.hostCommand | apply Keeps.wr | apply Keeps.wr32 | apply Keeps.wr64 | rfl
    | intro _ | split | with_reducible apply Keeps.lit

theorem execSampleStop {ring : Nat} {s : State} : Answers s (Machine.execSampleStop ring s) := by
  unfold Machine.execSampleStop
  try dsimp only
  repeat' first
    | apply Keeps.hostCmd
    | with_reducible first
      | apply Keeps.ans | apply Keeps.ansIte | exact Keeps.refl _ | apply Keeps.ite | apply Keeps.done
      | apply Keeps.endSampling | apply Keeps.hostCommand | rfl
    | intro _

theorem execSampleCapture {fate : CaptureFate} {s : State} : Answers s (Machine.execSampleCapture fate s) := by
  unfold Machine.execSampleCapture
  dsimp only
  split
  · exact ans (refl s)
  · split
    · exact ans (ite (refl s) ((refl s).addSat _ _))
    · exact ans (ite ((refl s).endSampling.raise _ _) (((refl s).endSampling.raise _ _).dmaErrorEvent ..))
    · split
      · exact ans ((refl s).endSampling.raise _ _)
      · exact ans (((lit (foldl (fun _ _ => (refl _).dmaOut ..) _ (refl s)) rfl rfl rfl).wr64 _ _).addSat _ _)

/-! ### Routes -/

theorem installRoute {s0 : State} {s : State} {d : Nat} (ke : Keeps s0 s) : Keeps s0 (Machine.installRoute s d) := by
  unfold Machine.installRoute
  try dsimp only
  repeat' first
    | with_reducible first
      | exact ke | exact Keeps.refl _ | apply Keeps.ite | apply Keeps.fabricTrace | apply Keeps.raise
      | apply Keeps.recordEvent | rfl
    | intro _ | split | with_reducible apply Keeps.lit

theorem refreshRoot {s0 : State} {s : State} (ke : Keeps s0 s) : Keeps s0 (Machine.refreshRoot s) := by
  unfold Machine.refreshRoot
  try dsimp only
  repeat' first
    | with_reducible first
      | exact ke | exact Keeps.refl _ | apply Keeps.ite | apply Keeps.wr

theorem refreshReach {s0 : State} {s : State} (ke : Keeps s0 s) : Keeps s0 (Machine.refreshReach s) := by
  unfold Machine.refreshReach
  try dsimp only
  repeat' first
    | with_reducible first
      | exact ke | exact Keeps.refl _ | apply Keeps.foldl | apply Keeps.wr64

theorem recompute {s0 : State} {s : State} (ke : Keeps s0 s) : Keeps s0 (Machine.recompute s) := by
  unfold Machine.recompute
  try dsimp only
  repeat' first
    | with_reducible first
      | exact ke | exact Keeps.refl _ | apply Keeps.addSat | apply Keeps.foldl | apply Keeps.installRoute
      | apply Keeps.refreshReach | apply Keeps.refreshRoot | apply Keeps.foldSnd | apply Keeps.foldSnd2 | rfl
    | intro _ | split | with_reducible apply Keeps.lit

theorem linksChanged {s0 : State} {s : State} (ke : Keeps s0 s) : Keeps s0 (Machine.linksChanged s) := by
  unfold Machine.linksChanged
  try dsimp only
  repeat' first
    | with_reducible first
      | exact ke | exact Keeps.refl _ | apply Keeps.ite | apply Keeps.flood | apply Keeps.recompute | rfl
    | intro _ | split | with_reducible apply Keeps.lit

/-! ### Bar -/

theorem refuseWrite {s0 : State} {fn width off : Nat} {s : State}
    (ke : Keeps s0 s) : Keeps s0 (Machine.refuseWrite fn width off s) := by
  unfold Machine.refuseWrite
  try dsimp only
  repeat' first
    | with_reducible first
      | exact ke | exact Keeps.refl _ | apply Keeps.ite | apply Keeps.accessViolation

theorem barRead {s0 : State} {fn off : Nat} {s : State} (ke : Keeps s0 s) : Keeps s0 (Machine.barRead fn off s).2 := by
  unfold Machine.barRead
  try dsimp only
  repeat' first
    | with_reducible first
      | exact ke | exact Keeps.refl _ | apply Keeps.ite | apply Keeps.iteSnd | apply Keeps.advanceCursor

theorem answerRead {s0 : State} {fn off : Nat} {r : Word × State} (ke : Keeps s0 r.2) :
    Keeps s0 (Machine.answerRead fn off r) := ke.emit _

theorem setLatch {s0 : State} {s : State} {fn : Nat} {l : Latch}
    (ke : Keeps s0 s) : Keeps s0 (Machine.State.setLatch s fn l) := by
  unfold Machine.State.setLatch
  try dsimp only
  repeat' first
    | with_reducible first
      | exact ke | exact Keeps.refl _ | rfl
    | intro _ | split | with_reducible apply Keeps.lit

theorem setBuffer {s0 : State} {s : State} {fn : Nat} {l : Latch}
    (ke : Keeps s0 s) : Keeps s0 (Machine.State.setBuffer s fn l) := by
  unfold Machine.State.setBuffer
  try dsimp only
  repeat' first
    | with_reducible first
      | exact ke | exact Keeps.refl _ | rfl
    | intro _ | split | with_reducible apply Keeps.lit

theorem read32 {s0 : State} {fn off : Nat} {s : State} (ke : Keeps s0 s) : Keeps s0 (Machine.read32 fn off s) := by
  unfold Machine.read32
  try dsimp only
  repeat' first
    | with_reducible first
      | exact ke | exact Keeps.refl _ | apply Keeps.ite | apply Keeps.answerRead | apply Keeps.barRead
      | apply Keeps.setLatch

theorem read64 {s0 : State} {fn off : Nat} {s : State} (ke : Keeps s0 s) : Keeps s0 (Machine.read64 fn off s) := by
  unfold Machine.read64
  try dsimp only
  repeat' first
    | with_reducible first
      | exact ke | exact Keeps.refl _ | apply Keeps.emit

theorem latchCounter {s0 : State} {fn : Nat} {s : State} (ke : Keeps s0 s) : Keeps s0 (Machine.latchCounter fn s) := by
  unfold Machine.latchCounter
  try dsimp only
  repeat' first
    | with_reducible first
      | exact ke | exact Keeps.refl _ | apply Keeps.ite | rfl
    | intro _ | split | with_reducible apply Keeps.lit

theorem selectCounter {s0 : State} {fn : Nat} {v : Word} {s : State}
    (ke : Keeps s0 s) : Keeps s0 (Machine.selectCounter fn v s) := by
  unfold Machine.selectCounter
  try dsimp only
  repeat' first
    | with_reducible first
      | exact ke | exact Keeps.refl _ | apply Keeps.latchCounter | rfl
    | intro _ | split | with_reducible apply Keeps.lit

theorem clearCounter {s0 : State} {fn : Nat} {sameCycle : Bool} {s : State}
    (ke : Keeps s0 s) : Keeps s0 (Machine.clearCounter fn sameCycle s) := by
  unfold Machine.clearCounter
  try dsimp only
  repeat' first
    | with_reducible first
      | exact ke | exact Keeps.refl _ | apply Keeps.ite | apply Keeps.latchCounter | apply Keeps.raise
      | apply Keeps.setCompanion

theorem clearCounters {s0 : State} {fn : Nat} {s : State}
    (ke : Keeps s0 s) : Keeps s0 (Machine.clearCounters fn s) := by
  unfold Machine.clearCounters
  try dsimp only
  repeat' first
    | with_reducible first
      | exact ke | exact Keeps.refl _ | apply Keeps.ite | rfl
    | intro _ | split | with_reducible apply Keeps.lit

theorem sendPending {s0 : State} {fn v : Nat} {s : State}
    (ke : Keeps s0 s) : Keeps s0 (Machine.sendPending fn v s) := by
  unfold Machine.sendPending
  try dsimp only
  repeat' first
    | with_reducible first
      | exact ke | exact Keeps.refl _ | apply Keeps.ite | apply Keeps.emit | rfl
    | intro _ | split | with_reducible apply Keeps.lit

theorem msixWrite {s0 : State} {fn off : Nat} {v : Word} {s : State}
    (ke : Keeps s0 s) : Keeps s0 (Machine.msixWrite fn off v s) := by
  unfold Machine.msixWrite
  try dsimp only
  repeat' first
    | with_reducible first
      | exact ke | exact Keeps.refl _ | apply Keeps.ite | apply Keeps.sendPending | rfl
    | intro _ | split | with_reducible apply Keeps.lit

theorem cfgError {s0 : State} {n : Nat} {s : State} (ke : Keeps s0 s) : Keeps s0 (Machine.cfgError n s) := by
  unfold Machine.cfgError
  try dsimp only
  repeat' first
    | with_reducible first
      | exact ke | exact Keeps.refl _ | apply Keeps.raise

theorem recheckInterrupt {s0 : State} {n : Nat} {s : State}
    (ke : Keeps s0 s) : Keeps s0 (Machine.recheckInterrupt n s) := by
  unfold Machine.recheckInterrupt
  try dsimp only
  repeat' first
    | with_reducible first
      | exact ke | exact Keeps.refl _ | apply Keeps.ite | apply Keeps.signalVector

theorem startRing {s0 : State} {n : Nat} {s : State} (ke : Keeps s0 s) : Keeps s0 (Machine.startRing n s) := by
  unfold Machine.startRing
  try dsimp only
  repeat' first
    | with_reducible first
      | exact ke | exact Keeps.refl _ | apply Keeps.setRingAux | apply Keeps.wr

theorem ringCfgWrite {s0 : State} {n : Nat} {v : Word} {s : State}
    (ke : Keeps s0 s) : Keeps s0 (Machine.ringCfgWrite n v s) := by
  unfold Machine.ringCfgWrite
  try dsimp only
  repeat' first
    | with_reducible first
      | exact ke | exact Keeps.refl _ | apply Keeps.ite | apply Keeps.cfgError | apply Keeps.recheckInterrupt
      | apply Keeps.startRing | apply Keeps.swWrite | apply Keeps.wrB

theorem ringWide {s0 : State} {off v : Nat} {s : State} (ke : Keeps s0 s) : Keeps s0 (Machine.ringWide off v s) := by
  unfold Machine.ringWide
  try dsimp only
  repeat' first
    | with_reducible first
      | exact ke | exact Keeps.refl _ | apply Keeps.ite | apply Keeps.cfgError | apply Keeps.wr64

theorem ringWrite {s0 : State} {fn off : Nat} {v : Word} {s : State}
    (ke : Keeps s0 s) : Keeps s0 (Machine.ringWrite fn off v s) := by
  unfold Machine.ringWrite
  try dsimp only
  repeat' first
    | with_reducible first
      | exact ke | exact Keeps.refl _ | apply Keeps.ite | apply Keeps.cfgError | apply Keeps.recheckInterrupt
      | apply Keeps.ringCfgWrite | apply Keeps.swWrite

theorem cxlWindowWrite {s0 : State} {v : Word} {s : State}
    (ke : Keeps s0 s) : Keeps s0 (Machine.cxlWindowWrite v s) := by
  unfold Machine.cxlWindowWrite
  try dsimp only
  repeat' first
    | with_reducible first
      | exact ke | exact Keeps.refl _ | apply Keeps.ite | apply Keeps.swWrite

theorem heatLookup {s0 : State} {v : Word} {s : State} (ke : Keeps s0 s) : Keeps s0 (Machine.heatLookup v s) := by
  unfold Machine.heatLookup
  try dsimp only
  repeat' first
    | with_reducible first
      | exact ke | exact Keeps.refl _ | apply Keeps.ite | apply Keeps.foldl | apply Keeps.swWrite | apply Keeps.wr32
      | apply Keeps.foldSnd | apply Keeps.foldSnd2 | rfl
    | intro _

theorem commitInstall {s0 : State} {s : State} (ke : Keeps s0 s) : Keeps s0 (Machine.commitInstall s) := by
  unfold Machine.commitInstall
  try dsimp only
  repeat' first
    | with_reducible first
      | exact ke | exact Keeps.refl _ | apply Keeps.ite | apply Keeps.enterPort | apply Keeps.foldl
      | apply Keeps.recompute | apply Keeps.wr | apply Keeps.foldSnd | apply Keeps.foldSnd2 | rfl
    | intro _ | split | with_reducible apply Keeps.lit

theorem installWrite {s0 : State} {fn : Nat} {v : Word} {s : State}
    (ke : Keeps s0 s) : Keeps s0 (Machine.installWrite fn v s) := by
  unfold Machine.installWrite
  try dsimp only
  repeat' first
    | with_reducible first
      | exact ke | exact Keeps.refl _ | apply Keeps.ite | apply Keeps.accessViolation | apply Keeps.commitInstall
      | apply Keeps.swWrite

theorem logCtrlWrite {s0 : State} {v : Word} {s : State} (ke : Keeps s0 s) : Keeps s0 (Machine.logCtrlWrite v s) := by
  unfold Machine.logCtrlWrite
  try dsimp only
  repeat' first
    | with_reducible first
      | exact ke | exact Keeps.refl _ | apply Keeps.ite | apply Keeps.enableLog | apply Keeps.wr

theorem ctrCtrlWrite {s0 : State} {fn : Nat} {v : Word} {s : State}
    (ke : Keeps s0 s) : Keeps s0 (Machine.ctrCtrlWrite fn v s) := by
  unfold Machine.ctrCtrlWrite
  try dsimp only
  repeat' first
    | with_reducible first
      | exact ke | exact Keeps.refl _ | apply Keeps.ite | apply Keeps.clearCounter | apply Keeps.clearCounters

theorem barWrite {s0 : State} {fn off : Nat} {v : Word} {s : State}
    (ke : Keeps s0 s) : Keeps s0 (Machine.barWrite fn off v s) := by
  unfold Machine.barWrite
  try dsimp only
  repeat' first
    | with_reducible first
      | exact ke | exact Keeps.refl _ | apply Keeps.ite | apply Keeps.ctrCtrlWrite | apply Keeps.cxlWindowWrite
      | apply Keeps.heatLookup | apply Keeps.installWrite | apply Keeps.logCtrlWrite | apply Keeps.msixWrite
      | apply Keeps.refuseWrite | apply Keeps.reportTail | apply Keeps.ringWrite | apply Keeps.selectBlock
      | apply Keeps.selectCounter | apply Keeps.swWrite

theorem barWrite64 {s0 : State} {fn off v : Nat} {s : State}
    (ke : Keeps s0 s) : Keeps s0 (Machine.barWrite64 fn off v s) := by
  unfold Machine.barWrite64
  try dsimp only
  repeat' first
    | with_reducible first
      | exact ke | exact Keeps.refl _ | apply Keeps.ite | apply Keeps.refuseWrite | apply Keeps.ringWide
      | apply Keeps.swWrite | apply Keeps.wr64

theorem lowWrite {s0 : State} {fn off : Nat} {v : Word} {s : State}
    (ke : Keeps s0 s) : Keeps s0 (Machine.lowWrite fn off v s) := by
  unfold Machine.lowWrite
  try dsimp only
  repeat' first
    | with_reducible first
      | exact ke | exact Keeps.refl _ | apply Keeps.ite | apply Keeps.refuseWrite | apply Keeps.setBuffer

theorem highWrite {s0 : State} {fn off : Nat} {v : Word} {s : State}
    (ke : Keeps s0 s) : Keeps s0 (Machine.highWrite fn off v s) := by
  unfold Machine.highWrite
  try dsimp only
  repeat' first
    | with_reducible first
      | exact ke | exact Keeps.refl _ | apply Keeps.ite | apply Keeps.barWrite64 | apply Keeps.refuseWrite
      | apply Keeps.setBuffer

theorem write32 {s0 : State} {fn off : Nat} {v : Word} {s : State}
    (ke : Keeps s0 s) : Keeps s0 (Machine.write32 fn off v s) := by
  unfold Machine.write32
  try dsimp only
  repeat' first
    | with_reducible first
      | exact ke | exact Keeps.refl _ | apply Keeps.ite | apply Keeps.barWrite | apply Keeps.highWrite
      | apply Keeps.lowWrite

theorem setFlags {s0 : State} {fs : List (Nat × Nat)} {s : State}
    (ke : Keeps s0 s) : Keeps s0 (Machine.setFlags fs s) := by
  unfold Machine.setFlags
  try dsimp only
  repeat' first
    | with_reducible first
      | exact ke | exact Keeps.refl _ | apply Keeps.ite | apply Keeps.foldl | apply Keeps.raise | apply Keeps.foldSnd
      | apply Keeps.foldSnd2 | rfl
    | intro _

theorem badAccess {s0 : State} {fn off width : Nat} {write : Bool} {s : State}
    (ke : Keeps s0 s) : Keeps s0 (Machine.badAccess fn off width write s) := by
  unfold Machine.badAccess
  try dsimp only
  repeat' first
    | with_reducible first
      | exact ke | exact Keeps.refl _ | apply Keeps.ite | apply Keeps.accessViolation | apply Keeps.emit

theorem faultCleared {s0 : State} {off v : Nat} {s : State}
    (ke : Keeps s0 s) : Keeps s0 (Machine.faultCleared off v s) := by
  unfold Machine.faultCleared
  try dsimp only
  repeat' first
    | with_reducible first
      | exact ke | exact Keeps.refl _ | apply Keeps.ite | apply Keeps.setPod

theorem noteRoute {s0 : State} {p n : Nat} {s : State} (ke : Keeps s0 s) : Keeps s0 (Machine.noteRoute p n s) := by
  unfold Machine.noteRoute
  try dsimp only
  repeat' first
    | with_reducible first
      | exact ke | exact Keeps.refl _ | apply Keeps.ite | apply Keeps.setHull | apply Keeps.setPod | rfl
    | intro _ | split | with_reducible apply Keeps.lit

theorem huskPod {s0 : State} {off v : Nat} {s : State} (ke : Keeps s0 s) : Keeps s0 (Machine.huskPod off v s) := by
  unfold Machine.huskPod
  try dsimp only
  repeat' first
    | with_reducible first
      | exact ke | exact Keeps.refl _ | apply Keeps.ite | apply Keeps.huskScan | apply Keeps.huskShell
      | apply Keeps.noteRoute | apply Keeps.refreshInjectStopped | apply Keeps.retarget

theorem huskWrite {s0 : State} {off : Nat} {v : Word} {s : State}
    (ke : Keeps s0 s) : Keeps s0 (Machine.huskWrite off v s) := by
  unfold Machine.huskWrite
  try dsimp only
  repeat' first
    | with_reducible first
      | exact ke | exact Keeps.refl _ | apply Keeps.ite | apply Keeps.faultCleared | apply Keeps.foldl
      | apply Keeps.huskPod | apply Keeps.retarget | apply Keeps.swWrite | apply Keeps.wr32 | apply Keeps.foldSnd
      | apply Keeps.foldSnd2 | rfl
    | intro _

theorem execBar0LowHalfRead {fn : Nat} {read : BarRead} {s : State} :
    Answers s (Machine.execBar0LowHalfRead fn read s) := by
  unfold Machine.execBar0LowHalfRead
  try dsimp only
  repeat' first
    | with_reducible first
      | apply Keeps.ans | apply Keeps.ansIte | exact Keeps.refl _ | apply Keeps.ite | apply Keeps.badAccess
      | apply Keeps.overPcie | apply Keeps.read32 | apply Keeps.read64 | rfl
    | intro _ | split

theorem execBar0HighHalfRead {fn off : Nat} {s : State} : Answers s (Machine.execBar0HighHalfRead fn off s) := by
  unfold Machine.execBar0HighHalfRead
  try dsimp only
  repeat' first
    | with_reducible first
      | apply Keeps.ans | apply Keeps.ansIte | exact Keeps.refl _ | apply Keeps.ite | apply Keeps.badAccess
      | apply Keeps.overPcie | apply Keeps.read32

theorem execBar0LowHalfWrite {fn off : Nat} {value : Word} {s : State} :
    Answers s (Machine.execBar0LowHalfWrite fn off value s) := by
  unfold Machine.execBar0LowHalfWrite
  try dsimp only
  repeat' first
    | with_reducible first
      | apply Keeps.ans | apply Keeps.ansIte | exact Keeps.refl _ | apply Keeps.ite | apply Keeps.badAccess
      | apply Keeps.lowWrite | apply Keeps.overPcie | apply Keeps.write32

theorem execBar0HighHalfWrite {fn off : Nat} {value : Word} {s : State} :
    Answers s (Machine.execBar0HighHalfWrite fn off value s) := by
  unfold Machine.execBar0HighHalfWrite
  try dsimp only
  repeat' first
    | with_reducible first
      | apply Keeps.ans | apply Keeps.ansIte | exact Keeps.refl _ | apply Keeps.ite | apply Keeps.badAccess
      | apply Keeps.highWrite | apply Keeps.overPcie | apply Keeps.write32

theorem execBar0BadAccess {fn off width : Nat} {write : Bool} {s : State} :
    Answers s (Machine.execBar0BadAccess fn off width write s) := by
  unfold Machine.execBar0BadAccess
  try dsimp only
  repeat' first
    | with_reducible first
      | apply Keeps.ans | apply Keeps.ansIte | exact Keeps.refl _ | apply Keeps.ite | apply Keeps.badAccess
      | apply Keeps.overPcie

theorem relatch {s0 : State} {agent : Agent} {off : Nat} {wide : Bool} {value : DWord} {setNow : List (Nat × Nat)} {s t : State} (ke : Keeps s0 t) : Keeps s0 (Machine.relatch agent off wide value setNow s t) := by
  unfold Machine.relatch
  try dsimp only
  repeat' first
    | with_reducible first
      | exact ke | exact Keeps.refl _ | apply Keeps.ite | apply Keeps.latchCounter | rfl
    | intro _ | split

theorem execRegisterWrite {agent : Agent} {off : Nat} {wide : Bool} {value : DWord} {setNow : List (Nat × Nat)} {s : State} :
    Answers s (Machine.execRegisterWrite agent off wide value setNow s) := by
  unfold Machine.execRegisterWrite
  try dsimp only
  repeat' first
    | with_reducible first
      | apply Keeps.ans | apply Keeps.ansIte | exact Keeps.refl _ | apply Keeps.ite | apply Keeps.badAccess
      | apply Keeps.barWrite64 | apply Keeps.huskWrite | apply Keeps.overPcie | apply Keeps.relatch
      | apply Keeps.setFlags | apply Keeps.write32 | rfl
    | intro _ | split

theorem execDevCtrSelWrite {fn : Nat} {value : Word} {s : State} :
    Answers s (Machine.execDevCtrSelWrite fn value s) := by
  unfold Machine.execDevCtrSelWrite
  try dsimp only
  repeat' first
    | with_reducible first
      | apply Keeps.ans | apply Keeps.ansIte | exact Keeps.refl _ | apply Keeps.overPcie | apply Keeps.selectCounter

theorem execCounterClear {fn : Nat} {sameCycle : Bool} {s : State} :
    Answers s (Machine.execCounterClear fn sameCycle s) := by
  unfold Machine.execCounterClear
  try dsimp only
  repeat' first
    | with_reducible first
      | apply Keeps.ans | apply Keeps.ansIte | exact Keeps.refl _ | apply Keeps.clearCounter | apply Keeps.overPcie

theorem execCounterClearAll {fn : Nat} {s : State} : Answers s (Machine.execCounterClearAll fn s) := by
  unfold Machine.execCounterClearAll
  try dsimp only
  repeat' first
    | with_reducible first
      | apply Keeps.ans | apply Keeps.ansIte | exact Keeps.refl _ | apply Keeps.clearCounters | apply Keeps.overPcie

theorem execHeatLookupWrite {fn : Nat} {value : Word} {s : State} :
    Answers s (Machine.execHeatLookupWrite fn value s) := by
  unfold Machine.execHeatLookupWrite
  try dsimp only
  repeat' first
    | with_reducible first
      | apply Keeps.ans | apply Keeps.ansIte | exact Keeps.refl _ | apply Keeps.ite | apply Keeps.heatLookup
      | apply Keeps.overPcie | apply Keeps.refuseWrite

theorem execFtBlkSelWrite {fn : Nat} {value : Word} {s : State} : Answers s (Machine.execFtBlkSelWrite fn value s) := by
  unfold Machine.execFtBlkSelWrite
  try dsimp only
  repeat' first
    | with_reducible first
      | apply Keeps.ans | apply Keeps.ansIte | exact Keeps.refl _ | apply Keeps.ite | apply Keeps.overPcie
      | apply Keeps.refuseWrite | apply Keeps.selectBlock

theorem execFabInstallCommit {fn : Nat} {value : Word} {s : State} :
    Answers s (Machine.execFabInstallCommit fn value s) := by
  unfold Machine.execFabInstallCommit
  try dsimp only
  repeat' first
    | with_reducible first
      | apply Keeps.ans | apply Keeps.ansIte | exact Keeps.refl _ | apply Keeps.ite | apply Keeps.installWrite
      | apply Keeps.overPcie | apply Keeps.refuseWrite

theorem execEvrWindowAutoRead {fn : Nat} {s : State} : Answers s (Machine.execEvrWindowAutoRead fn s) := by
  unfold Machine.execEvrWindowAutoRead
  try dsimp only
  repeat' first
    | with_reducible first
      | apply Keeps.ans | apply Keeps.ansIte | exact Keeps.refl _ | apply Keeps.answerRead | apply Keeps.barRead
      | apply Keeps.overPcie

theorem execMsixVectorUnmask {fn vector : Nat} {s : State} : Answers s (Machine.execMsixVectorUnmask fn vector s) := by
  unfold Machine.execMsixVectorUnmask
  try dsimp only
  repeat' first
    | with_reducible first
      | apply Keeps.ans | apply Keeps.ansIte | exact Keeps.refl _ | apply Keeps.ite | apply Keeps.msixWrite
      | apply Keeps.overPcie

/-! ### CmdDevice -/

theorem execNop {ring : Nat} {s : State} : Answers s (Machine.execNop ring s) := by
  unfold Machine.execNop
  try dsimp only
  repeat' first
    | apply Keeps.hostCmd
    | with_reducible first
      | apply Keeps.ans | apply Keeps.ansIte | exact Keeps.refl _ | apply Keeps.done | apply Keeps.hostCommand | rfl
    | intro _

theorem firmwareEvent {s0 : State} {confirmed : Bool} {s : State}
    (ke : Keeps s0 s) : Keeps s0 (Machine.firmwareEvent confirmed s) := by
  unfold Machine.firmwareEvent
  try dsimp only
  repeat' first
    | with_reducible first
      | exact ke | exact Keeps.refl _ | apply Keeps.recordEvent

theorem confirmImage {s0 : State} {s : State} (ke : Keeps s0 s) : Keeps s0 (Machine.confirmImage s) := by
  unfold Machine.confirmImage
  try dsimp only
  repeat' first
    | with_reducible first
      | exact ke | exact Keeps.refl _ | apply Keeps.ite | apply Keeps.firmwareEvent | apply Keeps.wr

theorem parkDevice {s0 : State} {s : State} (ke : Keeps s0 s) : Keeps s0 (Machine.parkDevice s) := by
  unfold Machine.parkDevice
  try dsimp only
  repeat' first
    | with_reducible first
      | exact ke | exact Keeps.refl _ | apply Keeps.ite | apply Keeps.afterBoundary | apply Keeps.beginHalt
      | apply Keeps.foldl | apply Keeps.wr | apply Keeps.foldSnd | apply Keeps.foldSnd2 | rfl
    | intro _

theorem helloOk {s0 : State} {fn minor : Nat} {s : State}
    (ke : Keeps s0 s) : Keeps s0 (Machine.helloOk fn minor s) := by
  unfold Machine.helloOk
  try dsimp only
  repeat' first
    | with_reducible first
      | exact ke | exact Keeps.refl _ | apply Keeps.ite | apply Keeps.confirmImage | apply Keeps.done | apply Keeps.wr
      | rfl
    | intro _ | split | with_reducible apply Keeps.lit

theorem execHello {ring : Nat} {s : State} : Answers s (Machine.execHello ring s) := by
  unfold Machine.execHello
  try dsimp only
  repeat' first
    | apply Keeps.hostCmd
    | with_reducible first
      | apply Keeps.ans | apply Keeps.ansIte | exact Keeps.refl _ | apply Keeps.ite | apply Keeps.done
      | apply Keeps.helloOk | apply Keeps.hostCommand | apply Keeps.logGenerate | apply Keeps.parkDevice | rfl
    | intro _ | split | with_reducible apply Keeps.lit

theorem execQueryDevice {ring : Nat} {s : State} : Answers s (Machine.execQueryDevice ring s) := by
  unfold Machine.execQueryDevice
  try dsimp only
  repeat' first
    | apply Keeps.hostCmd
    | with_reducible first
      | apply Keeps.ans | apply Keeps.ansIte | exact Keeps.refl _ | apply Keeps.ite | apply Keeps.dmaOut
      | apply Keeps.done | apply Keeps.hostCommand | rfl
    | intro _ | split

theorem execQueryRequest {ring : Nat} {s : State} : Answers s (Machine.execQueryRequest ring s) := by
  unfold Machine.execQueryRequest
  try dsimp only
  repeat' first
    | apply Keeps.hostCmd
    | with_reducible first
      | apply Keeps.ans | apply Keeps.ansIte | exact Keeps.refl _ | apply Keeps.ite | apply Keeps.completeAt
      | apply Keeps.dmaOut | apply Keeps.done | apply Keeps.hostCommand | apply Keeps.progress | rfl
    | intro _ | split

theorem execTenantBind {ring : Nat} {s : State} : Answers s (Machine.execTenantBind ring s) := by
  unfold Machine.execTenantBind
  try dsimp only
  repeat' first
    | apply Keeps.hostCmd
    | with_reducible first
      | apply Keeps.ans | apply Keeps.ansIte | exact Keeps.refl _ | apply Keeps.commandEpoch | apply Keeps.done
      | apply Keeps.hostCommand | apply Keeps.setSlot | rfl
    | intro _ | split

theorem execTenantUnbind {ring : Nat} {s : State} : Answers s (Machine.execTenantUnbind ring s) := by
  unfold Machine.execTenantUnbind
  try dsimp only
  repeat' first
    | apply Keeps.hostCmd
    | with_reducible first
      | apply Keeps.ans | apply Keeps.ansIte | exact Keeps.refl _ | apply Keeps.ite | apply Keeps.commandEpoch
      | apply Keeps.done | apply Keeps.hostCommand | apply Keeps.setSlot | rfl
    | intro _

theorem execBudgetSet {ring : Nat} {s : State} : Answers s (Machine.execBudgetSet ring s) := by
  unfold Machine.execBudgetSet
  try dsimp only
  repeat' first
    | apply Keeps.hostCmd
    | with_reducible first
      | apply Keeps.ans | apply Keeps.ansIte | exact Keeps.refl _ | apply Keeps.ite | apply Keeps.commandEpoch
      | apply Keeps.done | apply Keeps.formAll | apply Keeps.hostCommand | apply Keeps.setSlot | rfl
    | intro _

theorem execBudgetQuery {ring : Nat} {s : State} : Answers s (Machine.execBudgetQuery ring s) := by
  unfold Machine.execBudgetQuery
  try dsimp only
  repeat' first
    | apply Keeps.hostCmd
    | with_reducible first
      | apply Keeps.ans | apply Keeps.ansIte | exact Keeps.refl _ | apply Keeps.ite | apply Keeps.dmaOut
      | apply Keeps.done | apply Keeps.hostCommand | rfl
    | intro _

theorem enterRequest {s0 : State} {c : Cmd} {i : Nat} {s : State}
    (ke : Keeps s0 s) : Keeps s0 (Machine.enterRequest c i s) := by
  unfold Machine.enterRequest
  try dsimp only
  repeat' first
    | with_reducible first
      | exact ke | exact Keeps.refl _ | apply Keeps.ite | apply Keeps.admitAll | apply Keeps.endRequest
      | apply Keeps.formStep | apply Keeps.refreshLive | apply Keeps.setRequest | rfl
    | intro _ | split | with_reducible apply Keeps.lit

theorem noteRefusal {s0 : State} {c : Cmd} {status : Nat} {s : State}
    (ke : Keeps s0 s) : Keeps s0 (Machine.noteRefusal c status s) := by
  unfold Machine.noteRefusal
  try dsimp only
  repeat' first
    | with_reducible first
      | exact ke | exact Keeps.refl _ | apply Keeps.ite | apply Keeps.raise | rfl
    | intro _ | split | with_reducible apply Keeps.lit

theorem submitRequest {s0 : State} {c : Cmd} {s : State} (ke : Keeps s0 s) : Keeps s0 (Machine.submitRequest c s) := by
  unfold Machine.submitRequest
  try dsimp only
  repeat' first
    | with_reducible first
      | exact ke | exact Keeps.refl _ | apply Keeps.commandEpoch | apply Keeps.done | apply Keeps.enterRequest
      | apply Keeps.noteRefusal | rfl
    | intro _ | split

theorem execRunGraph {ring : Nat} {s : State} : Answers s (Machine.execRunGraph ring s) := by
  unfold Machine.execRunGraph
  try dsimp only
  repeat' first
    | apply Keeps.hostCmd
    | with_reducible first
      | apply Keeps.ans | apply Keeps.ansIte | exact Keeps.refl _ | apply Keeps.hostCommand
      | apply Keeps.submitRequest | rfl
    | intro _

theorem execGenerate {ring : Nat} {s : State} : Answers s (Machine.execGenerate ring s) := by
  unfold Machine.execGenerate
  try dsimp only
  repeat' first
    | apply Keeps.hostCmd
    | with_reducible first
      | apply Keeps.ans | apply Keeps.ansIte | exact Keeps.refl _ | apply Keeps.hostCommand
      | apply Keeps.submitRequest | rfl
    | intro _

theorem execCancel {ring : Nat} {s : State} : Answers s (Machine.execCancel ring s) := by
  unfold Machine.execCancel
  try dsimp only
  repeat' first
    | apply Keeps.hostCmd
    | with_reducible first
      | apply Keeps.ans | apply Keeps.ansIte | exact Keeps.refl _ | apply Keeps.ite | apply Keeps.admitAll
      | apply Keeps.cancelRequest | apply Keeps.commandEpoch | apply Keeps.done | apply Keeps.formStep
      | apply Keeps.hostCommand | apply Keeps.setRequest | apply Keeps.startRun | rfl
    | intro _ | split

/-! ### Host -/

theorem badDoorbell {s0 : State} {fn ring width off : Nat} {s : State} (ke : Keeps s0 s) :
    Keeps s0 (Machine.badDoorbell fn ring width off s) := by
  unfold Machine.badDoorbell
  exact ke.accessViolation ..

theorem sqBell {s0 : State} {ring v : Nat} {s : State} (ke : Keeps s0 s) : Keeps s0 (Machine.sqBell ring v s) := by
  unfold Machine.sqBell
  try dsimp only
  repeat' first
    | with_reducible first
      | exact ke | exact Keeps.refl _ | apply Keeps.ite | apply Keeps.raise | apply Keeps.wr

theorem cqBell {s0 : State} {ring w : Nat} {s : State} (ke : Keeps s0 s) : Keeps s0 (Machine.cqBell ring w s) := by
  unfold Machine.cqBell
  try dsimp only
  repeat' first
    | with_reducible first
      | exact ke | exact Keeps.refl _ | apply Keeps.ite | apply Keeps.raise | apply Keeps.wr

theorem bellPage {s0 : State} {fn ring off : Nat} {a : BellAccess} {s : State} (ke : Keeps s0 s) :
    Keeps s0 (Machine.bellPage fn ring off a s) := by
  unfold Machine.bellPage
  refine ite ke ?_
  split
  · exact ke.emit _
  · exact ite (badDoorbell ke) (ite (sqBell ke) (ite (cqBell ke) (badDoorbell ke)))

theorem execSqDoorbell {fn ring off : Nat} {access : BellAccess} {s : State} :
    Answers s (Machine.execSqDoorbell fn ring off access s) :=
  overPcie (bellPage (refl s))

theorem execCqDoorbell {fn ring off : Nat} {access : BellAccess} {s : State} :
    Answers s (Machine.execCqDoorbell fn ring off access s) :=
  overPcie (bellPage (refl s))

theorem ringSwitch {s0 : State} {fn ring : Nat} {en : Bool} {value : Word} {s : State}
    (ke : Keeps s0 s) : Keeps s0 (Machine.ringSwitch fn ring en value s) := by
  unfold Machine.ringSwitch
  try dsimp only
  repeat' first
    | with_reducible first
      | exact ke | exact Keeps.refl _ | apply Keeps.ite | apply Keeps.barWrite

theorem execRingEnable {fn ring : Nat} {value : Word} {s : State} :
    Answers s (Machine.execRingEnable fn ring value s) := by
  unfold Machine.execRingEnable
  try dsimp only
  repeat' first
    | with_reducible first
      | apply Keeps.ans | apply Keeps.ansIte | exact Keeps.refl _ | apply Keeps.overPcie | apply Keeps.ringSwitch

theorem execRingDisable {fn ring : Nat} {value : Word} {s : State} :
    Answers s (Machine.execRingDisable fn ring value s) := by
  unfold Machine.execRingDisable
  try dsimp only
  repeat' first
    | with_reducible first
      | apply Keeps.ans | apply Keeps.ansIte | exact Keeps.refl _ | apply Keeps.overPcie | apply Keeps.ringSwitch

theorem acceptEntries {s0 : State} {ring : Nat} {es : List (BitVec 512)} {s : State}
    (ke : Keeps s0 s) : Keeps s0 (Machine.acceptEntries ring es s) := by
  unfold Machine.acceptEntries
  try dsimp only
  repeat' first
    | with_reducible first
      | exact ke | exact Keeps.refl _ | apply Keeps.ite | apply Keeps.emit | apply Keeps.wr | apply Keeps.wrB | rfl
    | intro _ | split | with_reducible apply Keeps.lit

theorem fetchFails {s0 : State} {ring : Nat} {s : State} (ke : Keeps s0 s) : Keeps s0 (Machine.fetchFails ring s) := by
  unfold Machine.fetchFails
  try dsimp only
  repeat' first
    | with_reducible first
      | exact ke | exact Keeps.refl _ | apply Keeps.raise | apply Keeps.recordEvent | apply Keeps.wr | rfl
    | intro _ | split | with_reducible apply Keeps.lit

theorem execSqFetch {ring : Nat} {data : SqRead} {s : State} : Answers s (Machine.execSqFetch ring data s) := by
  unfold Machine.execSqFetch
  try dsimp only
  repeat' first
    | with_reducible first
      | apply Keeps.ans | apply Keeps.ansIte | exact Keeps.refl _ | apply Keeps.ite | apply Keeps.acceptEntries
      | apply Keeps.fetchFails | apply Keeps.rejectUndefined | rfl
    | intro _ | split

theorem execInterruptCoalesceTimeout {ring : Nat} {s : State} :
    Answers s (Machine.execInterruptCoalesceTimeout ring s) := by
  unfold Machine.execInterruptCoalesceTimeout
  try dsimp only
  repeat' first
    | with_reducible first
      | apply Keeps.ans | apply Keeps.ansIte | exact Keeps.refl _ | apply Keeps.ite | apply Keeps.signalVector

theorem stopCommands {s0 : State} {fn : Nat} {s : State} (ke : Keeps s0 s) : Keeps s0 (Machine.stopCommands fn s) := by
  unfold Machine.stopCommands
  try dsimp only
  repeat' first
    | with_reducible first
      | exact ke | exact Keeps.refl _ | apply Keeps.ite | apply Keeps.dropRun | apply Keeps.foldl
      | apply Keeps.foldSnd | apply Keeps.foldSnd2 | rfl
    | intro _ | split | with_reducible apply Keeps.lit

theorem flrRing {s0 : State} {n : Nat} {s : State} (ke : Keeps s0 s) : Keeps s0 (Machine.flrRing n s) := by
  unfold Machine.flrRing
  try dsimp only
  repeat' first
    | with_reducible first
      | exact ke | exact Keeps.refl _ | apply Keeps.setRingAux | apply Keeps.wr

theorem flrChannel {s0 : State} {c : Nat} {s : State} (ke : Keeps s0 s) : Keeps s0 (Machine.flrChannel c s) := by
  unfold Machine.flrChannel
  try dsimp only
  repeat' first
    | with_reducible first
      | exact ke | exact Keeps.refl _ | apply Keeps.wr | apply Keeps.wr32 | apply Keeps.wr64 | rfl
    | intro _ | split | with_reducible apply Keeps.lit

theorem flrRequest {s0 : State} {i : Nat} {s : State} (ke : Keeps s0 s) : Keeps s0 (Machine.flrRequest i s) := by
  unfold Machine.flrRequest
  try dsimp only
  repeat' first
    | with_reducible first
      | exact ke | exact Keeps.refl _ | apply Keeps.ite | apply Keeps.admitAll | apply Keeps.cancelRequest
      | apply Keeps.finishRuns | apply Keeps.formStep | apply Keeps.setRequest

theorem flrStaging {s0 : State} {fn : Nat} {s : State} (ke : Keeps s0 s) : Keeps s0 (Machine.flrStaging fn s) := by
  unfold Machine.flrStaging
  try dsimp only
  repeat' first
    | with_reducible first
      | exact ke | exact Keeps.refl _ | apply Keeps.ite | apply Keeps.armStart | apply Keeps.dropReads
      | apply Keeps.foldl | apply Keeps.setStep | apply Keeps.step | apply Keeps.foldSnd | apply Keeps.foldSnd2 | rfl
    | intro _ | split

theorem resetFunction {s0 : State} {fn : Nat} {s : State}
    (ke : Keeps s0 s) : Keeps s0 (Machine.resetFunction fn s) := by
  unfold Machine.resetFunction
  try dsimp only
  repeat' first
    | with_reducible first
      | exact ke | exact Keeps.refl _ | apply Keeps.ite | apply Keeps.commandEpoch | apply Keeps.flrChannel
      | apply Keeps.flrRequest | apply Keeps.flrRing | apply Keeps.flrStaging | apply Keeps.foldl
      | apply Keeps.pumpFences | apply Keeps.setSlot | apply Keeps.stopCommands | apply Keeps.wr | apply Keeps.foldSnd
      | apply Keeps.foldSnd2 | rfl
    | intro _ | split | with_reducible apply Keeps.lit

theorem disableVfs {s0 : State} {s : State} (ke : Keeps s0 s) : Keeps s0 (Machine.disableVfs s) := by
  unfold Machine.disableVfs
  try dsimp only
  repeat' first
    | with_reducible first
      | exact ke | exact Keeps.refl _ | apply Keeps.ite | apply Keeps.foldl | apply Keeps.resetFunction
      | apply Keeps.wr | apply Keeps.foldSnd | apply Keeps.foldSnd2 | rfl
    | intro _

theorem execVfFlr {fn : Nat} {s : State} : Answers s (Machine.execVfFlr fn s) := by
  unfold Machine.execVfFlr
  try dsimp only
  repeat' first
    | with_reducible first
      | apply Keeps.ans | apply Keeps.ansIte | exact Keeps.refl _ | apply Keeps.ite | apply Keeps.resetFunction

theorem execPfFlr {s : State} : Answers s (Machine.execPfFlr s) := by
  unfold Machine.execPfFlr
  try dsimp only
  repeat' first
    | with_reducible first
      | apply Keeps.ans | apply Keeps.ansIte | exact Keeps.refl _ | apply Keeps.disableVfs | apply Keeps.endSampling
      | apply Keeps.resetFunction | apply Keeps.wr

theorem execVfEnableWrite {enable : Bool} {numVfs : Nat} {s : State} :
    Answers s (Machine.execVfEnableWrite enable numVfs s) := by
  unfold Machine.execVfEnableWrite
  try dsimp only
  repeat' first
    | with_reducible first
      | apply Keeps.ans | apply Keeps.ansIte | exact Keeps.refl _ | apply Keeps.ite | apply Keeps.disableVfs
      | apply Keeps.wr

theorem execPcieLinkTrained {speed width : Nat} {flit cxl : Bool} {s : State} :
    Answers s (Machine.execPcieLinkTrained speed width flit cxl s) := by
  unfold Machine.execPcieLinkTrained
  try dsimp only
  repeat' first
    | with_reducible first
      | apply Keeps.ans | apply Keeps.ansIte | exact Keeps.refl _ | apply Keeps.ite | apply Keeps.wr | apply Keeps.wrB
      | rfl
    | intro _ | split | with_reducible apply Keeps.lit

theorem freeWindow {s0 : State} {s : State} (ke : Keeps s0 s) : Keeps s0 (Machine.freeWindow s) := by
  unfold Machine.freeWindow
  try dsimp only
  repeat' first
    | with_reducible first
      | exact ke | exact Keeps.refl _ | apply Keeps.freeRuns | apply Keeps.refreshHeat | apply Keeps.wr
      | apply Keeps.wr64 | rfl
    | intro _ | split | with_reducible apply Keeps.lit

theorem execCxlDecoderDecommit {s : State} : Answers s (Machine.execCxlDecoderDecommit s) := by
  unfold Machine.execCxlDecoderDecommit
  try dsimp only
  repeat' first
    | with_reducible first
      | apply Keeps.ans | apply Keeps.ansIte | exact Keeps.refl _ | apply Keeps.ite | apply Keeps.freeWindow

theorem execCxlDecoderCommit {base : Nat} {s : State} : Answers s (Machine.execCxlDecoderCommit base s) := by
  unfold Machine.execCxlDecoderCommit
  dsimp only
  split
  · exact ans (refl s)
  · split
    · exact ans (((refl s).raise _ _).emit _)
    · rename_i off t h
      have kt : Keeps s t := by
        split at h
        · injection h with h; injection h with _ h; subst h; exact refl s
        · exact allocD_some (refl s) h
      exact ans (refreshHeat (((lit kt rfl rfl rfl).wr _ _).wr64 _ _))

theorem cxlAccess {s0 : State} {g : DWord} {op : TierOp} {s : State}
    (ke : Keeps s0 s) : Keeps s0 (Machine.cxlAccess g op s) := by
  unfold Machine.cxlAccess
  try dsimp only
  repeat' first
    | with_reducible first
      | exact ke | exact Keeps.refl _ | apply Keeps.present

theorem cxlEnded {s0 : State} {req : AccessReq} {code : Nat} {data : List Byte} {s : State}
    (ke : Keeps s0 s) : Keeps s0 (Machine.cxlEnded req code data s) := by
  unfold Machine.cxlEnded
  try dsimp only
  repeat' first
    | with_reducible first
      | exact ke | exact Keeps.refl _ | apply Keeps.emit | rfl
    | intro _ | split

theorem execCxlMemRead {hpa len : Nat} {s : State} : Answers s (Machine.execCxlMemRead hpa len s) := by
  unfold Machine.execCxlMemRead
  try dsimp only
  repeat' first
    | with_reducible first
      | apply Keeps.ans | apply Keeps.ansIte | exact Keeps.refl _ | apply Keeps.cxlAccess | rfl
    | intro _ | split

theorem execCxlMemWrite {hpa : Nat} {data : List Byte} {s : State} :
    Answers s (Machine.execCxlMemWrite hpa data s) := by
  unfold Machine.execCxlMemWrite
  try dsimp only
  repeat' first
    | with_reducible first
      | apply Keeps.ans | apply Keeps.ansIte | exact Keeps.refl _ | apply Keeps.cxlAccess | rfl
    | intro _ | split

/-! ### Bdp -/

theorem refreshBusy {s0 : State} {c : Nat} {s : State} (ke : Keeps s0 s) : Keeps s0 (Machine.refreshBusy c s) := by
  unfold Machine.refreshBusy
  try dsimp only
  repeat' first
    | with_reducible first
      | exact ke | exact Keeps.refl _ | apply Keeps.wrB

theorem setBdpQueue {s0 : State} {c : Nat} {q : List ChanAccess} {s : State}
    (ke : Keeps s0 s) : Keeps s0 (Machine.setBdpQueue c q s) := by
  unfold Machine.setBdpQueue
  try dsimp only
  repeat' first
    | with_reducible first
      | exact ke | exact Keeps.refl _ | apply Keeps.refreshBusy | rfl
    | intro _ | split | with_reducible apply Keeps.lit

theorem moveCursor {s0 : State} {c n : Nat} {s : State} (ke : Keeps s0 s) : Keeps s0 (Machine.moveCursor c n s) := by
  unfold Machine.moveCursor
  try dsimp only
  repeat' first
    | with_reducible first
      | exact ke | exact Keeps.refl _ | apply Keeps.wr64

theorem noteResp {s0 : State} {c code : Nat} {s : State} (ke : Keeps s0 s) : Keeps s0 (Machine.noteResp c code s) := by
  unfold Machine.noteResp
  try dsimp only
  repeat' first
    | with_reducible first
      | exact ke | exact Keeps.refl _ | apply Keeps.ite | apply Keeps.fresh | apply Keeps.raise | apply Keeps.wr | rfl
    | intro _ | split

theorem settleChannel {s0 : State} {c : Nat} {s : State} (ke : Keeps s0 s) : Keeps s0 (Machine.settleChannel c s) := by
  unfold Machine.settleChannel
  try dsimp only
  repeat' first
    | with_reducible first
      | exact ke | exact Keeps.refl _ | apply Keeps.ite | apply Keeps.done | apply Keeps.finishRun | rfl
    | intro _ | split

theorem channelMoved {s0 : State} {c n : Nat} {write unwritten : Bool} {s : State}
    (ke : Keeps s0 s) : Keeps s0 (Machine.channelMoved c n write unwritten s) := by
  unfold Machine.channelMoved
  try dsimp only
  repeat' first
    | with_reducible first
      | exact ke | exact Keeps.refl _ | apply Keeps.ite | apply Keeps.add64 | apply Keeps.done | apply Keeps.setRun
      | apply Keeps.settleChannel | rfl
    | intro _ | split

theorem channelFails {s0 : State} {c code at_ : Nat} {addr : DWord} {s : State}
    (ke : Keeps s0 s) : Keeps s0 (Machine.channelFails c code at_ addr s) := by
  unfold Machine.channelFails
  try dsimp only
  repeat' first
    | with_reducible first
      | exact ke | exact Keeps.refl _ | apply Keeps.done | apply Keeps.finishRun | apply Keeps.noteResp | rfl
    | intro _ | split

theorem popAccess {s0 : State} {c : Nat} {w : ChanAccess} {rest : List ChanAccess} {s : State}
    (ke : Keeps s0 s) : Keeps s0 (Machine.popAccess c w rest s) := by
  unfold Machine.popAccess
  try dsimp only
  repeat' first
    | with_reducible first
      | exact ke | exact Keeps.refl _ | apply Keeps.ite | apply Keeps.setBdpQueue | apply Keeps.wr32

theorem readEnds {s0 : State} {c fn code at_ : Nat} {addr : DWord} {data : List Byte} {s : State}
    (ke : Keeps s0 s) : Keeps s0 (Machine.readEnds c fn code at_ addr data s) := by
  unfold Machine.readEnds
  try dsimp only
  repeat' first
    | with_reducible first
      | exact ke | exact Keeps.refl _ | apply Keeps.ite | apply Keeps.channelFails | apply Keeps.channelMoved
      | apply Keeps.emit | apply Keeps.raise

theorem endItem {s0 : State} {c : Nat} {w : ChanAccess} {rest : List ChanAccess} {code at_ : Nat} {addr : DWord} {data : List Byte} {s : State} (ke : Keeps s0 s) : Keeps s0 (Machine.endItem c w rest code at_ addr data s) := by
  unfold Machine.endItem
  try dsimp only
  repeat' first
    | with_reducible first
      | exact ke | exact Keeps.refl _ | apply Keeps.ite | apply Keeps.channelFails | apply Keeps.channelMoved
      | apply Keeps.popAccess | apply Keeps.readEnds | rfl
    | intro _ | split

theorem startItem {s0 : State} {c : Nat} {s : State} (ke : Keeps s0 s) : Keeps s0 (Machine.startItem c s) := by
  unfold Machine.startItem
  try dsimp only
  repeat' first
    | with_reducible first
      | exact ke | exact Keeps.refl _ | apply Keeps.ite | apply Keeps.endItem | apply Keeps.hostGo
      | apply Keeps.popAccess | apply Keeps.present | apply Keeps.sendRequest | apply Keeps.setBdpQueue
      | apply Keeps.getD | refine Keeps.sndEq ?_ (by assumption) | rfl
    | intro _ | split

theorem startReads {s0 : State} {n c : Nat} {s : State} (ke : Keeps s0 s) : Keeps s0 (Machine.startReads n c s) := by
  induction n generalizing s with
  | zero => exact ke
  | succ n ih =>
    unfold Machine.startReads
    split
    · extract_lets t
      have kt : Keeps s0 t := startItem ke
      exact ite ke (ite (ih kt) kt)
    · exact ke

theorem kick {s0 : State} {c : Nat} {s : State} (ke : Keeps s0 s) : Keeps s0 (Machine.kick c s) :=
  refreshBusy (startReads ke)

theorem execBdpBufferDrain {chan : Nat} {s : State} : Answers s (Machine.execBdpBufferDrain chan s) := by
  unfold Machine.execBdpBufferDrain
  try dsimp only
  repeat' first
    | with_reducible first
      | apply Keeps.ans | apply Keeps.ansIte | exact Keeps.refl _ | apply Keeps.ite | apply Keeps.kick
      | apply Keeps.pumpFences | apply Keeps.startItem

theorem channelEnded {s0 : State} {c id code at_ : Nat} {addr : DWord} {data : List Byte} {s : State}
    (ke : Keeps s0 s) : Keeps s0 (Machine.channelEnded c id code at_ addr data s) := by
  unfold Machine.channelEnded
  try dsimp only
  repeat' first
    | with_reducible first
      | exact ke | exact Keeps.refl _ | apply Keeps.ite | apply Keeps.endItem | apply Keeps.kick | rfl
    | intro _ | split

theorem channelStore {s0 : State} {fn : Nat} {tg : Nat → Target} {off : Nat} {data : List Byte} {s : State}
    (ke : Keeps s0 s) : Keeps s0 (Machine.channelStore fn tg off data s).2 := by
  unfold Machine.channelStore
  refine foldSnd (fun b x => ?_) ke
  extract_lets a
  have ka : Keeps b.2 a.s := answer (refl _)
  clear_value a
  split <;> exact ka

theorem storeItem {s0 : State} {c : Nat} {s : State} (ke : Keeps s0 s) : Keeps s0 (Machine.storeItem c s).1.s := by
  unfold Machine.storeItem
  split
  · extract_lets r
    have kr : Keeps s0 r.2 := channelStore ke
    clear_value r
    split <;> exact kr
  · exact ke

theorem badChannel {s0 : State} {fn chan off width : Nat} {write : Bool} {s : State}
    (ke : Keeps s0 s) : Keeps s0 (Machine.badChannel fn chan off width write s) := by
  unfold Machine.badChannel
  try dsimp only
  repeat' first
    | with_reducible first
      | exact ke | exact Keeps.refl _ | apply Keeps.accessViolation

theorem execBdpWindowWrite {fn chan off : Nat} {data : List Byte} {poisoned : Bool} {s : State} :
    Answers s (Machine.execBdpWindowWrite fn chan off data poisoned s) := by
  unfold Machine.execBdpWindowWrite
  try dsimp only
  repeat' first
    | with_reducible first
      | apply Keeps.ans | apply Keeps.ansIte | exact Keeps.refl _ | apply Keeps.ite | apply Keeps.badChannel
      | apply Keeps.moveCursor | apply Keeps.raise | apply Keeps.setBdpQueue | apply Keeps.wr32

theorem execBdpWindowRead {fn chan off len : Nat} {s : State} :
    Answers s (Machine.execBdpWindowRead fn chan off len s) := by
  unfold Machine.execBdpWindowRead
  try dsimp only
  repeat' first
    | with_reducible first
      | apply Keeps.ans | apply Keeps.ansIte | exact Keeps.refl _ | apply Keeps.ite | apply Keeps.badChannel
      | apply Keeps.emit | apply Keeps.kick | apply Keeps.moveCursor | apply Keeps.pumpFences | apply Keeps.raise
      | apply Keeps.setBdpQueue

theorem bdpResponse {s0 : State} {c fn len : Nat} {read : Bool} {code : Nat} {g : DWord} {data : List Byte} {s : State} (ke : Keeps s0 s) : Keeps s0 (Machine.bdpResponse c fn len read code g data s) := by
  unfold Machine.bdpResponse
  try dsimp only
  repeat' first
    | with_reducible first
      | exact ke | exact Keeps.refl _ | apply Keeps.ite | apply Keeps.channelFails | apply Keeps.channelMoved
      | apply Keeps.kick | apply Keeps.readEnds | apply Keeps.refreshBusy

theorem kickAll {s0 : State} {s : State} (ke : Keeps s0 s) : Keeps s0 (Machine.kickAll s) := by
  unfold Machine.kickAll
  try dsimp only
  repeat' first
    | with_reducible first
      | exact ke | exact Keeps.refl _ | apply Keeps.foldl | apply Keeps.kick | apply Keeps.foldSnd
      | apply Keeps.foldSnd2 | rfl
    | intro _

theorem execTensorFree {ring : Nat} {s : State} : Answers s (Machine.execTensorFree ring s) := by
  unfold Machine.execTensorFree
  try dsimp only
  repeat' first
    | apply Keeps.hostCmd
    | with_reducible first
      | apply Keeps.ans | apply Keeps.ansIte | exact Keeps.refl _ | apply Keeps.ite | apply Keeps.commandEpoch
      | apply Keeps.done | apply Keeps.freeTensor | apply Keeps.hostCommand | apply Keeps.kickAll
      | apply Keeps.pumpBaseStages | rfl
    | intro _ | split

end Keeps
end Sys2Proof.Machine
end

