-- ==== Sys2Proof/Laws/KeepsFabric.lean ====
section
/-! SUPPORT. What no operation of the block does, said once for each operation of the fabric, the accesses, the twin, boot, the life cycle, transfers, the frame, the guardian and the sideband:
a shared operation keeps, and a command answers only what keeps. -/

namespace Sys2Proof.Machine
namespace Keeps

/-! ### Fabric -/

theorem askTime {s0 : State} {s : State} (ke : Keeps s0 s) : Keeps s0 (Machine.askTime s) := by
  unfold Machine.askTime
  try dsimp only
  repeat' first
    | with_reducible first
      | exact ke | exact Keeps.refl _ | apply Keeps.setPort | rfl
    | intro _ | split

theorem settleSync {s0 : State} {s : State} (ke : Keeps s0 s) : Keeps s0 (Machine.settleSync s) := by
  unfold Machine.settleSync
  try dsimp only
  repeat' first
    | with_reducible first
      | exact ke | exact Keeps.refl _ | apply Keeps.ite | apply Keeps.finishRuns

theorem downPort {s0 : State} {p : Nat} {s : State} (ke : Keeps s0 s) : Keeps s0 (Machine.downPort p s) := by
  unfold Machine.downPort
  try dsimp only
  repeat' first
    | with_reducible first
      | exact ke | exact Keeps.refl _ | apply Keeps.ite | apply Keeps.enterPort | apply Keeps.foldl
      | apply Keeps.linksChanged | apply Keeps.refreshLag | apply Keeps.sendOn | apply Keeps.sendPacket
      | apply Keeps.setPort | apply Keeps.settleSync | apply Keeps.wr | apply Keeps.foldSnd | apply Keeps.foldSnd2
      | rfl
    | intro _ | split

theorem replayPort {s0 : State} {p : Nat} {s : State} (ke : Keeps s0 s) : Keeps s0 (Machine.replayPort p s) := by
  unfold Machine.replayPort
  try dsimp only
  repeat' first
    | with_reducible first
      | exact ke | exact Keeps.refl _ | apply Keeps.ite | apply Keeps.addSat | apply Keeps.emit | apply Keeps.foldl
      | apply Keeps.raise | apply Keeps.foldSnd | apply Keeps.foldSnd2 | rfl
    | intro _

theorem execPortDetect {port : Nat} {seen : Detected} {s : State} : Answers s (Machine.execPortDetect port seen s) := by
  unfold Machine.execPortDetect
  try dsimp only
  repeat' first
    | with_reducible first
      | apply Keeps.ans | apply Keeps.ansIte | exact Keeps.refl _ | apply Keeps.ite | apply Keeps.enterPort | rfl
    | intro _ | split

theorem execPortTrainingDone {port : Nat} {result : Training} {s : State} :
    Answers s (Machine.execPortTrainingDone port result s) := by
  unfold Machine.execPortTrainingDone
  try dsimp only
  repeat' first
    | with_reducible first
      | apply Keeps.ans | apply Keeps.ansIte | exact Keeps.refl _ | apply Keeps.ite | apply Keeps.addSat
      | apply Keeps.enterPort | apply Keeps.setPort | apply Keeps.wr | apply Keeps.wrB | rfl
    | intro _ | split

theorem raisePort {s0 : State} {p : Nat} {s : State} (ke : Keeps s0 s) : Keeps s0 (Machine.raisePort p s) := by
  unfold Machine.raisePort
  try dsimp only
  repeat' first
    | with_reducible first
      | exact ke | exact Keeps.refl _ | apply Keeps.ite | apply Keeps.askTime | apply Keeps.enterPort
      | apply Keeps.linksChanged | apply Keeps.setPort | apply Keeps.wr

theorem leaveNoId {s0 : State} {p : Nat} {peer : PeerInfo} {s : State}
    (ke : Keeps s0 s) : Keeps s0 (Machine.leaveNoId p peer s) := by
  unfold Machine.leaveNoId
  try dsimp only
  repeat' first
    | with_reducible first
      | exact ke | exact Keeps.refl _ | apply Keeps.ite | apply Keeps.enterPort

theorem execPeerCheck {port : Nat} {peer : PeerInfo} {s : State} : Answers s (Machine.execPeerCheck port peer s) := by
  unfold Machine.execPeerCheck
  try dsimp only
  repeat' first
    | with_reducible first
      | apply Keeps.ans | apply Keeps.ansIte | exact Keeps.refl _ | apply Keeps.ite | apply Keeps.enterPort
      | apply Keeps.leaveNoId | apply Keeps.raisePort | apply Keeps.wr | rfl
    | intro _ | split | with_reducible apply Keeps.lit

theorem execLinkRetrainTimer {port : Nat} {s : State} : Answers s (Machine.execLinkRetrainTimer port s) := by
  unfold Machine.execLinkRetrainTimer
  try dsimp only
  repeat' first
    | with_reducible first
      | apply Keeps.ans | apply Keeps.ansIte | exact Keeps.refl _ | apply Keeps.ite | apply Keeps.enterPort

theorem execCrossedRecheck {port : Nat} {gone : Bool} {s : State} :
    Answers s (Machine.execCrossedRecheck port gone s) := by
  unfold Machine.execCrossedRecheck
  try dsimp only
  repeat' first
    | with_reducible first
      | apply Keeps.ans | apply Keeps.ansIte | exact Keeps.refl _ | apply Keeps.ite | apply Keeps.enterPort

theorem execCableRemoved {port : Nat} {s : State} : Answers s (Machine.execCableRemoved port s) := by
  unfold Machine.execCableRemoved
  try dsimp only
  repeat' first
    | with_reducible first
      | apply Keeps.ans | apply Keeps.ansIte | exact Keeps.refl _ | apply Keeps.ite | apply Keeps.enterPort

theorem execLinkDownDetect {port : Nat} {s : State} : Answers s (Machine.execLinkDownDetect port s) := by
  unfold Machine.execLinkDownDetect
  try dsimp only
  repeat' first
    | with_reducible first
      | apply Keeps.ans | apply Keeps.ansIte | exact Keeps.refl _ | apply Keeps.ite | apply Keeps.downPort

theorem execLaneLockLoss {port lane : Nat} {s : State} : Answers s (Machine.execLaneLockLoss port lane s) := by
  unfold Machine.execLaneLockLoss
  try dsimp only
  repeat' first
    | with_reducible first
      | apply Keeps.ans | apply Keeps.ansIte | exact Keeps.refl _ | apply Keeps.ite | apply Keeps.downPort
      | apply Keeps.enterPort | apply Keeps.linksChanged | apply Keeps.raise | apply Keeps.replayPort
      | apply Keeps.setPort | apply Keeps.wr

theorem execLaneRetrain {port lane : Nat} {clean : Bool} {s : State} :
    Answers s (Machine.execLaneRetrain port lane clean s) := by
  unfold Machine.execLaneRetrain
  try dsimp only
  repeat' first
    | with_reducible first
      | apply Keeps.ans | apply Keeps.ansIte | exact Keeps.refl _ | apply Keeps.ite | apply Keeps.addSat
      | apply Keeps.enterPort | apply Keeps.linksChanged | apply Keeps.raise | apply Keeps.replayPort
      | apply Keeps.setPort | apply Keeps.wr

theorem nakFlit {s0 : State} {p : Nat} {s : State} (ke : Keeps s0 s) : Keeps s0 (Machine.nakFlit p s) := by
  unfold Machine.nakFlit
  try dsimp only
  repeat' first
    | with_reducible first
      | exact ke | exact Keeps.refl _ | apply Keeps.emit

theorem takeAck {s0 : State} {p : Nat} {f : BitVec 4352} {s : State}
    (ke : Keeps s0 s) : Keeps s0 (Machine.takeAck p f s) := by
  unfold Machine.takeAck
  try dsimp only
  repeat' first
    | with_reducible first
      | exact ke | exact Keeps.refl _ | apply Keeps.ite | apply Keeps.downPort | apply Keeps.foldl | apply Keeps.fresh
      | apply Keeps.replayPort | apply Keeps.setPort

theorem takeTime {s0 : State} {p : Nat} {f : BitVec 4352} {s : State}
    (ke : Keeps s0 s) : Keeps s0 (Machine.takeTime p f s) := by
  unfold Machine.takeTime
  try dsimp only
  repeat' first
    | with_reducible first
      | exact ke | exact Keeps.refl _ | apply Keeps.ite | apply Keeps.setPort

theorem noteFec {s0 : State} {p : Nat} {s : State} (ke : Keeps s0 s) : Keeps s0 (Machine.noteFec p s) := by
  unfold Machine.noteFec
  try dsimp only
  repeat' first
    | with_reducible first
      | exact ke | exact Keeps.refl _ | apply Keeps.add64 | apply Keeps.fresh

theorem execFabricFlitReceive {port : Nat} {flit : BitVec 4352} {s : State} :
    Answers s (Machine.execFabricFlitReceive port flit s) := by
  unfold Machine.execFabricFlitReceive
  try dsimp only
  repeat' first
    | with_reducible first
      | apply Keeps.ans | apply Keeps.ansIte | exact Keeps.refl _ | apply Keeps.ite | apply Keeps.add64
      | apply Keeps.addSat | apply Keeps.nakFlit | apply Keeps.noteFec | apply Keeps.setPort | apply Keeps.takeAck
      | apply Keeps.takeTime

theorem execAckTimer {port : Nat} {s : State} : Answers s (Machine.execAckTimer port s) := by
  unfold Machine.execAckTimer
  try dsimp only
  repeat' first
    | with_reducible first
      | apply Keeps.ans | apply Keeps.ansIte | exact Keeps.refl _ | apply Keeps.ite | apply Keeps.emit
      | apply Keeps.setPort

theorem execRouteUpdate {u : RouteUpdate} {s : State} : Answers s (Machine.execRouteUpdate u s) := by
  unfold Machine.execRouteUpdate
  try dsimp only
  repeat' first
    | with_reducible first
      | apply Keeps.ans | apply Keeps.ansIte | exact Keeps.refl _ | apply Keeps.ite | apply Keeps.flood
      | apply Keeps.recompute | apply Keeps.settleSync | rfl
    | intro _ | split | with_reducible apply Keeps.lit

theorem execRouteQuery {ring : Nat} {s : State} : Answers s (Machine.execRouteQuery ring s) := by
  unfold Machine.execRouteQuery
  try dsimp only
  repeat' first
    | apply Keeps.hostCmd
    | with_reducible first
      | apply Keeps.ans | apply Keeps.ansIte | exact Keeps.refl _ | apply Keeps.dmaOut | apply Keeps.done
      | apply Keeps.hostCommand | rfl
    | intro _

theorem execSliceSet {ring : Nat} {s : State} : Answers s (Machine.execSliceSet ring s) := by
  unfold Machine.execSliceSet
  try dsimp only
  repeat' first
    | apply Keeps.hostCmd
    | with_reducible first
      | apply Keeps.ans | apply Keeps.ansIte | exact Keeps.refl _ | apply Keeps.ite | apply Keeps.done
      | apply Keeps.hostCommand | apply Keeps.linksChanged | apply Keeps.startRun | apply Keeps.wr | rfl
    | intro _

theorem endRemote {s0 : State} {p : PendingReq} {code : Nat} {data : List Byte} {s : State}
    (ke : Keeps s0 s) : Keeps s0 (Machine.endRemote p code data s) := by
  unfold Machine.endRemote
  try dsimp only
  repeat' first
    | with_reducible first
      | exact ke | exact Keeps.refl _ | apply Keeps.ite | apply Keeps.bdpResponse | apply Keeps.setTile
      | apply Keeps.stepError | rfl
    | intro _ | split | with_reducible apply Keeps.lit

theorem dropPending {s0 : State} {tag : Nat} {s : State} (ke : Keeps s0 s) : Keeps s0 (Machine.dropPending tag s) := by
  unfold Machine.dropPending
  try dsimp only
  repeat' first
    | with_reducible first
      | exact ke | exact Keeps.refl _ | rfl
    | intro _ | split | with_reducible apply Keeps.lit

theorem sliceDrop {s0 : State} {s : State} (ke : Keeps s0 s) : Keeps s0 (Machine.sliceDrop s) := by
  unfold Machine.sliceDrop
  try dsimp only
  repeat' first
    | with_reducible first
      | exact ke | exact Keeps.refl _ | apply Keeps.addSat | apply Keeps.raise

theorem forward {s0 : State} {h : PktHdr} {mk : PktHdr → Packet} {s : State}
    (ke : Keeps s0 s) : Keeps s0 (Machine.forward h mk s) := by
  unfold Machine.forward
  try dsimp only
  repeat' first
    | with_reducible first
      | exact ke | exact Keeps.refl _ | apply Keeps.ite | apply Keeps.sendPacket | apply Keeps.sliceDrop

theorem respond {s0 : State} {h : PktHdr} {mk : PktHdr → Packet} {s : State}
    (ke : Keeps s0 s) : Keeps s0 (Machine.respond h mk s) := by
  unfold Machine.respond
  try dsimp only
  repeat' first
    | with_reducible first
      | exact ke | exact Keeps.refl _ | apply Keeps.sendPacket

theorem respondCode {s0 : State} {h : PktHdr} {code : Nat} {s : State}
    (ke : Keeps s0 s) : Keeps s0 (Machine.respondCode h code s) := by
  unfold Machine.respondCode
  try dsimp only
  repeat' first
    | with_reducible first
      | exact ke | exact Keeps.refl _ | apply Keeps.respond

theorem denySlice {s0 : State} {h : PktHdr} {s : State} (ke : Keeps s0 s) : Keeps s0 (Machine.denySlice h s) := by
  unfold Machine.denySlice
  try dsimp only
  repeat' first
    | with_reducible first
      | exact ke | exact Keeps.refl _ | apply Keeps.respondCode | apply Keeps.sliceDrop

theorem execRemoteResponse {hdr : PktHdr} {rsp : Rsp} {s : State} :
    Answers s (Machine.execRemoteResponse hdr rsp s) := by
  unfold Machine.execRemoteResponse
  try dsimp only
  repeat' first
    | with_reducible first
      | apply Keeps.ans | apply Keeps.ansIte | exact Keeps.refl _ | apply Keeps.ite | apply Keeps.dropPending
      | apply Keeps.endRemote | apply Keeps.forward | apply Keeps.pumpFences | rfl
    | intro _ | split

theorem execFabricTimeout {tag : Nat} {s : State} : Answers s (Machine.execFabricTimeout tag s) := by
  unfold Machine.execFabricTimeout
  try dsimp only
  repeat' first
    | with_reducible first
      | apply Keeps.ans | apply Keeps.ansIte | exact Keeps.refl _ | apply Keeps.addSat | apply Keeps.dropPending
      | apply Keeps.endRemote | apply Keeps.pumpFences | apply Keeps.raise | rfl
    | intro _ | split

theorem execPathChangeRelease {dest : Nat} {s : State} : Answers s (Machine.execPathChangeRelease dest s) := by
  unfold Machine.execPathChangeRelease
  try dsimp only
  repeat' first
    | with_reducible first
      | apply Keeps.ans | apply Keeps.ansIte | exact Keeps.refl _ | apply Keeps.ite | apply Keeps.dropPending
      | apply Keeps.endRemote | apply Keeps.foldl | apply Keeps.pumpFences | apply Keeps.sendPacket
      | apply Keeps.foldSnd | apply Keeps.foldSnd2 | rfl
    | intro _ | split | with_reducible apply Keeps.lit

theorem noteRemote {s0 : State} {g : DWord} {len : Nat} {s : State}
    (ke : Keeps s0 s) : Keeps s0 (Machine.noteRemote g len s) := by
  unfold Machine.noteRemote
  try dsimp only
  repeat' first
    | with_reducible first
      | exact ke | exact Keeps.refl _ | apply Keeps.ite | apply Keeps.noteWrote | rfl
    | intro _ | split

theorem execRemoteRequest {hdr : PktHdr} {who : RemoteWho} {g : DWord} {op : TierOp} {s : State} :
    Answers s (Machine.execRemoteRequest hdr who g op s) := by
  unfold Machine.execRemoteRequest
  try dsimp only
  repeat' first
    | with_reducible first
      | apply Keeps.ans | apply Keeps.ansIte | exact Keeps.refl _ | apply Keeps.ite | apply Keeps.denySlice
      | apply Keeps.forward | apply Keeps.present

theorem remoteEnded {s0 : State} {hdr : PktHdr} {req : AccessReq} {code : Nat} {data : List Byte} {s : State}
    (ke : Keeps s0 s) : Keeps s0 (Machine.remoteEnded hdr req code data s) := by
  unfold Machine.remoteEnded
  try dsimp only
  repeat' first
    | with_reducible first
      | exact ke | exact Keeps.refl _ | apply Keeps.ite | apply Keeps.noteRemote | apply Keeps.respond | rfl
    | intro _ | split

theorem execQueueOpen {hdr : PktHdr} {x y q : Nat} {s : State} : Answers s (Machine.execQueueOpen hdr x y q s) := by
  unfold Machine.execQueueOpen
  try dsimp only
  repeat' first
    | with_reducible first
      | apply Keeps.ans | apply Keeps.ansIte | exact Keeps.refl _ | apply Keeps.ite | apply Keeps.denySlice
      | apply Keeps.forward | apply Keeps.raiseFault | apply Keeps.respond | apply Keeps.respondCode
      | apply Keeps.setPod

theorem execQueueGrant {hdr : PktHdr} {credits : Nat} {s : State} :
    Answers s (Machine.execQueueGrant hdr credits s) := by
  unfold Machine.execQueueGrant
  try dsimp only
  repeat' first
    | with_reducible first
      | apply Keeps.ans | apply Keeps.ansIte | exact Keeps.refl _ | apply Keeps.ite | apply Keeps.dropPending
      | apply Keeps.forward | apply Keeps.routePump | apply Keeps.setPod | rfl
    | intro _ | split

theorem execQueueEntry {hdr : PktHdr} {x y q : Nat} {data : BitVec 512} {s : State} :
    Answers s (Machine.execQueueEntry hdr x y q data s) := by
  unfold Machine.execQueueEntry
  try dsimp only
  repeat' first
    | with_reducible first
      | apply Keeps.ans | apply Keeps.ansIte | exact Keeps.refl _ | apply Keeps.ite | apply Keeps.acceptEntry
      | apply Keeps.denySlice | apply Keeps.forward | apply Keeps.raiseFault | apply Keeps.respond
      | apply Keeps.respondCode | rfl
    | intro _ | split

theorem execQueueCredit {hdr : PktHdr} {pod route credits : Nat} {s : State} :
    Answers s (Machine.execQueueCredit hdr pod route credits s) := by
  unfold Machine.execQueueCredit
  try dsimp only
  repeat' first
    | with_reducible first
      | apply Keeps.ans | apply Keeps.ansIte | exact Keeps.refl _ | apply Keeps.ite | apply Keeps.denySlice
      | apply Keeps.forward | apply Keeps.respondCode | apply Keeps.routePump | apply Keeps.setPod

theorem stepForward {s0 : State} {n : Nat} {s : State} (ke : Keeps s0 s) : Keeps s0 (Machine.stepForward n s) := by
  unfold Machine.stepForward
  try dsimp only
  repeat' first
    | with_reducible first
      | exact ke | exact Keeps.refl _ | apply Keeps.advanceTo

theorem applyOffset {s0 : State} {q : Int} {s : State} (ke : Keeps s0 s) : Keeps s0 (Machine.applyOffset q s) := by
  unfold Machine.applyOffset
  try dsimp only
  repeat' first
    | with_reducible first
      | exact ke | exact Keeps.refl _ | apply Keeps.ite | apply Keeps.fabricTrace | apply Keeps.fresh
      | apply Keeps.raise | apply Keeps.stepForward | apply Keeps.syncFrame | apply Keeps.wr | apply Keeps.wr32

theorem execTimestampExchange {x : TimeExchange} {s : State} : Answers s (Machine.execTimestampExchange x s) := by
  unfold Machine.execTimestampExchange
  try dsimp only
  repeat' first
    | with_reducible first
      | apply Keeps.ans | apply Keeps.ansIte | exact Keeps.refl _ | apply Keeps.ite | apply Keeps.applyOffset
      | apply Keeps.askTime | apply Keeps.finishRuns

theorem execCounterSync {ring : Nat} {s : State} : Answers s (Machine.execCounterSync ring s) := by
  unfold Machine.execCounterSync
  try dsimp only
  repeat' first
    | apply Keeps.hostCmd
    | with_reducible first
      | apply Keeps.ans | apply Keeps.ansIte | exact Keeps.refl _ | apply Keeps.ite | apply Keeps.askTime
      | apply Keeps.done | apply Keeps.hostCommand | apply Keeps.startRun | apply Keeps.wr | rfl
    | intro _

/-! ### Access -/

theorem sendAway {s0 : State} {d : Nat} {req : AccessReq} {s : State}
    (ke : Keeps s0 s) : Keeps s0 (Machine.sendAway d req s) := by
  unfold Machine.sendAway
  try dsimp only
  repeat' first
    | with_reducible first
      | exact ke | exact Keeps.refl _ | apply Keeps.ite | apply Keeps.sendRequest | rfl
    | intro _ | split | with_reducible apply Keeps.lit

theorem execTierAccess {src : AccessSrc} {s : State} : Answers s (Machine.execTierAccess src s) := by
  unfold Machine.execTierAccess
  try dsimp only
  repeat' first
    | with_reducible first
      | apply Keeps.ans | apply Keeps.ansIte | exact Keeps.refl _ | apply Keeps.ite | apply Keeps.present
      | apply Keeps.sendAway | rfl
    | intro _ | split | with_reducible apply Keeps.lit

theorem answerTo {s0 : State} {a : Access} {code at_ : Nat} {addr : DWord} {data : List Byte} {s : State}
    (ke : Keeps s0 s) : Keeps s0 (Machine.answerTo a code at_ addr data s) := by
  unfold Machine.answerTo
  try dsimp only
  repeat' first
    | with_reducible first
      | exact ke | exact Keeps.refl _ | apply Keeps.accessDone | apply Keeps.channelEnded | apply Keeps.cxlEnded
      | apply Keeps.remoteEnded | rfl
    | intro _ | split | with_reducible apply Keeps.lit

theorem endAccess {s0 : State} {a : Access} {code at_ : Nat} {addr : DWord} {data : List Byte} {s : State}
    (ke : Keeps s0 s) : Keeps s0 (Machine.endAccess a code at_ addr data s) := by
  unfold Machine.endAccess
  try dsimp only
  repeat' first
    | with_reducible first
      | exact ke | exact Keeps.refl _ | apply Keeps.answerTo | apply Keeps.pumpFences | rfl
    | intro _ | split | with_reducible apply Keeps.lit

theorem answerOf {s0 : State} {a : Access} {s : State} (ke : Keeps s0 s) : Keeps s0 (Machine.answerOf a s).1.s := by
  unfold Machine.answerOf
  try dsimp only
  repeat' first
    | with_reducible first
      | exact ke | exact Keeps.refl _ | apply Keeps.answer | apply Keeps.noteHeat | apply Keeps.storeItem | rfl
    | intro _ | split

theorem finishAccess {s0 : State} {a : Access} {s : State} (ke : Keeps s0 s) : Keeps s0 (Machine.finishAccess a s) := by
  unfold Machine.finishAccess
  try dsimp only
  repeat' first
    | with_reducible first
      | exact ke | exact Keeps.refl _ | apply Keeps.answerOf | apply Keeps.endAccess

theorem execTierAccessEnd {id : Nat} {s : State} : Answers s (Machine.execTierAccessEnd id s) := by
  unfold Machine.execTierAccessEnd
  try dsimp only
  repeat' first
    | with_reducible first
      | apply Keeps.ans | apply Keeps.ansIte | exact Keeps.refl _ | apply Keeps.ite | apply Keeps.finishAccess
      | apply Keeps.recover | rfl
    | intro _ | split | with_reducible apply Keeps.lit

theorem endUnrecovered {s0 : State} {a : Access} {dT : Bool} {g : Nat} {s : State}
    (ke : Keeps s0 s) : Keeps s0 (Machine.endUnrecovered a dT g s) := by
  unfold Machine.endUnrecovered
  try dsimp only
  repeat' first
    | with_reducible first
      | exact ke | exact Keeps.refl _ | apply Keeps.ite | apply Keeps.answerOf | apply Keeps.endAccess

theorem execRecoveryComplete {id : Nat} {ok : Bool} {s : State} : Answers s (Machine.execRecoveryComplete id ok s) := by
  unfold Machine.execRecoveryComplete
  try dsimp only
  repeat' first
    | with_reducible first
      | apply Keeps.ans | apply Keeps.ansIte | exact Keeps.refl _ | apply Keeps.ite | apply Keeps.endUnrecovered
      | apply Keeps.finishAccess | apply Keeps.readGranule | apply Keeps.recover
      | refine Keeps.sndEq ?_ (by assumption) | rfl
    | intro _ | split

theorem execAccessDeadlineExpiry {due : DueAccess} {s : State} :
    Answers s (Machine.execAccessDeadlineExpiry due s) := by
  unfold Machine.execAccessDeadlineExpiry
  try dsimp only
  repeat' first
    | with_reducible first
      | apply Keeps.ans | apply Keeps.ansIte | exact Keeps.refl _ | apply Keeps.ite | apply Keeps.endAccess
      | apply Keeps.lateAnswer | apply Keeps.recover | rfl
    | intro _ | split | with_reducible apply Keeps.lit

theorem backGrant {s0 : State} {dTier : Bool} {g service : Nat} {s : State}
    (ke : Keeps s0 s) : Keeps s0 (Machine.backGrant dTier g service s) := by
  unfold Machine.backGrant
  try dsimp only
  repeat' first
    | with_reducible first
      | exact ke | exact Keeps.refl _ | apply Keeps.endBlocks | apply Keeps.noteGrant

theorem execCeWriteback {place : GranuleAt} {service : Nat} {s : State} :
    Answers s (Machine.execCeWriteback place service s) := by
  unfold Machine.execCeWriteback
  try dsimp only
  repeat' first
    | with_reducible first
      | apply Keeps.ans | apply Keeps.ansIte | exact Keeps.refl _ | apply Keeps.ite | apply Keeps.backGrant
      | apply Keeps.place | apply Keeps.setBadSyms | rfl
    | intro _ | split | with_reducible apply Keeps.lit

theorem execPerBankRefresh {dTier : Bool} {unit bank : Nat} {s : State} :
    Answers s (Machine.execPerBankRefresh dTier unit bank s) := by
  unfold Machine.execPerBankRefresh
  try dsimp only
  repeat' first
    | with_reducible first
      | apply Keeps.ans | apply Keeps.ansIte | exact Keeps.refl _ | apply Keeps.ite | apply Keeps.noteMaint | rfl
    | intro _ | split | with_reducible apply Keeps.lit

theorem execScrubRead {place : GranuleAt} {service : Nat} {s : State} :
    Answers s (Machine.execScrubRead place service s) := by
  unfold Machine.execScrubRead
  try dsimp only
  repeat' first
    | with_reducible first
      | apply Keeps.ans | apply Keeps.ansIte | exact Keeps.refl _ | apply Keeps.ite | apply Keeps.addSat
      | apply Keeps.backGrant | apply Keeps.place | apply Keeps.readGranule

/-! ### Twin -/

theorem releaseSteps {s0 : State} {s : State} (ke : Keeps s0 s) : Keeps s0 (Machine.releaseSteps s) := by
  unfold Machine.releaseSteps
  try dsimp only
  repeat' first
    | with_reducible first
      | exact ke | exact Keeps.refl _ | apply Keeps.ite | apply Keeps.commitStep | apply Keeps.foldl
      | apply Keeps.step | apply Keeps.foldSnd | apply Keeps.foldSnd2 | rfl
    | intro _ | split

theorem failArm {s0 : State} {r : Running} {status detail : Nat} {s : State}
    (ke : Keeps s0 s) : Keeps s0 (Machine.failArm r status detail s) := by
  unfold Machine.failArm
  try dsimp only
  repeat' first
    | with_reducible first
      | exact ke | exact Keeps.refl _ | apply Keeps.ite | apply Keeps.finishRun | apply Keeps.wr

theorem dropMirror {s0 : State} {s : State} (ke : Keeps s0 s) : Keeps s0 (Machine.dropMirror s) := by
  unfold Machine.dropMirror
  try dsimp only
  repeat' first
    | with_reducible first
      | exact ke | exact Keeps.refl _ | apply Keeps.foldl | apply Keeps.refreshLag | apply Keeps.setPort
      | apply Keeps.foldSnd | apply Keeps.foldSnd2 | rfl
    | intro _

theorem pairUp {s0 : State} {r : Running} {active : Bool} {p : Bool × Bool × Nat × Nat} {s : State}
    (ke : Keeps s0 s) : Keeps s0 (Machine.pairUp r active p s) := by
  unfold Machine.pairUp
  try dsimp only
  repeat' first
    | with_reducible first
      | exact ke | exact Keeps.refl _ | apply Keeps.ite | apply Keeps.dropMirror | apply Keeps.failArm
      | apply Keeps.finishRun | apply Keeps.sendSnapshot | apply Keeps.setRun | apply Keeps.setTwa | apply Keeps.wr
      | apply Keeps.wr64 | rfl
    | intro _ | split | with_reducible apply Keeps.lit

theorem dropMirrored {s0 : State} {s : State} (ke : Keeps s0 s) : Keeps s0 (Machine.dropMirrored s) := by
  unfold Machine.dropMirrored
  try dsimp only
  repeat' first
    | with_reducible first
      | exact ke | exact Keeps.refl _ | apply Keeps.foldl | apply Keeps.refreshLive | apply Keeps.releaseKv
      | apply Keeps.setRequest | apply Keeps.foldSnd | apply Keeps.foldSnd2 | rfl
    | intro _

theorem disarm {s0 : State} {tell : Bool} {s : State} (ke : Keeps s0 s) : Keeps s0 (Machine.disarm tell s) := by
  unfold Machine.disarm
  try dsimp only
  repeat' first
    | with_reducible first
      | exact ke | exact Keeps.refl _ | apply Keeps.ite | apply Keeps.dropMirrored | apply Keeps.finishRun
      | apply Keeps.foldl | apply Keeps.releaseSteps | apply Keeps.sendTwin | apply Keeps.setTwa | apply Keeps.wr
      | apply Keeps.foldSnd | apply Keeps.foldSnd2 | rfl
    | intro _ | split | with_reducible apply Keeps.lit

theorem execTwinArm {ring : Nat} {s : State} : Answers s (Machine.execTwinArm ring s) := by
  unfold Machine.execTwinArm
  try dsimp only
  repeat' first
    | apply Keeps.hostCmd
    | with_reducible first
      | apply Keeps.ans | apply Keeps.ansIte | exact Keeps.refl _ | apply Keeps.ite | apply Keeps.disarm
      | apply Keeps.done | apply Keeps.hostCommand | apply Keeps.pairUp | apply Keeps.sendTwin | apply Keeps.startRun
      | apply Keeps.wr | rfl
    | intro _ | split

theorem execComplementaryArm {action : ArmAction} {role : Bool} {ifMajor ifMinor : Nat} {s : State} :
    Answers s (Machine.execComplementaryArm action role ifMajor ifMinor s) := by
  unfold Machine.execComplementaryArm
  try dsimp only
  repeat' first
    | with_reducible first
      | apply Keeps.ans | apply Keeps.ansIte | exact Keeps.refl _ | apply Keeps.ite | apply Keeps.disarm
      | apply Keeps.pairUp | rfl
    | intro _ | split | with_reducible apply Keeps.lit

theorem execTwinArmTimeout {s : State} : Answers s (Machine.execTwinArmTimeout s) := by
  unfold Machine.execTwinArmTimeout
  try dsimp only
  repeat' first
    | with_reducible first
      | apply Keeps.ans | apply Keeps.ansIte | exact Keeps.refl _ | apply Keeps.failArm | rfl
    | intro _ | split | with_reducible apply Keeps.lit

theorem unplace {s0 : State} {h : Nat} {t : Tensor} {s : State}
    (ke : Keeps s0 s) : Keeps s0 (Machine.unplace h t s) := by
  unfold Machine.unplace
  try dsimp only
  repeat' first
    | with_reducible first
      | exact ke | exact Keeps.refl _ | apply Keeps.ite | apply Keeps.clearDirty | apply Keeps.freeRuns
      | apply Keeps.setMoves

theorem place {s0 : State} {h : Nat} {t : Tensor} {s : State} (ke : Keeps s0 s) : Keeps s0 (Machine.place h t s) := by
  unfold Machine.place
  try dsimp only
  repeat' first
    | with_reducible first
      | exact ke | exact Keeps.refl _ | apply Keeps.ite | apply Keeps.copyStage | apply Keeps.copyUp
      | apply Keeps.freeTensor | apply Keeps.setTensor | apply Keeps.takeRun

theorem mirrorHull {s0 : State} {h : Nat} {entry : BitVec 512} {pkg : Nat} {hs saves : List Nat} {s : State}
    (ke : Keeps s0 s) : Keeps s0 (Machine.mirrorHull h entry pkg hs saves s) := by
  unfold Machine.mirrorHull
  try dsimp only
  repeat' first
    | with_reducible first
      | exact ke | exact Keeps.refl _ | apply Keeps.ite | apply Keeps.advanceHull | apply Keeps.fillRequests
      | apply Keeps.foldl | apply Keeps.hullDevices | apply Keeps.powerPods | apply Keeps.refreshHeat
      | apply Keeps.releaseMirror | apply Keeps.setHull | apply Keeps.startRun | apply Keeps.takeRun
      | apply Keeps.foldSnd | apply Keeps.foldSnd2 | refine Keeps.sndEq ?_ (by assumption) | rfl
    | intro _ | split
    | with_reducible first
      | apply Keeps.litFree | apply Keeps.lit

theorem applyHull {s0 : State} {h : Nat} {live : Bool} {entry : BitVec 512} {pkg : Nat} {hs saves : List Nat} {s : State} (ke : Keeps s0 s) : Keeps s0 (Machine.applyHull h live entry pkg hs saves s) := by
  unfold Machine.applyHull
  try dsimp only
  repeat' first
    | with_reducible first
      | exact ke | exact Keeps.refl _ | apply Keeps.ite | apply Keeps.mirrorHull | apply Keeps.releaseMirror

theorem applyRequest {s0 : State} {i ring fn : Nat} {entry : BitVec 512} {state progress : Nat} {step : DWord} {steps lastTok prefilled kvN kvD : Nat} {s : State} (ke : Keeps s0 s) : Keeps s0 (Machine.applyRequest i ring fn entry state progress step steps lastTok prefilled kvN kvD s) := by
  unfold Machine.applyRequest
  try dsimp only
  repeat' first
    | with_reducible first
      | exact ke | exact Keeps.refl _ | apply Keeps.ite | apply Keeps.progress | apply Keeps.setRequest
      | apply Keeps.step | rfl
    | intro _ | split | with_reducible apply Keeps.lit

theorem applyCompletion {s0 : State} {ring slot : Nat} {raw : BitVec 256} {s : State}
    (ke : Keeps s0 s) : Keeps s0 (Machine.applyCompletion ring slot raw s) := by
  unfold Machine.applyCompletion
  try dsimp only
  repeat' first
    | with_reducible first
      | exact ke | exact Keeps.refl _ | apply Keeps.setRequest | rfl
    | intro _ | split | with_reducible apply Keeps.lit

theorem mirrorShell {s0 : State} {h : Nat} {x : Nat × Nat × Nat} {s : State}
    (ke : Keeps s0 s) : Keeps s0 (Machine.mirrorShell h x s) := by
  unfold Machine.mirrorShell
  try dsimp only
  repeat' first
    | with_reducible first
      | exact ke | exact Keeps.refl _ | apply Keeps.ite | apply Keeps.applyShell | apply Keeps.setHull

theorem applyGranule {s0 : State} {g : DWord} {data : List Byte} {s : State}
    (ke : Keeps s0 s) : Keeps s0 (Machine.applyGranule g data s) := by
  unfold Machine.applyGranule
  try dsimp only
  repeat' first
    | with_reducible first
      | exact ke | exact Keeps.refl _ | apply Keeps.ite | apply Keeps.storeBytes

theorem recountKv {s0 : State} {s : State} (ke : Keeps s0 s) : Keeps s0 (Machine.recountKv s) := by
  unfold Machine.recountKv
  try dsimp only
  repeat' first
    | with_reducible first
      | exact ke | exact Keeps.refl _ | apply Keeps.foldl | apply Keeps.setHull | apply Keeps.foldSnd
      | apply Keeps.foldSnd2 | rfl
    | intro _

theorem applyRec {s0 : State} {s : State} {r : MirrorRec} (ke : Keeps s0 s) : Keeps s0 (Machine.applyRec s r) := by
  unfold Machine.applyRec
  split
  · exact ke
  · exact ke
  · dsimp only
    exact ite (ke.setSlot _ _) (ke.setSlot _ _)
  · exact setCycEntry ke
  · exact refreshCycSlots (ke.wr _ _)
  · exact applyRequest ke
  · exact lit ke rfl rfl rfl
  · exact applyCompletion ke
  · exact lit ke rfl rfl rfl
  · exact applyHull ke
  · exact mirrorShell ke

theorem applyGranules {s0 : State} {body : List MirrorRec} {s : State}
    (ke : Keeps s0 s) : Keeps s0 (Machine.applyGranules body s) := by
  unfold Machine.applyGranules
  try dsimp only
  repeat' first
    | with_reducible first
      | exact ke | exact Keeps.refl _ | apply Keeps.applyGranule | apply Keeps.foldl | apply Keeps.foldSnd
      | apply Keeps.foldSnd2 | rfl
    | intro _ | split

theorem applyBody {s0 : State} {body : List MirrorRec} {s : State}
    (ke : Keeps s0 s) : Keeps s0 (Machine.applyBody body s) := by
  unfold Machine.applyBody
  try dsimp only
  repeat' first
    | with_reducible first
      | exact ke | exact Keeps.refl _ | apply Keeps.applyGranules | apply Keeps.applyRec | apply Keeps.foldl
      | apply Keeps.place | apply Keeps.recountKv | apply Keeps.refreshHeat | apply Keeps.refreshLive
      | apply Keeps.unplace | apply Keeps.foldSnd | apply Keeps.foldSnd2 | rfl
    | intro _

theorem clearMirror {s0 : State} {body : List MirrorRec} {s : State}
    (ke : Keeps s0 s) : Keeps s0 (Machine.clearMirror body s) := by
  unfold Machine.clearMirror
  try dsimp only
  repeat' first
    | with_reducible first
      | exact ke | exact Keeps.refl _ | apply Keeps.ite | apply Keeps.foldl | apply Keeps.freeTensor
      | apply Keeps.releaseMirror | apply Keeps.foldSnd | apply Keeps.foldSnd2 | rfl
    | intro _ | split | with_reducible apply Keeps.lit

theorem applyEpoch {s0 : State} {e : Staged} {s : State} (ke : Keeps s0 s) : Keeps s0 (Machine.applyEpoch e s) := by
  unfold Machine.applyEpoch
  try dsimp only
  repeat' first
    | with_reducible first
      | exact ke | exact Keeps.refl _ | apply Keeps.ite | apply Keeps.applyBody | apply Keeps.clearMirror
      | apply Keeps.setHull | apply Keeps.step | apply Keeps.wr64

theorem applyMarked {s0 : State} {n : Nat} {s : State} (ke : Keeps s0 s) : Keeps s0 (Machine.applyMarked n s) := by
  induction n generalizing s with
  | zero => exact ke
  | succ n ih =>
    unfold Machine.applyMarked
    split
    · split
      · exact ih (applyEpoch (lit ke rfl rfl rfl))
      · exact ke
    · exact ke

theorem askSnapshot {s0 : State} {epoch cause : Nat} {s : State}
    (ke : Keeps s0 s) : Keeps s0 (Machine.askSnapshot epoch cause s) := by
  unfold Machine.askSnapshot
  try dsimp only
  repeat' first
    | with_reducible first
      | exact ke | exact Keeps.refl _ | apply Keeps.sendTwin | apply Keeps.twinResync | apply Keeps.wr | rfl
    | intro _ | split | with_reducible apply Keeps.lit

theorem execEpochReceive {hdr : EpochHdr} {body : List MirrorRec} {s : State} :
    Answers s (Machine.execEpochReceive hdr body s) := by
  unfold Machine.execEpochReceive
  try dsimp only
  repeat' first
    | with_reducible first
      | apply Keeps.ans | apply Keeps.ansIte | exact Keeps.refl _ | apply Keeps.ite | apply Keeps.askSnapshot
      | apply Keeps.wr | rfl
    | intro _ | split | with_reducible apply Keeps.lit

theorem execEpochMarkerReceive {epoch : Nat} {abort : Bool} {crc : DWord} {s : State} :
    Answers s (Machine.execEpochMarkerReceive epoch abort crc s) := by
  unfold Machine.execEpochMarkerReceive
  try dsimp only
  repeat' first
    | with_reducible first
      | apply Keeps.ans | apply Keeps.ansIte | exact Keeps.refl _ | apply Keeps.ite | apply Keeps.applyMarked
      | apply Keeps.askSnapshot | apply Keeps.sendTwin | rfl
    | intro _ | split | with_reducible apply Keeps.lit

theorem execSnapshotApplied {s : State} : Answers s (Machine.execSnapshotApplied s) := by
  unfold Machine.execSnapshotApplied
  try dsimp only
  repeat' first
    | with_reducible first
      | apply Keeps.ans | apply Keeps.ansIte | exact Keeps.refl _ | apply Keeps.ite | apply Keeps.applyMarked
      | apply Keeps.sendTwin | apply Keeps.wr | rfl
    | intro _ | split | with_reducible apply Keeps.lit

theorem noteWait {s0 : State} {epoch : Nat} {s : State} (ke : Keeps s0 s) : Keeps s0 (Machine.noteWait epoch s) := by
  unfold Machine.noteWait
  try dsimp only
  repeat' first
    | with_reducible first
      | exact ke | exact Keeps.refl _ | apply Keeps.ite | apply Keeps.fresh | apply Keeps.wr32 | rfl
    | intro _ | split | with_reducible apply Keeps.lit

theorem execEpochAckReceive {epoch : Nat} {s : State} : Answers s (Machine.execEpochAckReceive epoch s) := by
  unfold Machine.execEpochAckReceive
  try dsimp only
  repeat' first
    | with_reducible first
      | apply Keeps.ans | apply Keeps.ansIte | exact Keeps.refl _ | apply Keeps.ite | apply Keeps.finishRuns
      | apply Keeps.noteWait | apply Keeps.releaseSteps | apply Keeps.wr | apply Keeps.wr64 | rfl
    | intro _ | split | with_reducible apply Keeps.lit

theorem execNewSnapshotRequest {epoch cause : Nat} {s : State} :
    Answers s (Machine.execNewSnapshotRequest epoch cause s) := by
  unfold Machine.execNewSnapshotRequest
  try dsimp only
  repeat' first
    | with_reducible first
      | apply Keeps.ans | apply Keeps.ansIte | exact Keeps.refl _ | apply Keeps.ite | apply Keeps.releaseSteps
      | apply Keeps.sendSnapshot | apply Keeps.twinResync

theorem execTwinHeartbeatSend {s : State} : Answers s (Machine.execTwinHeartbeatSend s) := by
  unfold Machine.execTwinHeartbeatSend
  try dsimp only
  repeat' first
    | with_reducible first
      | apply Keeps.ans | apply Keeps.ansIte | exact Keeps.refl _ | apply Keeps.ite | apply Keeps.foldl
      | apply Keeps.sendOn | apply Keeps.foldSnd | apply Keeps.foldSnd2 | rfl
    | intro _

theorem twinPark {s0 : State} {s : State} (ke : Keeps s0 s) : Keeps s0 (Machine.twinPark s) := by
  unfold Machine.twinPark
  try dsimp only
  repeat' first
    | with_reducible first
      | exact ke | exact Keeps.refl _ | apply Keeps.parkDevice | apply Keeps.setTwa | apply Keeps.wr | rfl
    | intro _ | split | with_reducible apply Keeps.lit

theorem resumeRing {s0 : State} {s : State} {x : Nat × Option MirrorRec}
    (ke : Keeps s0 s) : Keeps s0 (Machine.resumeRing s x) := by
  unfold Machine.resumeRing
  try dsimp only
  repeat' first
    | with_reducible first
      | exact ke | exact Keeps.refl _ | apply Keeps.setRingAux | apply Keeps.wr | apply Keeps.wr32 | apply Keeps.wr64
      | apply Keeps.wrB | rfl
    | intro _ | split

theorem rewriteSlot {s0 : State} {s : State} {x : Nat × BitVec 256}
    (ke : Keeps s0 s) : Keeps s0 (Machine.rewriteSlot s x) := by
  unfold Machine.rewriteSlot
  try dsimp only
  repeat' first
    | with_reducible first
      | exact ke | exact Keeps.refl _ | apply Keeps.emit

theorem takeRings {s0 : State} {s : State} (ke : Keeps s0 s) : Keeps s0 (Machine.takeRings s) := by
  unfold Machine.takeRings
  try dsimp only
  repeat' first
    | with_reducible first
      | exact ke | exact Keeps.refl _ | apply Keeps.foldl | apply Keeps.resumeRing | apply Keeps.rewriteSlot
      | apply Keeps.signalMsi | apply Keeps.foldSnd | apply Keeps.foldSnd2 | rfl
    | intro _

theorem freshHull {s0 : State} {h : Nat} {s : State} (ke : Keeps s0 s) : Keeps s0 (Machine.freshHull h s) := by
  unfold Machine.freshHull
  extract_lets hl ps _sv a
  have ka : Keeps s0 a := lit ke rfl rfl rfl
  refine checkActive (foldl (fun u x => ?_) _ ka)
  extract_lets others b c
  have kb : Keeps u b := foldl (fun _ _ => (refl _).setTile _ _) _ (refl u)
  exact foldl (fun v _ => ite ((refl v).wr _ _) (refl v)) _ (startShells kb)

theorem markReplayed {s0 : State} {e : Staged} {s : State} (ke : Keeps s0 s) : Keeps s0 (Machine.markReplayed e s) := by
  unfold Machine.markReplayed
  try dsimp only
  repeat' first
    | with_reducible first
      | exact ke | exact Keeps.refl _ | apply Keeps.ite | apply Keeps.foldl | apply Keeps.setRequest
      | apply Keeps.foldSnd | apply Keeps.foldSnd2 | rfl
    | intro _

theorem answerFor {s0 : State} {s : State} (ke : Keeps s0 s) : Keeps s0 (Machine.answerFor s) := by
  unfold Machine.answerFor
  try dsimp only
  repeat' first
    | with_reducible first
      | exact ke | exact Keeps.refl _ | apply Keeps.linksChanged | apply Keeps.wr | rfl
    | intro _ | split

theorem takeover {s0 : State} {s : State} (ke : Keeps s0 s) : Keeps s0 (Machine.takeover s) := by
  unfold Machine.takeover
  try dsimp only
  repeat' first
    | with_reducible first
      | exact ke | exact Keeps.refl _ | apply Keeps.ite | apply Keeps.addSat | apply Keeps.answerFor
      | apply Keeps.applyMarked | apply Keeps.dmaOut | apply Keeps.foldl | apply Keeps.formAll | apply Keeps.freshHull
      | apply Keeps.markReplayed | apply Keeps.noteCause | apply Keeps.raise | apply Keeps.recordEvent
      | apply Keeps.sendTwin | apply Keeps.setTwa | apply Keeps.takeRings | apply Keeps.twinPark | apply Keeps.wr
      | apply Keeps.foldSnd | apply Keeps.foldSnd2 | rfl
    | intro _ | split | with_reducible apply Keeps.lit

theorem loseTwin {s0 : State} {s : State} (ke : Keeps s0 s) : Keeps s0 (Machine.loseTwin s) := by
  unfold Machine.loseTwin
  try dsimp only
  repeat' first
    | with_reducible first
      | exact ke | exact Keeps.refl _ | apply Keeps.finishRuns | apply Keeps.raise | apply Keeps.recordEvent
      | apply Keeps.releaseSteps | apply Keeps.wr

theorem execTwinHeartbeatTimeout {s : State} : Answers s (Machine.execTwinHeartbeatTimeout s) := by
  unfold Machine.execTwinHeartbeatTimeout
  try dsimp only
  repeat' first
    | with_reducible first
      | apply Keeps.ans | apply Keeps.ansIte | exact Keeps.refl _ | apply Keeps.ite | apply Keeps.loseTwin
      | apply Keeps.takeover | apply Keeps.twinPark

theorem execTakingOverAnnounce {s : State} : Answers s (Machine.execTakingOverAnnounce s) := by
  unfold Machine.execTakingOverAnnounce
  try dsimp only
  repeat' first
    | with_reducible first
      | apply Keeps.ans | apply Keeps.ansIte | exact Keeps.refl _ | apply Keeps.ite | apply Keeps.twinPark | rfl
    | intro _ | split | with_reducible apply Keeps.lit

theorem execTwaFault {code : Nat} {s : State} : Answers s (Machine.execTwaFault code s) := by
  unfold Machine.execTwaFault
  try dsimp only
  repeat' first
    | with_reducible first
      | apply Keeps.ans | apply Keeps.ansIte | exact Keeps.refl _ | apply Keeps.ite | apply Keeps.raise | rfl
    | intro _ | split | with_reducible apply Keeps.lit

theorem execTwinSwitch {ring : Nat} {s : State} : Answers s (Machine.execTwinSwitch ring s) := by
  unfold Machine.execTwinSwitch
  try dsimp only
  repeat' first
    | apply Keeps.hostCmd
    | with_reducible first
      | apply Keeps.ans | apply Keeps.ansIte | exact Keeps.refl _ | apply Keeps.ite | apply Keeps.beginHalt
      | apply Keeps.beginQuiesce | apply Keeps.done | apply Keeps.finishSwitch | apply Keeps.foldl
      | apply Keeps.hostCommand | apply Keeps.startRun | apply Keeps.foldSnd | apply Keeps.foldSnd2 | rfl
    | intro _

theorem restoreBlocks {s0 : State} {s : State} {x : Nat × List (Nat × List Byte)}
    (ke : Keeps s0 s) : Keeps s0 (Machine.restoreBlocks s x) := by
  unfold Machine.restoreBlocks
  try dsimp only
  repeat' first
    | with_reducible first
      | exact ke | exact Keeps.refl _ | apply Keeps.ite | apply Keeps.foldl | apply Keeps.resumeHull
      | apply Keeps.scanIn | apply Keeps.setHull | apply Keeps.setPods | apply Keeps.storeBytes | apply Keeps.getD
      | apply Keeps.foldSnd | apply Keeps.foldSnd2 | rfl
    | intro _

theorem execTwinSwitchSaveBlocks {blocks : List (Nat × List (Nat × List Byte))} {s : State} :
    Answers s (Machine.execTwinSwitchSaveBlocks blocks s) := by
  unfold Machine.execTwinSwitchSaveBlocks
  try dsimp only
  repeat' first
    | with_reducible first
      | apply Keeps.ans | apply Keeps.ansIte | exact Keeps.refl _ | apply Keeps.ite | apply Keeps.applyMarked
      | apply Keeps.foldl | apply Keeps.formAll | apply Keeps.restoreBlocks | apply Keeps.setTwa
      | apply Keeps.takeRings | apply Keeps.wr | apply Keeps.wr64 | apply Keeps.foldSnd | apply Keeps.foldSnd2 | rfl
    | intro _ | split | with_reducible apply Keeps.lit

theorem execHullPeerLoss {dev : Nat} {s : State} : Answers s (Machine.execHullPeerLoss dev s) := by
  unfold Machine.execHullPeerLoss
  try dsimp only
  repeat' first
    | with_reducible first
      | apply Keeps.ans | apply Keeps.ansIte | exact Keeps.refl _ | apply Keeps.ite | apply Keeps.commandEpoch
      | apply Keeps.failRequest | apply Keeps.finishRuns | apply Keeps.foldl | apply Keeps.foreignFault
      | apply Keeps.fresh | apply Keeps.foldSnd | apply Keeps.foldSnd2 | rfl
    | intro _

/-! ### Boot -/

theorem clearDevice {s0 : State} {cause : Nat} {s : State}
    (ke : Keeps s0 s) : Keeps s0 (Machine.clearDevice cause s) := by
  unfold Machine.clearDevice
  refine litTier ke (fun _ => wf_nil) (fun _ => wf_nil) rfl

theorem driveAlert {s0 : State} {s : State} (ke : Keeps s0 s) : Keeps s0 (Machine.driveAlert s) := by
  unfold Machine.driveAlert
  try dsimp only
  repeat' first
    | with_reducible first
      | exact ke | exact Keeps.refl _ | apply Keeps.ite | apply Keeps.emit | rfl
    | intro _ | split | with_reducible apply Keeps.lit

theorem enterPhase {s0 : State} {n done : Nat} {s : State}
    (ke : Keeps s0 s) : Keeps s0 (Machine.enterPhase n done s) := by
  unfold Machine.enterPhase
  try dsimp only
  repeat' first
    | with_reducible first
      | exact ke | exact Keeps.refl _ | apply Keeps.done | apply Keeps.trace | apply Keeps.wr | rfl
    | intro _ | split | with_reducible apply Keeps.lit

/-- A reset from a power-on starts from a counter of 0, every other from the counter as it stands. -/
theorem resetAny {s0 : State} {cause : Nat} {s : State}
    (ke : Keeps s0 { s with counter := if cause = CAUSE_POWER_ON then 0 else s.counter }) :
    Keeps s0 (Machine.resetDevice cause s) := by
  unfold Machine.resetDevice
  extract_lets time low a now _q _p b c d e f
  have ka : Keeps s0 { a with counter := now } :=
    clearDevice (cause := cause) ke
  have kb : Keeps s0 b := of_eq ka rfl rfl rfl rfl
  have kc : Keeps s0 c := (kb.wr _ _).addSat _ _
  have kd : Keeps s0 d := ite (kc.raise _ _) kc
  have ke : Keeps s0 e := ite (kd.raise _ _) kd
  have kf : Keeps s0 f := ite (ke.wr _ _) ke
  exact driveAlert (setTwa (clearDue (syncFrame kf)))

theorem resetDevice {s0 : State} {cause : Nat} {s : State} (h : cause ≠ CAUSE_POWER_ON) (ke : Keeps s0 s) :
    Keeps s0 (Machine.resetDevice cause s) :=
  resetAny (by rw [if_neg h]; exact ke)

theorem losePower {s0 : State} {s : State} (ke : Keeps s0 s) : Keeps s0 (Machine.losePower s) := by
  unfold Machine.losePower
  extract_lets a _p _b _t b c
  have ka : Keeps s0 a := clearDevice ke
  have kb : Keeps s0 b := lit ka rfl rfl rfl
  have kc : Keeps s0 c := ite (kb.emit _) kb
  exact ite kb ((ite kc (kc.emit _)).emit _)

theorem wipeTier {s0 : State} {dTier : Bool} {s : State} (ke : Keeps s0 s) : Keeps s0 (Machine.wipeTier dTier s) := by
  unfold Machine.wipeTier
  cases dTier
  · exact litTier ke (fun _ => wf_nil) id rfl
  · exact litTier ke id (fun _ => wf_nil) rfl

theorem registerArchives {s0 s : State} (ke : Keeps s0 s) : Keeps s0 (Machine.registerArchives s) := by
  unfold Machine.registerArchives
  refine foldl (fun u a => foldl (fun v f => ?_) _ (refl u)) _ ke
  split
  · rename_i h; exact registerFTensor_some (refl v) h
  · exact refl v

theorem execInputOutOfRange {s : State} : Answers s (Machine.execInputOutOfRange s) := by
  unfold Machine.execInputOutOfRange
  try dsimp only
  repeat' first
    | with_reducible first
      | apply Keeps.ans | apply Keeps.ansIte | exact Keeps.refl _ | apply Keeps.ite | apply Keeps.losePower

theorem execInputShort {s : State} : Answers s (Machine.execInputShort s) := by
  unfold Machine.execInputShort
  try dsimp only
  repeat' first
    | with_reducible first
      | apply Keeps.ans | apply Keeps.ansIte | exact Keeps.refl _ | apply Keeps.ite | apply Keeps.losePower | rfl
    | intro _ | split | with_reducible apply Keeps.lit

theorem execPerstAssert {s : State} : Answers s (Machine.execPerstAssert s) := by
  unfold Machine.execPerstAssert
  try dsimp only
  repeat' first
    | with_reducible first
      | apply Keeps.ans | apply Keeps.ansIte | exact Keeps.refl _ | apply Keeps.ite | apply Keeps.resetDevice
    | decide

theorem execHotReset {s : State} : Answers s (Machine.execHotReset s) := by
  unfold Machine.execHotReset
  try dsimp only
  repeat' first
    | with_reducible first
      | apply Keeps.ans | apply Keeps.ansIte | exact Keeps.refl _ | apply Keeps.ite | apply Keeps.resetDevice
    | decide

theorem execPcieLinkDown {s : State} : Answers s (Machine.execPcieLinkDown s) := by
  unfold Machine.execPcieLinkDown
  try dsimp only
  repeat' first
    | with_reducible first
      | apply Keeps.ans | apply Keeps.ansIte | exact Keeps.refl _ | apply Keeps.ite | apply Keeps.resetDevice
    | decide

theorem execMgmtWatchdogExpiry {s : State} : Answers s (Machine.execMgmtWatchdogExpiry s) := by
  unfold Machine.execMgmtWatchdogExpiry
  try dsimp only
  repeat' first
    | with_reducible first
      | apply Keeps.ans | apply Keeps.ansIte | exact Keeps.refl _ | apply Keeps.ite | apply Keeps.done
      | apply Keeps.resetDevice
    | decide

theorem execResetReq {s : State} : Answers s (Machine.execResetReq s) := by
  unfold Machine.execResetReq
  try dsimp only
  repeat' first
    | with_reducible first
      | apply Keeps.ans | apply Keeps.ansIte | exact Keeps.refl _ | apply Keeps.ite | apply Keeps.fresh
      | apply Keeps.raise | apply Keeps.resetDevice
    | decide | with_reducible rfl | intro _ | split | with_reducible apply Keeps.lit

theorem execTripRecovery {s : State} : Answers s (Machine.execTripRecovery s) := by
  unfold Machine.execTripRecovery
  try dsimp only
  repeat' first
    | with_reducible first
      | apply Keeps.ans | apply Keeps.ansIte | exact Keeps.refl _ | apply Keeps.ite | apply Keeps.resetDevice
    | decide

theorem setImage {s0 : State} {s : State} {n : Nat} {v : Image}
    (ke : Keeps s0 s) : Keeps s0 (Machine.State.setImage s n v) := by
  unfold Machine.State.setImage
  try dsimp only
  repeat' first
    | with_reducible first
      | exact ke | exact Keeps.refl _ | rfl
    | intro _ | split | with_reducible apply Keeps.lit

theorem flashOn {s0 : State} {s : State} (ke : Keeps s0 s) : Keeps s0 (Machine.flashOn s) := by
  unfold Machine.flashOn
  try dsimp only
  repeat' first
    | with_reducible first
      | exact ke | exact Keeps.refl _ | apply Keeps.wr | rfl
    | intro _ | split | with_reducible apply Keeps.lit

theorem execImageVerify {s : State} : Answers s (Machine.execImageVerify s) := by
  unfold Machine.execImageVerify
  try dsimp only
  repeat' first
    | with_reducible first
      | apply Keeps.ans | apply Keeps.ansIte | exact Keeps.refl _ | apply Keeps.ite | apply Keeps.accrue
      | apply Keeps.done | apply Keeps.enterPhase | apply Keeps.flashOn | apply Keeps.present | apply Keeps.raise
      | apply Keeps.setImage | apply Keeps.traceIn | apply Keeps.wr | apply Keeps.wrB | rfl
    | intro _ | split | with_reducible apply Keeps.lit

theorem execHuskStart {s : State} : Answers s (Machine.execHuskStart s) := by
  unfold Machine.execHuskStart
  try dsimp only
  repeat' first
    | with_reducible first
      | apply Keeps.ans | apply Keeps.ansIte | exact Keeps.refl _ | apply Keeps.ite | apply Keeps.done
      | apply Keeps.enterPhase | apply Keeps.firmwareEvent | apply Keeps.recordEvent | apply Keeps.wr32

theorem clearRestricted {s0 : State} {s : State} (ke : Keeps s0 s) : Keeps s0 (Machine.clearRestricted s) := by
  unfold Machine.clearRestricted
  try dsimp only
  repeat' first
    | with_reducible first
      | exact ke | exact Keeps.refl _ | apply Keeps.wr

theorem finishTransition {s0 : State} {s : State} (ke : Keeps s0 s) : Keeps s0 (Machine.finishTransition s) := by
  unfold Machine.finishTransition
  try dsimp only
  repeat' first
    | with_reducible first
      | exact ke | exact Keeps.refl _ | apply Keeps.ite | apply Keeps.clearRecords | apply Keeps.clearRestricted
      | apply Keeps.cryptoErase | apply Keeps.recordEvent | apply Keeps.traceIn | apply Keeps.wr | rfl
    | intro _ | split | with_reducible apply Keeps.lit

theorem loadInstall {s0 : State} {s : State} (ke : Keeps s0 s) : Keeps s0 (Machine.loadInstall s) := by
  unfold Machine.loadInstall
  try dsimp only
  repeat' first
    | with_reducible first
      | exact ke | exact Keeps.refl _ | apply Keeps.ite | apply Keeps.recompute | apply Keeps.wr | apply Keeps.wr32

theorem reloadRecorder {s0 : State} {s : State} (ke : Keeps s0 s) : Keeps s0 (Machine.reloadRecorder s) := by
  unfold Machine.reloadRecorder
  try dsimp only
  repeat' first
    | with_reducible first
      | exact ke | exact Keeps.refl _ | apply Keeps.ite | apply Keeps.foldl | apply Keeps.recordAt | apply Keeps.wr
      | apply Keeps.wr32 | apply Keeps.wr64 | apply Keeps.wrB | apply Keeps.foldSnd | apply Keeps.foldSnd2 | rfl
    | intro _ | split | with_reducible apply Keeps.lit

theorem execSystemLoad {s : State} : Answers s (Machine.execSystemLoad s) := by
  unfold Machine.execSystemLoad
  try dsimp only
  repeat' first
    | with_reducible first
      | apply Keeps.ans | apply Keeps.ansIte | exact Keeps.refl _ | apply Keeps.ite | apply Keeps.done
      | apply Keeps.enterPhase | apply Keeps.enterPort | apply Keeps.finishTransition | apply Keeps.loadInstall
      | apply Keeps.reloadRecorder | apply Keeps.wantDomain | apply Keeps.wrB

theorem execDramTrain {s : State} : Answers s (Machine.execDramTrain s) := by
  unfold Machine.execDramTrain
  try dsimp only
  repeat' first
    | with_reducible first
      | apply Keeps.ans | apply Keeps.ansIte | exact Keeps.refl _ | apply Keeps.ite | apply Keeps.done
      | apply Keeps.enterPhase | apply Keeps.foldl | apply Keeps.wantDomain | apply Keeps.foldSnd
      | apply Keeps.foldSnd2 | rfl
    | intro _

theorem noteWipe {s0 : State} {n d : Bool} {s : State} (ke : Keeps s0 s) : Keeps s0 (Machine.noteWipe n d s) := by
  unfold Machine.noteWipe
  try dsimp only
  repeat' first
    | with_reducible first
      | exact ke | exact Keeps.refl _ | apply Keeps.ite | apply Keeps.fresh | apply Keeps.wr

theorem wipeCounters {s0 : State} {s : State} (ke : Keeps s0 s) : Keeps s0 (Machine.wipeCounters s) := by
  unfold Machine.wipeCounters
  try dsimp only
  repeat' first
    | with_reducible first
      | exact ke | exact Keeps.refl _ | apply Keeps.foldl | apply Keeps.wr32 | apply Keeps.foldSnd
      | apply Keeps.foldSnd2 | rfl
    | intro _ | split | with_reducible apply Keeps.lit

theorem execBootWipe {s : State} : Answers s (Machine.execBootWipe s) := by
  unfold Machine.execBootWipe
  try dsimp only
  repeat' first
    | with_reducible first
      | apply Keeps.ans | apply Keeps.ansIte | exact Keeps.refl _ | apply Keeps.ite | apply Keeps.done
      | apply Keeps.enterPhase | apply Keeps.noteWipe | apply Keeps.wipeCounters | apply Keeps.wipeTier

theorem execTensorRegistration {s : State} : Answers s (Machine.execTensorRegistration s) := by
  unfold Machine.execTensorRegistration
  try dsimp only
  repeat' first
    | with_reducible first
      | apply Keeps.ans | apply Keeps.ansIte | exact Keeps.refl _ | apply Keeps.ite | apply Keeps.done
      | apply Keeps.enterPhase | apply Keeps.refreshHeat | apply Keeps.registerArchives | apply Keeps.registerBase

theorem execBootReady {s : State} : Answers s (Machine.execBootReady s) := by
  unfold Machine.execBootReady
  try dsimp only
  repeat' first
    | with_reducible first
      | apply Keeps.ans | apply Keeps.ansIte | exact Keeps.refl _ | apply Keeps.ite | apply Keeps.done
      | apply Keeps.enterPhase | apply Keeps.setImage | apply Keeps.wr

/-- POWER_GOOD is the one event that starts the counter anew. -/
theorem execPowerGood {s : State} : Answers { s with counter := 0 } (Machine.execPowerGood s) := by
  unfold Machine.execPowerGood
  split
  · exact ans ⟨rfl, List.prefix_refl _, Nat.le_refl _, id, Nat.zero_le _⟩
  · extract_lets _p a time b _q c
    have kb : Keeps { s with counter := 0 } b := resetAny (of_eq (refl _) rfl rfl rfl rfl)
    have kc : Keeps { s with counter := 0 } c := of_eq kb rfl rfl rfl rfl
    exact ans (ite kc (kc.emit _))

/-! ### Lifecycle -/

theorem execPowerPolicy {ring : Nat} {s : State} : Answers s (Machine.execPowerPolicy ring s) := by
  unfold Machine.execPowerPolicy
  try dsimp only
  repeat' first
    | apply Keeps.hostCmd
    | with_reducible first
      | apply Keeps.ans | apply Keeps.ansIte | exact Keeps.refl _ | apply Keeps.done | apply Keeps.hostCommand
      | apply Keeps.wr | rfl
    | intro _

theorem execRampSet {ring : Nat} {s : State} : Answers s (Machine.execRampSet ring s) := by
  unfold Machine.execRampSet
  try dsimp only
  repeat' first
    | apply Keeps.hostCmd
    | with_reducible first
      | apply Keeps.ans | apply Keeps.ansIte | exact Keeps.refl _ | apply Keeps.changeCeiling | apply Keeps.done
      | apply Keeps.hostCommand | apply Keeps.wr | rfl
    | intro _

theorem execLifecycleAdvance {ring : Nat} {s : State} : Answers s (Machine.execLifecycleAdvance ring s) := by
  unfold Machine.execLifecycleAdvance
  try dsimp only
  repeat' first
    | apply Keeps.hostCmd
    | with_reducible first
      | apply Keeps.ans | apply Keeps.ansIte | exact Keeps.refl _ | apply Keeps.ite | apply Keeps.done
      | apply Keeps.hostCommand | apply Keeps.resetDevice | apply Keeps.wr
    | decide | with_reducible rfl | intro _ | split | with_reducible apply Keeps.lit

theorem freeAllTensors {s0 : State} {s : State} (ke : Keeps s0 s) : Keeps s0 (Machine.freeAllTensors s) := by
  unfold Machine.freeAllTensors
  try dsimp only
  repeat' first
    | with_reducible first
      | exact ke | exact Keeps.refl _ | apply Keeps.ite | apply Keeps.foldl | apply Keeps.freeRuns
      | apply Keeps.freeTensor | apply Keeps.setMoves | apply Keeps.setTensor | apply Keeps.foldSnd
      | apply Keeps.foldSnd2 | rfl
    | intro _

theorem advanceWipe {s0 : State} {s : State} (ke : Keeps s0 s) : Keeps s0 (Machine.advanceWipe s) := by
  unfold Machine.advanceWipe
  try dsimp only
  repeat' first
    | with_reducible first
      | exact ke | exact Keeps.refl _ | apply Keeps.ite | apply Keeps.finishRun | apply Keeps.foldl | apply Keeps.wr
      | apply Keeps.foldSnd | apply Keeps.foldSnd2 | rfl
    | intro _

theorem execWipe {ring : Nat} {s : State} : Answers s (Machine.execWipe ring s) := by
  unfold Machine.execWipe
  refine hostCmd (fun c t => ?_)
  extract_lets m a b d e f
  refine ite ((refl t).done ..) ?_
  have ka : Keeps t a := freeAllTensors (refl t)
  have kb : Keeps t b := ite (wipeTier ka) ka
  have kd : Keeps t d := ite (wipeTier kb) kb
  have ke : Keeps t e := wipeCounters (noteWipe (refreshHeat kd))
  refine commandEpoch (ite ?_ (ke.done ..))
  have kf : Keeps t f := foldl (fun u _ => ite (requestRamp (refl u)) (refl u)) _ ke
  exact startRun (kf.wr _ _)

theorem prefer {s0 : State} {n : Nat} {s : State} (ke : Keeps s0 s) : Keeps s0 (Machine.prefer n s) := by
  unfold Machine.prefer
  try dsimp only
  repeat' first
    | with_reducible first
      | exact ke | exact Keeps.refl _ | apply Keeps.wr

theorem execFirmwareStage {ring : Nat} {s : State} : Answers s (Machine.execFirmwareStage ring s) := by
  unfold Machine.execFirmwareStage
  try dsimp only
  repeat' first
    | apply Keeps.hostCmd
    | with_reducible first
      | apply Keeps.ans | apply Keeps.ansIte | exact Keeps.refl _ | apply Keeps.ite | apply Keeps.dmaIn
      | apply Keeps.done | apply Keeps.hostCommand | apply Keeps.prefer | apply Keeps.startRun | apply Keeps.wr | rfl
    | intro _

theorem arriveImage {s0 : State} {r : Running} {data : List Byte} {s : State}
    (ke : Keeps s0 s) : Keeps s0 (Machine.arriveImage r data s) := by
  unfold Machine.arriveImage
  try dsimp only
  repeat' first
    | with_reducible first
      | exact ke | exact Keeps.refl _ | apply Keeps.ite | apply Keeps.finishRun | apply Keeps.firmwareEvent
      | apply Keeps.setImage | apply Keeps.wr | apply Keeps.wr32 | rfl
    | intro _ | split

theorem execFirmwareActivate {ring : Nat} {s : State} : Answers s (Machine.execFirmwareActivate ring s) := by
  unfold Machine.execFirmwareActivate
  try dsimp only
  repeat' first
    | apply Keeps.hostCmd
    | with_reducible first
      | apply Keeps.ans | apply Keeps.ansIte | exact Keeps.refl _ | apply Keeps.ite | apply Keeps.done
      | apply Keeps.firmwareEvent | apply Keeps.hostCommand | apply Keeps.prefer | apply Keeps.resetDevice
    | decide | with_reducible rfl | intro _

/-! ### Dma -/

theorem arriveCommand {s0 : State} {r : Running} {data : List Byte} {s : State}
    (ke : Keeps s0 s) : Keeps s0 (Machine.arriveCommand r data s) := by
  unfold Machine.arriveCommand
  try dsimp only
  repeat' first
    | with_reducible first
      | exact ke | exact Keeps.refl _ | apply Keeps.arriveArchiveList | apply Keeps.arriveBaseManifest
      | apply Keeps.arriveCycleSource | apply Keeps.arriveImage | apply Keeps.arriveVariant
      | apply Keeps.arriveVariantList | apply Keeps.arriveWrite | rfl
    | intro _ | split

theorem failCommand {s0 : State} {r : Running} {addr got : Nat} {s : State}
    (ke : Keeps s0 s) : Keeps s0 (Machine.failCommand r addr got s) := by
  unfold Machine.failCommand
  try dsimp only
  repeat' first
    | with_reducible first
      | exact ke | exact Keeps.refl _ | apply Keeps.dmaErrorEvent | apply Keeps.done | apply Keeps.failVariant
      | apply Keeps.finishDmaError | rfl
    | intro _ | split

theorem stagedOne {s0 : State} {h : Nat} {s : State} (ke : Keeps s0 s) : Keeps s0 (Machine.stagedOne h s) := by
  unfold Machine.stagedOne
  try dsimp only
  repeat' first
    | with_reducible first
      | exact ke | exact Keeps.refl _ | apply Keeps.ite | apply Keeps.armStart | apply Keeps.setStep

theorem stageData {s0 : State} {h req row rows : Nat} {data : List Byte} {s : State}
    (ke : Keeps s0 s) : Keeps s0 (Machine.stageData h req row rows data s) := by
  unfold Machine.stageData
  try dsimp only
  repeat' first
    | with_reducible first
      | exact ke | exact Keeps.refl _ | apply Keeps.ite | apply Keeps.foldl | apply Keeps.stageRow
      | apply Keeps.foldSnd | apply Keeps.foldSnd2 | rfl
    | intro _

theorem dropStaged {s0 : State} {h req addr : Nat} {fn : Nat} {s : State}
    (ke : Keeps s0 s) : Keeps s0 (Machine.dropStaged h req addr fn s) := by
  unfold Machine.dropStaged
  try dsimp only
  repeat' first
    | with_reducible first
      | exact ke | exact Keeps.refl _ | apply Keeps.ite | apply Keeps.afterBoundary | apply Keeps.dmaErrorEvent
      | apply Keeps.failRequest | apply Keeps.finishRuns | apply Keeps.foldl | apply Keeps.releaseSeg
      | apply Keeps.setHull | apply Keeps.setStep | apply Keeps.stagedOne | apply Keeps.step | apply Keeps.foldSnd
      | apply Keeps.foldSnd2 | rfl
    | intro _ | split

theorem nextPiece {s0 : State} {d : DmaRead} {b : List Byte} {s : State}
    (ke : Keeps s0 s) : Keeps s0 (Machine.nextPiece d b s) := by
  unfold Machine.nextPiece
  try dsimp only
  repeat' first
    | with_reducible first
      | exact ke | exact Keeps.refl _ | apply Keeps.ite | apply Keeps.emit | rfl
    | intro _ | split | with_reducible apply Keeps.lit

theorem execHostDmaCompletion {tag : Nat} {r : HostRead} {s : State} :
    Answers s (Machine.execHostDmaCompletion tag r s) := by
  unfold Machine.execHostDmaCompletion
  try dsimp only
  repeat' first
    | with_reducible first
      | apply Keeps.ans | apply Keeps.ansIte | exact Keeps.refl _ | apply Keeps.ite | apply Keeps.advanceAll
      | apply Keeps.arriveCommand | apply Keeps.dropReads | apply Keeps.dropStaged | apply Keeps.failCommand
      | apply Keeps.nextPiece | apply Keeps.pumpFences | apply Keeps.stageData | apply Keeps.stagedOne | rfl
    | intro _ | split

/-! ### Frame -/

theorem pumpTransfer {s0 : State} {mine : Nat → Bool} {r : Running} {s : State}
    (ke : Keeps s0 s) : Keeps s0 (Machine.pumpTransfer mine r s) := by
  unfold Machine.pumpTransfer
  try dsimp only
  repeat' first
    | with_reducible first
      | exact ke | exact Keeps.refl _ | apply Keeps.ite | apply Keeps.pumpRead | apply Keeps.pumpWrite | rfl
    | intro _ | split

theorem afterMoves {s0 : State} {mine : Nat → Bool} {s : State}
    (ke : Keeps s0 s) : Keeps s0 (Machine.afterMoves mine s) := by
  unfold Machine.afterMoves
  try dsimp only
  repeat' first
    | with_reducible first
      | exact ke | exact Keeps.refl _ | apply Keeps.advanceMirrored | apply Keeps.foldl | apply Keeps.kickAll
      | apply Keeps.pumpBaseStages | apply Keeps.pumpCycles | apply Keeps.pumpFences | apply Keeps.pumpTransfer
      | apply Keeps.foldSnd | apply Keeps.foldSnd2 | rfl
    | intro _

theorem afterMove {s0 : State} {h : Nat} {s : State} (ke : Keeps s0 s) : Keeps s0 (Machine.afterMove h s) := by
  unfold Machine.afterMove
  try dsimp only
  repeat' first
    | with_reducible first
      | exact ke | exact Keeps.refl _ | apply Keeps.afterMoves

theorem chargeMove {s0 : State} {m : Move} {service : Nat} {s : State}
    (ke : Keeps s0 s) : Keeps s0 (Machine.chargeMove m service s) := by
  unfold Machine.chargeMove
  try dsimp only
  repeat' first
    | with_reducible first
      | exact ke | exact Keeps.refl _ | apply Keeps.ite | apply Keeps.foldl | apply Keeps.foldSnd
      | apply Keeps.foldSnd2 | rfl
    | intro _ | split | with_reducible apply Keeps.lit

theorem failWaiting {s0 : State} {h : Nat} {addr : DWord} {s : State}
    (ke : Keeps s0 s) : Keeps s0 (Machine.failWaiting h addr s) := by
  unfold Machine.failWaiting
  try dsimp only
  repeat' first
    | with_reducible first
      | exact ke | exact Keeps.refl _ | apply Keeps.ite | apply Keeps.done | apply Keeps.endItem
      | apply Keeps.failDesc | apply Keeps.finishRun | apply Keeps.foldl | apply Keeps.kick | apply Keeps.getD
      | apply Keeps.foldSnd | apply Keeps.foldSnd2 | rfl
    | intro _ | split

theorem execMoveComplete {fate : MoveEnd} {s : State} : Answers s (Machine.execMoveComplete fate s) := by
  unfold Machine.execMoveComplete
  try dsimp only
  repeat' first
    | with_reducible first
      | apply Keeps.ans | apply Keeps.ansIte | exact Keeps.refl _ | apply Keeps.ite | apply Keeps.abandonMove
      | apply Keeps.afterMove | apply Keeps.chargeMove | apply Keeps.done | apply Keeps.failWaiting
      | apply Keeps.finishMove | rfl
    | intro _ | split

theorem execPromotionStart {handle : Nat} {s : State} : Answers s (Machine.execPromotionStart handle s) := by
  unfold Machine.execPromotionStart
  try dsimp only
  repeat' first
    | with_reducible first
      | apply Keeps.ans | apply Keeps.ansIte | exact Keeps.refl _ | apply Keeps.ite | apply Keeps.afterMove
      | apply Keeps.dropMove | apply Keeps.refreshHeat | apply Keeps.setMoves
      | refine Keeps.moveSpace_some ?_ (by assumption) | rfl
    | intro _ | split

theorem settleSlices {s0 : State} {s : State} (ke : Keeps s0 s) : Keeps s0 (Machine.settleSlices s) := by
  unfold Machine.settleSlices
  try dsimp only
  repeat' first
    | with_reducible first
      | exact ke | exact Keeps.refl _ | apply Keeps.ite | apply Keeps.finishRun | apply Keeps.foldl
      | apply Keeps.foldSnd | apply Keeps.foldSnd2 | rfl
    | intro _ | split

theorem execSlotBoundary {s : State} : Answers s (Machine.execSlotBoundary s) := by
  unfold Machine.execSlotBoundary
  try dsimp only
  repeat' first
    | with_reducible first
      | apply Keeps.ans | apply Keeps.ansIte | exact Keeps.refl _ | apply Keeps.ite | apply Keeps.advanceTo
      | apply Keeps.settleSlices | apply Keeps.wr | rfl
    | intro _ | split | with_reducible apply Keeps.lit

theorem clearFrameCounts {s0 : State} {f : Nat} {s : State}
    (ke : Keeps s0 s) : Keeps s0 (Machine.clearFrameCounts f s) := by
  unfold Machine.clearFrameCounts
  try dsimp only
  repeat' first
    | with_reducible first
      | exact ke | exact Keeps.refl _ | apply Keeps.ite | rfl
    | intro _ | split | with_reducible apply Keeps.lit

theorem enterFrame {s0 : State} {f : Nat} {s : State} (ke : Keeps s0 s) : Keeps s0 (Machine.enterFrame f s) := by
  unfold Machine.enterFrame
  try dsimp only
  repeat' first
    | with_reducible first
      | exact ke | exact Keeps.refl _ | apply Keeps.advanceTo | apply Keeps.wr | apply Keeps.wr64 | rfl
    | intro _ | split | with_reducible apply Keeps.lit

theorem nextFrame {s0 : State} {s : State} (ke : Keeps s0 s) : Keeps s0 (Machine.nextFrame s).2 := by
  unfold Machine.nextFrame
  try dsimp only
  repeat' first
    | with_reducible first
      | exact ke | exact Keeps.refl _ | apply Keeps.ite | apply Keeps.iteSnd | apply Keeps.enterFrame
      | apply Keeps.rollMeters | rfl
    | intro _ | split | with_reducible apply Keeps.lit

theorem execFrameBoundary {s : State} : Answers s (Machine.execFrameBoundary s) := by
  unfold Machine.execFrameBoundary
  try dsimp only
  repeat' first
    | with_reducible first
      | apply Keeps.ans | apply Keeps.ansIte | exact Keeps.refl _ | apply Keeps.ite | apply Keeps.advanceMirrored
      | apply Keeps.clearFrameCounts | apply Keeps.evaluateHeat | apply Keeps.floorTests | apply Keeps.formAll
      | apply Keeps.nextFrame | apply Keeps.planMoves | apply Keeps.refill | apply Keeps.settleSlices
      | apply Keeps.switchAt

/-! ### Guardian -/

theorem refreshThrottle {s0 : State} {s : State} (ke : Keeps s0 s) : Keeps s0 (Machine.refreshThrottle s) := by
  unfold Machine.refreshThrottle
  try dsimp only
  repeat' first
    | with_reducible first
      | exact ke | exact Keeps.refl _ | apply Keeps.driveAlert | apply Keeps.wrB

theorem throttleEvent {s0 : State} {d limit cause : Nat} {s : State}
    (ke : Keeps s0 s) : Keeps s0 (Machine.throttleEvent d limit cause s) := by
  unfold Machine.throttleEvent
  try dsimp only
  repeat' first
    | with_reducible first
      | exact ke | exact Keeps.refl _ | apply Keeps.ite | apply Keeps.recordEvent | rfl
    | intro _ | split | with_reducible apply Keeps.lit

theorem limitPod {s0 : State} {cause : Nat} {p limit : Nat} {s : State}
    (ke : Keeps s0 s) : Keeps s0 (Machine.limitPod cause p limit s) := by
  unfold Machine.limitPod
  try dsimp only
  repeat' first
    | with_reducible first
      | exact ke | exact Keeps.refl _ | apply Keeps.ite | apply Keeps.retarget | apply Keeps.setPod
      | apply Keeps.throttleEvent | apply Keeps.wr

theorem cutPod {s0 : State} {cause n p : Nat} {s : State}
    (ke : Keeps s0 s) : Keeps s0 (Machine.cutPod cause n p s) := by
  unfold Machine.cutPod
  try dsimp only
  repeat' first
    | with_reducible first
      | exact ke | exact Keeps.refl _ | apply Keeps.limitPod

theorem guardCauses {s0 : State} {s : State} (ke : Keeps s0 s) : Keeps s0 (Machine.guardCauses s) := by
  unfold Machine.guardCauses
  try dsimp only
  repeat' first
    | with_reducible first
      | exact ke | exact Keeps.refl _ | apply Keeps.ite | apply Keeps.foldl | apply Keeps.noteCause
      | apply Keeps.foldSnd | apply Keeps.foldSnd2 | rfl
    | intro _

theorem guardBreaches {s0 : State} {s : State} (ke : Keeps s0 s) : Keeps s0 (Machine.guardBreaches s) := by
  unfold Machine.guardBreaches
  try dsimp only
  repeat' first
    | with_reducible first
      | exact ke | exact Keeps.refl _ | apply Keeps.ite | apply Keeps.breach | apply Keeps.foldl
      | apply Keeps.guardCauses | apply Keeps.markBreaches | apply Keeps.foldSnd | apply Keeps.foldSnd2 | rfl
    | intro _

theorem domainsOff {s0 : State} {ds0 : List Nat} {s : State}
    (ke : Keeps s0 s) : Keeps s0 (Machine.domainsOff ds0 s) := by
  unfold Machine.domainsOff
  try dsimp only
  repeat' first
    | with_reducible first
      | exact ke | exact Keeps.refl _ | apply Keeps.ite | apply Keeps.advanceWipe | apply Keeps.domainOffNow
      | apply Keeps.foldl | apply Keeps.recompute | apply Keeps.refreshHeat | apply Keeps.foldSnd
      | apply Keeps.foldSnd2 | rfl
    | intro _ | split | with_reducible apply Keeps.lit

theorem trip {s0 : State} {sensor : Nat} {temp : Nat} {s : State}
    (ke : Keeps s0 s) : Keeps s0 (Machine.trip sensor temp s) := by
  unfold Machine.trip
  try dsimp only
  repeat' first
    | with_reducible first
      | exact ke | exact Keeps.refl _ | apply Keeps.ite | apply Keeps.addWrap | apply Keeps.domainsOff
      | apply Keeps.driveAlert | apply Keeps.recordEvent | apply Keeps.wr64 | rfl
    | intro _ | split | with_reducible apply Keeps.lit

theorem noteReadings {s0 : State} {g : GuardSample} {s : State}
    (ke : Keeps s0 s) : Keeps s0 (Machine.noteReadings g s) := by
  unfold Machine.noteReadings
  try dsimp only
  repeat' first
    | with_reducible first
      | exact ke | exact Keeps.refl _ | apply Keeps.ite | apply Keeps.foldl | apply Keeps.fresh | apply Keeps.wr
      | apply Keeps.foldSnd | apply Keeps.foldSnd2 | rfl
    | intro _ | split | with_reducible apply Keeps.lit

theorem noteInput {s0 : State} {g : GuardSample} {s : State} (ke : Keeps s0 s) : Keeps s0 (Machine.noteInput g s) := by
  unfold Machine.noteInput
  try dsimp only
  repeat' first
    | with_reducible first
      | exact ke | exact Keeps.refl _ | apply Keeps.ite | apply Keeps.foldl | apply Keeps.raise | apply Keeps.wr
      | apply Keeps.wr32 | apply Keeps.foldSnd | apply Keeps.foldSnd2 | rfl
    | intro _ | split | with_reducible apply Keeps.lit

theorem holdPod {s0 : State} {p : Nat} {s : State} (ke : Keeps s0 s) : Keeps s0 (Machine.holdPod p s) := by
  unfold Machine.holdPod
  try dsimp only
  repeat' first
    | with_reducible first
      | exact ke | exact Keeps.refl _ | apply Keeps.limitPod | apply Keeps.setPod

theorem sensorFaults {s0 : State} {g : GuardSample} {s : State}
    (ke : Keeps s0 s) : Keeps s0 (Machine.sensorFaults g s) := by
  unfold Machine.sensorFaults
  try dsimp only
  repeat' first
    | with_reducible first
      | exact ke | exact Keeps.refl _ | apply Keeps.ite | apply Keeps.foldl | apply Keeps.fresh | apply Keeps.holdPod
      | apply Keeps.raise | apply Keeps.foldSnd | apply Keeps.foldSnd2 | rfl
    | intro _ | split | with_reducible apply Keeps.lit

theorem thermalPods {s0 : State} {g : GuardSample} {s : State}
    (ke : Keeps s0 s) : Keeps s0 (Machine.thermalPods g s) := by
  unfold Machine.thermalPods
  try dsimp only
  repeat' first
    | with_reducible first
      | exact ke | exact Keeps.refl _ | apply Keeps.ite | apply Keeps.foldl | apply Keeps.limitPod | apply Keeps.raise
      | apply Keeps.setPod | apply Keeps.foldSnd | apply Keeps.foldSnd2 | rfl
    | intro _

theorem thermalStacks {s0 : State} {g : GuardSample} {s : State}
    (ke : Keeps s0 s) : Keeps s0 (Machine.thermalStacks g s) := by
  unfold Machine.thermalStacks
  try dsimp only
  repeat' first
    | with_reducible first
      | exact ke | exact Keeps.refl _ | apply Keeps.ite | apply Keeps.foldl | apply Keeps.raise
      | apply Keeps.throttleEvent | apply Keeps.foldSnd | apply Keeps.foldSnd2 | rfl
    | intro _ | split | with_reducible apply Keeps.lit

theorem cutForInput {s0 : State} {cause : Nat} {s : State}
    (ke : Keeps s0 s) : Keeps s0 (Machine.cutForInput cause s) := by
  unfold Machine.cutForInput
  try dsimp only
  repeat' first
    | with_reducible first
      | exact ke | exact Keeps.refl _ | apply Keeps.ite | apply Keeps.cutPod | apply Keeps.raise | rfl
    | intro _ | split | with_reducible apply Keeps.lit

theorem inputLimits {s0 : State} {g : GuardSample} {s : State}
    (ke : Keeps s0 s) : Keeps s0 (Machine.inputLimits g s) := by
  unfold Machine.inputLimits
  try dsimp only
  repeat' first
    | with_reducible first
      | exact ke | exact Keeps.refl _ | apply Keeps.ite | apply Keeps.cutForInput | apply Keeps.cutPod
      | apply Keeps.foldl | apply Keeps.raise | apply Keeps.foldSnd | apply Keeps.foldSnd2 | rfl
    | intro _ | split | with_reducible apply Keeps.lit

theorem railEvent {s0 : State} {s : State} {d : Nat} (ke : Keeps s0 s) : Keeps s0 (Machine.railEvent s d) := by
  unfold Machine.railEvent
  try dsimp only
  repeat' first
    | with_reducible first
      | exact ke | exact Keeps.refl _ | apply Keeps.ite | apply Keeps.fresh | apply Keeps.throttleEvent

theorem railFaults {s0 : State} {g : GuardSample} {s : State}
    (ke : Keeps s0 s) : Keeps s0 (Machine.railFaults g s) := by
  unfold Machine.railFaults
  try dsimp only
  repeat' first
    | with_reducible first
      | exact ke | exact Keeps.refl _ | apply Keeps.ite | apply Keeps.domainsOff | apply Keeps.foldl
      | apply Keeps.fresh | apply Keeps.railEvent | apply Keeps.raise | apply Keeps.trip | apply Keeps.foldSnd
      | apply Keeps.foldSnd2 | rfl
    | intro _

theorem execGuardianSample {g : GuardSample} {s : State} : Answers s (Machine.execGuardianSample g s) := by
  unfold Machine.execGuardianSample
  try dsimp only
  repeat' first
    | with_reducible first
      | apply Keeps.ans | apply Keeps.ansIte | exact Keeps.refl _ | apply Keeps.ite | apply Keeps.addSat
      | apply Keeps.guardBreaches | apply Keeps.inputLimits | apply Keeps.noteInput | apply Keeps.noteReadings
      | apply Keeps.railFaults | apply Keeps.refreshThrottle | apply Keeps.sensorFaults | apply Keeps.thermalPods
      | apply Keeps.thermalStacks | apply Keeps.trip | rfl
    | intro _ | split

theorem execInputUndervoltage {s : State} : Answers s (Machine.execInputUndervoltage s) := by
  unfold Machine.execInputUndervoltage
  try dsimp only
  repeat' first
    | with_reducible first
      | apply Keeps.ans | apply Keeps.ansIte | exact Keeps.refl _ | apply Keeps.ite | apply Keeps.foldl
      | apply Keeps.guardBreaches | apply Keeps.limitPod | apply Keeps.refreshThrottle | apply Keeps.foldSnd
      | apply Keeps.foldSnd2 | rfl
    | intro _

theorem execGuardianRestore {pod : Nat} {s : State} : Answers s (Machine.execGuardianRestore pod s) := by
  unfold Machine.execGuardianRestore
  try dsimp only
  repeat' first
    | with_reducible first
      | apply Keeps.ans | apply Keeps.ansIte | exact Keeps.refl _ | apply Keeps.ite | apply Keeps.requestRamp

theorem meshFollows {s0 : State} {d : Nat} {s : State} (ke : Keeps s0 s) : Keeps s0 (Machine.meshFollows d s) := by
  unfold Machine.meshFollows
  try dsimp only
  repeat' first
    | with_reducible first
      | exact ke | exact Keeps.refl _ | apply Keeps.ite | apply Keeps.requestRamp

theorem rampStart {s0 : State} {a : RampAct} {s : State} (ke : Keeps s0 s) : Keeps s0 (Machine.rampStart a s) := by
  unfold Machine.rampStart
  try dsimp only
  repeat' first
    | with_reducible first
      | exact ke | exact Keeps.refl _ | apply Keeps.advanceMirrored | apply Keeps.domainsOff | apply Keeps.meshFollows
      | apply Keeps.refreshThrottle | apply Keeps.retarget | apply Keeps.setPod | apply Keeps.wr | rfl
    | intro _ | split | with_reducible apply Keeps.lit

theorem execRampGrant {s : State} : Answers s (Machine.execRampGrant s) := by
  unfold Machine.execRampGrant
  try dsimp only
  repeat' first
    | with_reducible first
      | apply Keeps.ans | apply Keeps.ansIte | exact Keeps.refl _ | apply Keeps.ite | apply Keeps.accrue
      | apply Keeps.present | apply Keeps.rampStart | rfl
    | intro _ | split | with_reducible apply Keeps.lit

theorem execDomainPowerUpDone {domain : Nat} {s : State} : Answers s (Machine.execDomainPowerUpDone domain s) := by
  unfold Machine.execDomainPowerUpDone
  split
  · exact ans (refl s)
  · extract_lets p a b c
    have ka : Keeps s a := Keeps.wr (lit (refl s) rfl rfl rfl) _ _
    have kb : Keeps s b := ite ((resetPodWindow (wipeTiles ka)).wr _ _) (ite ka (ite (ka.wr _ _) (ite (ka.wr _ _) (ite (ka.wr _ _)
      (foldl (fun u _ => ite (enterPort (refl u)) (refl u)) _ ka)))))
    have kc : Keeps s c := refreshHeat kb
    exact ans (formAll (advanceMirrored (ite (afterMoves kc) kc)))

theorem execPodPointChangeDone {pod : Nat} {s : State} : Answers s (Machine.execPodPointChangeDone pod s) := by
  unfold Machine.execPodPointChangeDone
  try dsimp only
  repeat' first
    | with_reducible first
      | apply Keeps.ans | apply Keeps.ansIte | exact Keeps.refl _ | apply Keeps.ite | apply Keeps.retarget
      | apply Keeps.risersResume | apply Keeps.setPod | apply Keeps.wr

theorem execPodIdleTimeout {pod : Nat} {s : State} : Answers s (Machine.execPodIdleTimeout pod s) := by
  unfold Machine.execPodIdleTimeout
  try dsimp only
  repeat' first
    | with_reducible first
      | apply Keeps.ans | apply Keeps.ansIte | exact Keeps.refl _ | apply Keeps.ite | apply Keeps.requestRamp

theorem execPrsntBreak {s : State} : Answers s (Machine.execPrsntBreak s) := by
  unfold Machine.execPrsntBreak
  try dsimp only
  repeat' first
    | with_reducible first
      | apply Keeps.ans | apply Keeps.ansIte | exact Keeps.refl _ | apply Keeps.ite | apply Keeps.domainsOff
      | apply Keeps.present | rfl
    | intro _ | split | with_reducible apply Keeps.lit

theorem execStorageLowAssert {s : State} : Answers s (Machine.execStorageLowAssert s) := by
  unfold Machine.execStorageLowAssert
  try dsimp only
  repeat' first
    | with_reducible first
      | apply Keeps.ans | apply Keeps.ansIte | exact Keeps.refl _ | apply Keeps.ite | apply Keeps.changeCeiling
      | apply Keeps.raise | apply Keeps.wr | rfl
    | intro _

theorem execStorageLowRelease {s : State} : Answers s (Machine.execStorageLowRelease s) := by
  unfold Machine.execStorageLowRelease
  try dsimp only
  repeat' first
    | with_reducible first
      | apply Keeps.ans | apply Keeps.ansIte | exact Keeps.refl _ | apply Keeps.ite | apply Keeps.changeCeiling
      | apply Keeps.wr | rfl
    | intro _

theorem execSidebandReversed {s : State} : Answers s (Machine.execSidebandReversed s) := by
  unfold Machine.execSidebandReversed
  try dsimp only
  repeat' first
    | with_reducible first
      | apply Keeps.ans | apply Keeps.ansIte | exact Keeps.refl _ | apply Keeps.ite | apply Keeps.raise | rfl
    | intro _ | split | with_reducible apply Keeps.lit

/-! ### Sideband -/

theorem execBoundaryScanInstruction {i : TapInstr} {s : State} :
    Answers s (Machine.execBoundaryScanInstruction i s) := by
  unfold Machine.execBoundaryScanInstruction
  split
  · exact ans (refl s)
  · split
    · exact ansIte (ansRefused _) (ans (refl s))
    · exact ans (ite ((lit (refl s) rfl rfl rfl).emit _) (lit (refl s) rfl rfl rfl))

theorem freshNonce {s0 : State} {s : State} (ke : Keeps s0 s) : Keeps s0 (Machine.freshNonce s).2 := by
  unfold Machine.freshNonce
  try dsimp only
  repeat' first
    | with_reducible first
      | exact ke | exact Keeps.refl _ | apply Keeps.foldl | apply Keeps.fresh | apply Keeps.foldSnd
      | apply Keeps.foldSnd2 | rfl
    | intro _

theorem spdmAnswer {s0 : State} {req : SpdmReq} {s : State}
    (ke : Keeps s0 s) : Keeps s0 (Machine.spdmAnswer req s).2 := by
  unfold Machine.spdmAnswer
  try dsimp only
  repeat' first
    | with_reducible first
      | exact ke | exact Keeps.refl _ | apply Keeps.ite | apply Keeps.iteSnd | apply Keeps.freshNonce
      | refine Keeps.sndEq ?_ (by assumption) | rfl
    | intro _ | split

theorem execSpdmRequest {req : SpdmReq} {s : State} : Answers s (Machine.execSpdmRequest req s) := by
  unfold Machine.execSpdmRequest
  try dsimp only
  repeat' first
    | with_reducible first
      | apply Keeps.ans | apply Keeps.ansIte | exact Keeps.refl _ | apply Keeps.ite | apply Keeps.done
      | apply Keeps.emit | apply Keeps.spdmAnswer

theorem execI3cRead {off : Nat} {s : State} : Answers s (Machine.execI3cRead off s) := by
  unfold Machine.execI3cRead
  try dsimp only
  repeat' first
    | with_reducible first
      | apply Keeps.ans | apply Keeps.ansIte | exact Keeps.refl _ | apply Keeps.ite | apply Keeps.emit

end Keeps
end Sys2Proof.Machine
end

