-- ==== Sys2Proof/Laws/KeepsExec.lean ====
section
/-! SUPPORT. What no command does, over exec itself: every next state that it answers keeps the queue it was given, what
has left the block, the count of free values and the canonical form of the memories. -/

namespace Sys2Proof.Machine
namespace Keeps

/-- Whatever the command but POWER_GOOD, which starts the counter anew, a next state that it answers keeps. -/
theorem exec {i : Instr} {s : State} (h : i ≠ .powerGood) : Answers s (Machine.exec i s) := by
  cases i <;> dsimp only [Machine.exec]
  · exact execNop
  · exact execHello
  · exact execQueryDevice
  · exact execQueryRequest
  · exact execTenantBind
  · exact execTenantUnbind
  · exact execBudgetSet
  · exact execBudgetQuery
  · exact execHullCreate
  · exact execHullResize
  · exact execHullDestroy
  · exact execHullDrain
  · exact execHullRestore
  · exact execShellLoad
  · exact execShellSelect
  · exact execTensorDefine
  · exact execTensorWrite
  · exact execTensorRead
  · exact execTensorFree
  · exact execTensorClass
  · exact execVariantLoad
  · exact execVariantArchive
  · exact execBaseInstall
  · exact execBaseStage
  · exact execRunGraph
  · exact execGenerate
  · exact execCancel
  · exact execFence
  · exact execCycleTableWrite
  · exact execCycleTableArm
  · exact execPrioritySet
  · exact execSliceSet
  · exact execRouteQuery
  · exact execTwinArm
  · exact execTwinSwitch
  · exact execCounterSync
  · exact execRecorderArm
  · exact execRecorderClear
  · exact execTraceMask
  · exact execSampleStart
  · exact execSampleStop
  · exact execTelemetryRead
  · exact execPowerPolicy
  · exact execRampSet
  · exact execLifecycleAdvance
  · exact execWipe
  · exact execFirmwareStage
  · exact execFirmwareActivate
  · exact execSqDoorbell
  · exact execCqDoorbell
  · exact execRingEnable
  · exact execRingDisable
  · exact execSqFetch
  · exact execInterruptCoalesceTimeout
  · exact execMsixVectorUnmask
  · exact execVfFlr
  · exact execPfFlr
  · exact execBdpWindowWrite
  · exact execBdpWindowRead
  · exact execBdpBufferDrain
  · exact execDevCtrSelWrite
  · exact execCounterClear
  · exact execCounterClearAll
  · exact execCxlDecoderCommit
  · exact execCxlDecoderDecommit
  · exact execCxlMemRead
  · exact execCxlMemWrite
  · exact execBar0LowHalfRead
  · exact execBar0HighHalfRead
  · exact execBar0LowHalfWrite
  · exact execBar0HighHalfWrite
  · exact execBar0BadAccess
  · exact execRegisterWrite
  · exact execHeatLookupWrite
  · exact execFtBlkSelWrite
  · exact execFabInstallCommit
  · exact execEvrWindowAutoRead
  · exact execLogEnable
  · exact execLogTailWrite
  · exact execLogEntryWrite
  · exact execSpdmRequest
  · exact execI3cRead
  · exact execBoundaryScanInstruction
  · exact execStreamStop
  · exact execQuiescenceReached
  · exact execShellLoadDone
  · exact execScanOutDone
  · exact execScanInDone
  · exact execEndOp
  · exact execRepeatOp
  · exact execWaitOp
  · exact execInGraphFence
  · exact execPlaneRun
  · exact execStreamOp
  · exact execSop
  · exact execVint
  · exact execVfp
  · exact execVxlane
  · exact execVcvt
  · exact execVload
  · exact execVstore
  · exact execVpush
  · exact execVpop
  · exact execVsfu
  · exact execHullFaultHandling
  · exact execStepStart
  · exact execStepBoundaryReached
  · exact execQueueEntrySend
  · exact execCreditReturnSend
  · exact execMeshFlitForward
  · exact execDataFlitArrive
  · exact execCreditFlitArrive
  · exact execSfuGrant
  · exact execSfuResultWrite
  · exact execStall
  · exact execChunkIssue
  · exact execStreamResume
  · exact execChunkResponse
  · exact execDescriptorComplete
  · exact execTierAccess
  · exact execArbiterGrant
  · exact execTierAccessEnd
  · exact execCeWriteback
  · exact execRecoveryComplete
  · exact execAccessDeadlineExpiry
  · exact execPerBankRefresh
  · exact execCalibrationWindow
  · exact execCalOverdue
  · exact execScrubRead
  · exact execFrameBoundary
  · exact execSlotBoundary
  · exact execPromotionStart
  · exact execMoveComplete
  · exact execFtChunkRead
  · exact execFtProgramDone
  · exact execFtEraseDone
  · exact execFtScrub
  · exact execBlockRelocationDone
  · exact execCompaction
  · exact execStaticLevelling
  · exact execFtChannelFailure
  · exact execBoundaryReport
  · exact execStepCommit
  · exact execStartNotice
  · exact execEmitEntry
  · exact execServingPortEntry
  · exact execExpertDispatch
  · exact execKvAdmission
  · exact execFabricFlitReceive
  · exact execAckTimer
  · exact execLaneLockLoss
  · exact execLaneRetrain
  · exact execPortDetect
  · exact execPortTrainingDone
  · exact execPeerCheck
  · exact execLinkRetrainTimer
  · exact execCrossedRecheck
  · exact execCableRemoved
  · exact execLinkDownDetect
  · exact execRouteUpdate
  · exact execPathChangeRelease
  · exact execRemoteRequest
  · exact execRemoteResponse
  · exact execFabricTimeout
  · exact execQueueOpen
  · exact execQueueGrant
  · exact execQueueEntry
  · exact execQueueCredit
  · exact execFaultNotice
  · exact execTimestampExchange
  · exact execTwinHeartbeatSend
  · exact execTwinHeartbeatTimeout
  · exact execTakingOverAnnounce
  · exact execEpochReceive
  · exact execEpochMarkerReceive
  · exact execEpochAckReceive
  · exact execSnapshotApplied
  · exact execTwinArmTimeout
  · exact execTwaFault
  · exact execHullPeerLoss
  · exact absurd rfl h
  · exact execInputUndervoltage
  · exact execInputOutOfRange
  · exact execPerstAssert
  · exact execHotReset
  · exact execPcieLinkDown
  · exact execMgmtWatchdogExpiry
  · exact execResetReq
  · exact execTripRecovery
  · exact execImageVerify
  · exact execHuskStart
  · exact execSystemLoad
  · exact execDramTrain
  · exact execBootWipe
  · exact execTensorRegistration
  · exact execBootReady
  · exact execGuardianSample
  · exact execGuardianRestore
  · exact execRampGrant
  · exact execPodPointChangeDone
  · exact execDomainPowerUpDone
  · exact execPodIdleTimeout
  · exact execInputShort
  · exact execPrsntBreak
  · exact execStorageLowAssert
  · exact execStorageLowRelease
  · exact execSidebandReversed
  · exact execEventPersist
  · exact execSampleCapture
  · exact execPcieLinkTrained
  · exact execVfEnableWrite
  · exact execHostDmaCompletion
  · exact execComplementaryArm
  · exact execNewSnapshotRequest
  · exact execTwinSwitchSaveBlocks

theorem exec_next {i : Instr} {s t : State} (n : i ≠ .powerGood) (h : Machine.exec i s = .next t) : Keeps s t :=
  (exec n).keeps t h

theorem powerGood_next {s t : State} (h : Machine.exec .powerGood s = .next t) : Keeps { s with counter := 0 } t :=
  execPowerGood.keeps t h

end Keeps
end Sys2Proof.Machine
end

