-- ==== Sys2Proof/Laws/Place.lean ====
section
/-! SUPPORT. Laws of the allocators: when a run of tier space is found, and where it lies (R197, R206, R208). -/

namespace Sys2Proof.Machine

theorem placeCount_foldl (size : Nat) (gs : List (Nat × Nat)) (k : Nat) :
    gs.foldl (fun n g => if g.2 < size then n else n + ((g.2 - size) / PAGE + 1)) k = k + placeCount size gs := by
  unfold placeCount
  induction gs generalizing k with
  | nil => simp
  | cons g gs ih =>
    simp only [List.foldl_cons]
    rw [ih, ih (if g.2 < size then 0 else 0 + ((g.2 - size) / PAGE + 1))]
    split <;> omega

theorem placeCount_cons (size : Nat) (g : Nat × Nat) (gs : List (Nat × Nat)) :
    placeCount size (g :: gs) = (if g.2 < size then 0 else (g.2 - size) / PAGE + 1) + placeCount size gs := by
  rw [placeCount, List.foldl_cons, placeCount_foldl]
  split <;> omega

/-- Every number below the count names a place. -/
theorem placeIn_isSome (size : Nat) (gs : List (Nat × Nat)) (i : Nat) (h : i < placeCount size gs) :
    (placeIn size gs i).isSome = true := by
  induction gs generalizing i with
  | nil => simp [placeCount] at h
  | cons g gs ih =>
    rw [placeCount_cons] at h
    obtain ⟨b, n⟩ := g
    simp only [placeIn]
    split
    · rename_i hn
      exact ih i (by simpa [hn] using h)
    · rename_i hn
      split
      · rfl
      · refine ih _ ?_
        simp only [hn, if_false] at h
        omega

/-- A place lies within one of the gaps. -/
theorem placeIn_within (size : Nat) (gs : List (Nat × Nat)) (i b : Nat) (h : placeIn size gs i = some b) :
    ∃ g ∈ gs, g.1 ≤ b ∧ b + size ≤ g.1 + g.2 := by
  induction gs generalizing i with
  | nil => simp [placeIn] at h
  | cons g gs ih =>
    obtain ⟨c, n⟩ := g
    simp only [placeIn] at h
    split at h
    · obtain ⟨g, hg, hb⟩ := ih i h
      exact ⟨g, List.mem_cons_of_mem _ hg, hb⟩
    · rename_i hn
      split at h
      · rename_i hi
        injection h with h
        refine ⟨(c, n), List.mem_cons_self, ?_, ?_⟩
        · show c ≤ b
          omega
        · show b + size ≤ c + n
          have h1 : i * PAGE ≤ (n - size) / PAGE * PAGE := Nat.mul_le_mul_right _ (by omega)
          have h2 : (n - size) / PAGE * PAGE ≤ n - size := Nat.div_mul_le_self _ _
          omega
      · obtain ⟨g, hg, hb⟩ := ih _ h
        exact ⟨g, List.mem_cons_of_mem _ hg, hb⟩

/-- A run is found exactly where some gap holds it. -/
theorem choosePlace_isSome (s : State) (dTier : Bool) (lo hi size : Nat) :
    (choosePlace s dTier lo hi size).isSome = decide (placeCount size (freeGaps s dTier lo hi) ≠ 0) := by
  unfold choosePlace
  by_cases h : placeCount size (freeGaps s dTier lo hi) = 0
  · simp [h]
  · simp only [h, if_false]
    rw [placeIn_isSome _ _ _ (Nat.mod_lt _ (by omega))]
    simp [h]

theorem allocDIn_isSome (h size : Nat) (who : Holder) (s : State) : (allocDIn h size who s).isSome =
    (halfOn s h && decide (placeCount size (freeGaps s true (h * D_HALF) ((h + 1) * D_HALF)) ≠ 0)) := by
  unfold allocDIn
  cases halfOn s h <;> simp [choosePlace_isSome]

theorem allocN_isSome (size : Nat) (who : Holder) (s : State) :
    (allocN size who s).isSome = (ntOn s && decide (placeCount size (freeGaps s false N_SYSTEM N_CAPACITY) ≠ 0)) := by
  unfold allocN
  cases ntOn s <;> simp [choosePlace_isSome]

theorem allocD_isSome (size : Nat) (who : Holder) (s : State) : (allocD size who s).isSome =
    ((allocDIn (chooseHalf s) size who s).isSome || (allocDIn (1 - chooseHalf s) size who s).isSome) := by
  unfold allocD
  split <;> rename_i h <;> simp [h]

/-- A tensor is defined where a handle is free and the D-tier has a run for its copy. -/
theorem defineTensor_isRight (t : Tensor) (s : State) (h : Nat) (hh : freeHandle s = some h) :
    (defineTensor t s).isRight = (allocD (copySize t) (.copy h) s).isSome := by
  unfold defineTensor
  simp only [hh]
  cases allocD (copySize t) (.copy h) s <;> rfl

/-- A promotion finds its run where the N-tier serves and has one. -/
theorem moveSpace_promote (h : Nat) (s : State) : (moveSpace h MOVE_PROMOTE s).isSome =
    (ntOn s && decide (placeCount (copySize (s.tensor h)) (freeGaps s false N_SYSTEM N_CAPACITY) ≠ 0)) := by
  simp [moveSpace, allocN_isSome]

end Sys2Proof.Machine
end

