-- ==== Sys2Proof/Laws/Scan.lean ====
section
/-! SUPPORT. Laws of the scan: the check of a record, and when a restore starts (R154, R157). -/

namespace Sys2Proof.Machine

/-- The check of a record, with the CRC in its evaluating form. -/
theorem recordGood_eq (s : State) (h base : Nat) : recordGood s h base =
    (leNat (mread s.tier.nmem (base + RECORD_OFF + 0) 4) = 0x50445352
      && leNat (mread s.tier.nmem (base + RECORD_OFF + 4092) 4)
        = strictFold (crcByte 0xEDB88320) (mread s.tier.nmem (base + RECORD_OFF) 4092) 0xFFFFFFFF ^^^ 0xFFFFFFFF
      && leNat (mread s.tier.nmem (base + RECORD_OFF + 8) 8) = (s.hull h).graph.toNat
      && !bit (leNat (mread s.tier.nmem (base + RECORD_OFF + 4) 4)) 0) := by
  unfold recordGood
  simp only [crc32_eq_strict]

/-- Scan-in starts exactly where every record of the hull passes its checks. -/
theorem beginRestore_isRight (h : Nat) (s : State) : (beginRestore h s).isRight =
    (List.range (s.hull h).pods.length).all (fun l => recordGood s h ((s.hull h).saves.getD l 0)) := by
  have e : (List.range (s.hull h).pods.length).all (fun l => recordGood s h ((s.hull h).saves.getD l 0)) =
      (badRecords s h).isEmpty := by
    unfold badRecords
    rw [Bool.eq_iff_iff, List.isEmpty_iff, List.filter_eq_nil_iff, List.all_eq_true]
    simp
  rw [e]
  unfold beginRestore
  simp only
  split <;> rename_i hf <;> rw [hf] <;> rfl

end Sys2Proof.Machine
end

