-- ==== Sys2Proof/Laws/Sequencer.lean ====
section
/-! SUPPORT. Laws of the loop sequencer: what the start of a step does to tiles that have no switch pending (R141, R160). -/

namespace Sys2Proof.Machine

/-- A tile with no switch pending starts its operation list, and nothing else of the state changes. -/
theorem startTile_free (k : Nat) (s : State) (h : (s.tile k).pend = none) : startTile k s =
    s.setTile k { s.tile k with seq := { phase := 1 }, waitPop := [], waitPush := [], stalled := false } := by
  simp [startTile, h]

theorem startTile_free_pend (k j : Nat) (s : State) (h : ∀ i, (s.tile i).pend = none) :
    ((startTile k s).tile j).pend = none := by
  rw [startTile_free k s (h k)]
  simp only [State.tile, State.setTile, tget_tput]
  split
  · exact h k
  · exact h j

/-- Tiles with no switch pending all start, and no hull faults for it. -/
theorem startTiles_free (ks : List Nat) (s : State) (h : ∀ i, (s.tile i).pend = none) :
    (ks.foldl (fun s k => startTile k s) s).srv = s.srv := by
  induction ks generalizing s with
  | nil => rfl
  | cons k ks ih =>
    rw [List.foldl_cons, ih _ (fun i => startTile_free_pend k i s h), startTile_free k s (h k)]
    rfl

end Sys2Proof.Machine
end

