-- ==== Sys2Proof/WellFormed.lean ====
section
/-! DEFINITION. Which commands are well formed: every operand within the range that the manual gives the thing it numbers.
A command of the block carries no other condition; whether it has an effect is for its meaning to say. -/

namespace Sys2Proof

/-- Numbers of the things that operands name. -/
def ringOk (r : Nat) : Bool := r < 4096
/-- The width of an access in bytes. -/
def widthOk (w : Nat) : Bool := w = 1 || w = 2 || w = 4 || w = 8
def bellOk : BellAccess → Bool
  | .write w _ => widthOk w
  | .read w => widthOk w
def fnOk (f : Nat) : Bool := f < 256
def podOk (p : Nat) : Bool := p < 80
def tileOk (t : Nat) : Bool := t < 12800
def hullOk (h : Nat) : Bool := h < 128
def engOk (e : Nat) : Bool := e < 4
def queueOk (q : Nat) : Bool := q < 16
def portOk (p : Nat) : Bool := p < 18
def deviceOk (d : Nat) : Bool := d < 64
def chanOk (c : Nat) : Bool := c < 64
def domainOk (d : Nat) : Bool := d < 100
def ftChanOk (c : Nat) : Bool := c < 256
def ftBlockOk (b : Nat) : Bool := b < 7450
def handleOk (h : Nat) : Bool := h < 2 ^ 20
def sensorOk (n : Nat) : Bool := n < 144

/-- A BAR0 offset of a 32-bit word (R18, R312). -/
def wordOff (o : Nat) : Bool := o < 0x1000000 && o % 4 = 0

/-- A stack of the N-tier or a half of the D-tier (R195, R197). -/
def unitOk (dTier : Bool) (u : Nat) : Bool := u < (if dTier then 2 else 12)

/-- A mesh coordinate pair (R50). -/
def xyOk (x y : Nat) : Bool := x < 160 && y < 80

/-- A requester's numbers. -/
def whoOk : Requester → Bool
  | .stream p e _ _ => podOk p && engOk e
  | .hullPort h => hullOk h
  | .fn f => fnOk f
  | .remote d => deviceOk d
  | .remotePf d => deviceOk d
  | .remoteHusk d => deviceOk d
  | .cxl => true
  | .husk => true

def targetOk : Target → Bool
  | .addr _ => true
  | .handle h _ _ => handleOk h

def agentOk : Agent → Bool
  | .pcie f => fnOk f
  | .husk => true

def srcOk : AccessSrc → Bool
  | .xbar _ => true
  | .direct r => whoOk r.who && targetOk r.target && r.cls < 4

/-- A codeword's step of read retry is 1 to 7 (R236). -/
def codewordOk : Codeword → Bool
  | .retry n _ => 1 ≤ n && n ≤ 7
  | _ => true

def hdrOk (h : PktHdr) : Bool := deviceOk h.src && deviceOk h.dst && h.slice < 64 && h.hop < 3 && h.cls < 4

/-- Lanes of a locked port: a mask of four, one at least. -/
def trainingOk : Training → Bool
  | .failed => true
  | .locked lanes _ polarity => 0 < lanes && lanes < 16 && polarity < 16

/-- A well-formed command. -/
def Instr.wf : Instr → Bool
  | .nop r => ringOk r
  | .hello r => ringOk r
  | .queryDevice r => ringOk r
  | .queryRequest r => ringOk r
  | .tenantBind r => ringOk r
  | .tenantUnbind r => ringOk r
  | .budgetSet r => ringOk r
  | .budgetQuery r => ringOk r
  | .hullCreate r => ringOk r
  | .hullResize r => ringOk r
  | .hullDestroy r => ringOk r
  | .hullDrain r => ringOk r
  | .hullRestore r => ringOk r
  | .shellLoad r => ringOk r
  | .shellSelect r => ringOk r
  | .tensorDefine r => ringOk r
  | .tensorWrite r => ringOk r
  | .tensorRead r => ringOk r
  | .tensorFree r => ringOk r
  | .tensorClass r => ringOk r
  | .variantLoad r => ringOk r
  | .variantArchive r => ringOk r
  | .baseInstall r => ringOk r
  | .baseStage r => ringOk r
  | .runGraph r => ringOk r
  | .generate r => ringOk r
  | .cancel r => ringOk r
  | .fence r => ringOk r
  | .cycleTableWrite r => ringOk r
  | .cycleTableArm r => ringOk r
  | .prioritySet r => ringOk r
  | .sliceSet r => ringOk r
  | .routeQuery r => ringOk r
  | .twinArm r => ringOk r
  | .twinSwitch r => ringOk r
  | .counterSync r => ringOk r
  | .recorderArm r => ringOk r
  | .recorderClear r => ringOk r
  | .traceMask r => ringOk r
  | .sampleStart r => ringOk r
  | .sampleStop r => ringOk r
  | .telemetryRead r => ringOk r
  | .powerPolicy r => ringOk r
  | .rampSet r => ringOk r
  | .lifecycleAdvance r => ringOk r
  | .wipe r => ringOk r
  | .firmwareStage r => ringOk r
  | .firmwareActivate r => ringOk r
  | .sqDoorbell f r o a => fnOk f && ringOk r && o < 4096 && bellOk a
  | .cqDoorbell f r o a => fnOk f && ringOk r && o < 4096 && bellOk a
  | .ringEnable f r _ => fnOk f && ringOk r
  | .ringDisable f r _ => fnOk f && ringOk r
  | .sqFetch r d => ringOk r && (match d with | .entries es => es.length ≤ 64 | .failed => true)
  | .interruptCoalesceTimeout r => ringOk r
  | .msixVectorUnmask f v => fnOk f && v < 2048
  | .vfFlr f => fnOk f && f ≠ 0
  | .pfFlr => true
  | .bdpWindowWrite f c _ _ _ => fnOk f && chanOk c
  | .bdpWindowRead f c _ _ => fnOk f && chanOk c
  | .bdpBufferDrain c => chanOk c
  | .devCtrSelWrite f _ => fnOk f
  | .counterClear f _ => fnOk f
  | .counterClearAll f => fnOk f
  | .cxlDecoderCommit _ => true
  | .cxlDecoderDecommit => true
  | .cxlMemRead _ n => 0 < n
  | .cxlMemWrite _ d => d ≠ []
  | .bar0LowHalfRead f r => fnOk f && (match r with | .half o => wordOff o | .whole o => wordOff o)
  | .bar0HighHalfRead f o => fnOk f && wordOff o
  | .bar0LowHalfWrite f o _ => fnOk f && wordOff o
  | .bar0HighHalfWrite f o _ => fnOk f && wordOff o
  | .bar0BadAccess f o w _ => fnOk f && o < 0x1000000 && 0 < w
  | .registerWrite a o _ _ _ => agentOk a && wordOff o
  | .heatLookupWrite f _ => fnOk f
  | .ftBlkSelWrite f _ => fnOk f
  | .fabInstallCommit f _ => fnOk f
  | .evrWindowAutoRead f => fnOk f
  | .logEnable f => fnOk f
  | .logTailWrite f _ => fnOk f
  | .logEntryWrite _ => true
  | .spdmRequest _ => true
  | .i3cRead o => o < 256
  | .boundaryScanInstruction _ => true
  | .streamStop p e => podOk p && engOk e
  | .quiescenceReached h => hullOk h
  | .shellLoadDone p => podOk p
  | .scanOutDone p => podOk p
  | .scanInDone p => podOk p
  | .endOp t => tileOk t
  | .repeatOp t => tileOk t
  | .waitOp t => tileOk t
  | .inGraphFence t => tileOk t
  | .planeRun o => tileOk o.tile
  | .streamOp t => tileOk t
  | .sop t => tileOk t
  | .vint t => tileOk t
  | .vfp t => tileOk t
  | .vxlane t => tileOk t
  | .vcvt t => tileOk t
  | .vload o => tileOk o.tile
  | .vstore o => tileOk o.tile
  | .vpush t => tileOk t
  | .vpop t => tileOk t
  | .vsfu t => tileOk t
  | .hullFaultHandling h => hullOk h
  | .stepStart h => hullOk h
  | .stepBoundaryReached t => tileOk t
  | .queueEntrySend t q => tileOk t && queueOk q
  | .creditReturnSend t q => tileOk t && queueOk q
  | .meshFlitForward x y o b => xyOk x y && o.out < 5 && b.buffer.length ≤ 9 && b.link.length ≤ 9
  | .dataFlitArrive t => tileOk t
  | .creditFlitArrive t => tileOk t
  | .sfuGrant p k => podOk p && k < 10
  | .sfuResultWrite t => tileOk t
  | .stall h => hullOk h
  | .chunkIssue p e => podOk p && engOk e
  | .streamResume e _ => podOk e.pod && engOk e.eng
  | .chunkResponse p e => podOk p && engOk e
  | .descriptorComplete p e => podOk p && engOk e
  | .tierAccess src => srcOk src
  | .arbiterGrant _ _ _ _ _ => true
  | .tierAccessEnd _ => true
  | .ceWriteback _ _ => true
  | .recoveryComplete _ _ => true
  | .accessDeadlineExpiry _ => true
  | .perBankRefresh d u _ => unitOk d u
  | .calibrationWindow u _ => unitOk u.dTier u.unit
  | .calOverdue d u => unitOk d u
  | .scrubRead _ _ => true
  | .frameBoundary => true
  | .slotBoundary => true
  | .promotionStart h => handleOk h
  | .moveComplete (.done h _) => handleOk h
  | .moveComplete (.late h _) => handleOk h
  | .ftChunkRead _ cs => cs.all codewordOk
  | .ftProgramDone cs => cs.all ftChanOk
  | .ftEraseDone p _ _ => ftChanOk p.channel && ftBlockOk p.block
  | .ftScrub p _ _ _ => ftChanOk p.channel && ftBlockOk p.block
  | .blockRelocationDone w => ftChanOk w.channel
  | .compaction => true
  | .staticLevelling c => ftChanOk c
  | .ftChannelFailure c => ftChanOk c
  | .boundaryReport h r => hullOk h && r.dev < 64 && (match r.fate with | .failed st _ => st < 65536 | _ => true)
  | .stepCommit h => hullOk h
  | .startNotice h p => hullOk h && 1 ≤ p.rowsUsed && p.rowsUsed ≤ 4096
  | .emitEntry p => podOk p
  | .servingPortEntry p k => podOk p && k < 64
  | .expertDispatch h _ => hullOk h
  | .kvAdmission h => hullOk h
  | .fabricFlitReceive p _ => portOk p
  | .ackTimer p => portOk p
  | .laneLockLoss p l => portOk p && l < 4
  | .laneRetrain p l _ => portOk p && l < 4
  | .portDetect p _ => portOk p
  | .portTrainingDone p t => portOk p && trainingOk t
  | .peerCheck p i => portOk p && deviceOk i.id && portOk i.port
  | .linkRetrainTimer p => portOk p
  | .crossedRecheck p _ => portOk p
  | .cableRemoved p => portOk p
  | .linkDownDetect p => portOk p
  | .routeUpdate u => deviceOk u.origin && u.slice < 64
  | .pathChangeRelease d => deviceOk d
  | .remoteRequest h _ _ _ => hdrOk h
  | .remoteResponse h _ => hdrOk h
  | .fabricTimeout _ => true
  | .queueOpen h x y q => hdrOk h && xyOk x y && queueOk q
  | .queueGrant h _ => hdrOk h
  | .queueEntry h x y q _ => hdrOk h && xyOk x y && queueOk q
  | .queueCredit h p r _ => hdrOk h && podOk p && r < 16
  | .faultNotice n => hullOk n.hull
  | .timestampExchange _ => true
  | .twinHeartbeatSend => true
  | .twinHeartbeatTimeout => true
  | .takingOverAnnounce => true
  | .epochReceive h b => h.kind < 3 && h.records = b.length
  | .epochMarkerReceive _ _ _ => true
  | .epochAckReceive _ => true
  | .snapshotApplied => true
  | .twinArmTimeout => true
  | .twaFault c => c < 8
  | .hullPeerLoss d => deviceOk d
  | .powerGood => true
  | .inputUndervoltage => true
  | .inputOutOfRange => true
  | .perstAssert => true
  | .hotReset => true
  | .pcieLinkDown => true
  | .mgmtWatchdogExpiry => true
  | .resetReq => true
  | .tripRecovery => true
  | .imageVerify => true
  | .huskStart => true
  | .systemLoad => true
  | .dramTrain => true
  | .bootWipe => true
  | .tensorRegistration => true
  | .bootReady => true
  | .guardianSample g => g.sensors.all (fun r => sensorOk r.sensor) && g.p54 < 64 && g.rtn < 64
  | .guardianRestore p => podOk p
  | .rampGrant => true
  | .podPointChangeDone p => podOk p
  | .domainPowerUpDone d => domainOk d
  | .podIdleTimeout p => podOk p
  | .inputShort => true
  | .prsntBreak => true
  | .storageLowAssert => true
  | .storageLowRelease => true
  | .sidebandReversed => true
  | .eventPersist => true
  | .sampleCapture _ => true
  | .pcieLinkTrained sp w _ _ => 3 ≤ sp && sp ≤ 6 && (w = 4 || w = 8 || w = 16)
  | .vfEnableWrite _ n => n < 256
  | .hostDmaCompletion _ _ => true
  | .complementaryArm _ _ _ _ => true
  | .newSnapshotRequest _ c => c < 3
  | .twinSwitchSaveBlocks bs => bs.all (fun b => hullOk b.1)

end Sys2Proof
end

