-- ==== Sys2Proof/Tests/Slice0.lean ====
section
/-! SUPPORT. Tests: words and values from the manual's examples, the refusals of WellFormed, and a named witness for the
hypotheses of every statement. -/

namespace Sys2Proof.Tests

set_option Elab.async false

open Sys2Proof Sys2Proof.Machine

/-! ### Small states -/

/-- A command of the PF in ring 0, taken by Husk after its HELLO: opcode, and fields as (offset, bytes, value). -/
def withCmd (op : Nat) (fs : List (Nat × Nat × Nat)) (s : State) : State :=
  { s with host := { s.host with
      hello := [(0, { done := true })]
      husk := [{ ring := 0, entry := BitVec.ofNat 512 (packBytes ((0, 1, op) :: fs)), seqNo := 1 }] } }

/-- The command is next, passes the checks of R336, and `P` holds of it. -/
def Meets (op : Nat) (fs : List (Nat × Nat × Nat)) (s : State) (P : Cmd → State → Prop) : Prop :=
  ∃ c t, ready op 0 (withCmd op fs s) c t ∧ P c t

/-- The same as a test that runs. -/
def meets (op : Nat) (fs : List (Nat × Nat × Nat)) (s : State) (P : Cmd → State → Bool) : Bool :=
  match taken op 0 (rejectUndefined (withCmd op fs s)) with
  | some (c, t) => (accept c t).isNone && P c t
  | none => false

theorem meets_spec {op : Nat} {fs : List (Nat × Nat × Nat)} {s : State} {P : Cmd → State → Prop}
    [∀ c t, Decidable (P c t)] (h : meets op fs s (fun c t => decide (P c t)) = true) : Meets op fs s P := by
  unfold meets at h
  split at h
  · rename_i c t hc
    simp only [Bool.and_eq_true, Option.isNone_iff_eq_none, decide_eq_true_eq] at h
    exact ⟨c, t, ⟨hc, h.1⟩, h.2⟩
  · cases h

theorem Meets.imp {op : Nat} {fs : List (Nat × Nat × Nat)} {s : State} {P Q : Cmd → State → Prop}
    (h : Meets op fs s P) (f : ∀ c t, P c t → Q c t) : Meets op fs s Q := by
  obtain ⟨c, t, hr, hp⟩ := h
  exact ⟨c, t, hr, f c t hp⟩

/-- A device whose fuses say IN_SERVICE or DEVELOPMENT, as R414 numbers them. -/
def inState (lc : Nat) : State := State.reset.wr LC_STATE lc

/-- The units of the tiers powered and calibrated, and the F-tier powered. -/
def powered (s : State) : State :=
  ([0, 1].foldl (fun s h => s.wr32 (unitBlock true h) 3) ((List.range 12).foldl (fun s k => s.wr32 (unitBlock false k) 3) s)).wr32 FT_STATUS 1

/-- A device past its start: an interface version, and its tiers powered. -/
def upState : State := powered (State.reset.wr32 DEV_IFVER 0x0100)

/-- Tenant slot 0 bound to the PF. -/
def bound0 (s : State) : State := s.setSlot 0 { bound := true, identity := 7 }

/-- Handle 1: 4,096 bytes in the D-tier at 0. -/
def dTensor : Tensor := { valid := true, inD := true, origin := 1, elem := 4096 }
def oneTensor : State := (powered State.reset).setTensor 1 dTensor

/-- Handle 1 as a package of one pod, one configuration and one N-tier region. -/
def pkgState : State :=
  { oneTensor with tier := { oneTensor.tier with
      dWritten := [(0, true)], dmem := [(0x10, 1#8), (0x11, 1#8), (0x20, 0x40#8), (0x28, 1#8), (0x40, 2#8)] } }

/-- Hull 0, its lead device, on pod 0. -/
def aHull : Hull := { live := true, pods := [0], rows := 8, kvb := 1, pkg := 1, configs := 1 }
def hullState (h : Hull) : State := bound0 (pkgState.setHull 0 h)

/-- A request of ring 0 with SEQ 5 runs on the lead device of its hull, which is another. -/
def elsewhere5 : State := { State.reset with srv := { elsewhere := [(0, 5)] } }

/-! ### Commands -/

theorem witness_device :
    Meets 0x00 [] State.reset (fun _ _ => True) ∧
    Meets 0x01 [(12, 2, 0x0100)] upState (fun c t =>
      (logGenerate 3 0 0 (BitVec.ofNat 384 (packBytes [(0, 1, c.fn), (1, 2, c.p 12 2), (8, 8, c.p 16 8)])) t).boot.recovery = false ∧
      (logGenerate 3 0 0 (BitVec.ofNat 384 (packBytes [(0, 1, c.fn), (1, 2, c.p 12 2), (8, 8, c.p 16 8)])) t).boot.helloPark = false ∧
      c.fn = 0 ∧ bits (c.p 12 2) 8 8 = bits ((logGenerate 3 0 0
        (BitVec.ofNat 384 (packBytes [(0, 1, c.fn), (1, 2, c.p 12 2), (8, 8, c.p 16 8)])) t).rd32 DEV_IFVER) 8 8) ∧
    Meets 0x02 [(20, 4, 256)] State.reset (fun c _ => c.p 24 1 = 0) ∧
    Meets 0x02 [(20, 4, 64), (24, 1, 1), (28, 8, 1)] oneTensor (fun c t => c.p 24 1 = 1 ∧ hrefBad t (c.p 28 8) 28 = none) ∧
    Meets 0x02 [(20, 4, 256), (24, 1, 2)] (hullState aHull) (fun c t => c.p 24 1 = 2 ∧ (t.hull c.hull).live = true ∧
      (t.hull c.hull).destroying = false) ∧
    Meets 0x03 [(14, 2, 5), (16, 8, 64)] (State.reset.setRequest 9 { used := true, state := 5, entry := BitVec.ofNat 512 (5 * 2 ^ 16) })
      (fun c t => t.srv.elsewhere.contains (c.p 12 2, c.p 14 2) = false ∧ findRequest t (c.p 12 2) (c.p 14 2) = some 9) ∧
    Meets 0x03 [(14, 2, 5)] elsewhere5 (fun c t => t.srv.elsewhere.contains (c.p 12 2, c.p 14 2) = true) ∧
    Meets 0x04 [(12, 4, 7)] State.reset (fun c t =>
      (boundSlots t).find? (fun n => (t.slot n).identity = c.p 12 4) = none ∧ freeSlot t = some 0) ∧
    Meets 0x05 [] (bound0 State.reset) (fun c t => (t.slot c.tenant).bound = true ∧ (slotRequests t c.tenant).length = 0 ∧
      (handles t).any (fun h => (t.tensor h).bound && (t.tensor h).tenant = c.tenant) = false) ∧
    Meets 0x06 [(12, 4, 10)] (bound0 State.reset) (fun c t => (t.slot c.tenant).bound = true) ∧
    Meets 0x07 [(12, 8, 64)] (bound0 State.reset) (fun c t => (t.slot c.tenant).bound = true ∧ c.p 12 8 ≠ 0) := by
  and_intros <;> exact meets_spec (by decide +kernel)

theorem witness_tensor_define :
    Meets 0x20 [(12, 1, 0), (16, 8, 64), (24, 8, 4)] upState (fun c t => (bit (c.p 13 1) 2 = false ∧ bit (c.p 13 1) 3 = false ∧
      (freeHandle t).isNone = false ∧ shapeOk (c.p 12 1) (c.p 16 8) (c.p 24 8) = true) ∧
      (defineTensor { cls := bits (c.p 13 1) 0 2, format := c.p 12 1, elem := c.p 16 8, scale := c.p 24 8 } t).isRight = true) := by
  refine Meets.imp (P := fun c t => (bit (c.p 13 1) 2 = false ∧ bit (c.p 13 1) 3 = false ∧
      (freeHandle t).isNone = false ∧ shapeOk (c.p 12 1) (c.p 16 8) (c.p 24 8) = true) ∧ freeHandle t = some 1 ∧
      (halfOn t (chooseHalf t) && decide (placeCount (copySize { cls := bits (c.p 13 1) 0 2, format := c.p 12 1, elem := c.p 16 8, scale := c.p 24 8 })
        (freeGaps t true (chooseHalf t * D_HALF) ((chooseHalf t + 1) * D_HALF)) ≠ 0)) = true)
    (meets_spec (by decide +kernel)) ?_
  rintro c t ⟨h1, h2, h3⟩
  refine ⟨h1, ?_⟩
  rw [defineTensor_isRight _ _ _ h2, allocD_isSome, allocDIn_isSome, h3]
  rfl

theorem witness_tensor :
    Meets 0x21 [(12, 8, 1), (40, 8, 4096)] oneTensor (fun c t => transferBad c true t = none ∧ c.p 21 1 = 0) ∧
    Meets 0x22 [(12, 8, 1), (40, 8, 4096)] oneTensor (fun c t => transferBad c false t = none ∧ c.p 21 1 = 0) ∧
    Meets 0x21 [(12, 8, 1), (21, 1, 1), (40, 8, 64)] (oneTensor.wr32 (BDP_OWNER 0) 256) (fun c t => transferBad c true t = none ∧ c.p 21 1 = 1) ∧
    Meets 0x22 [(12, 8, 1), (21, 1, 1), (40, 8, 64)] (oneTensor.wr32 (BDP_OWNER 0) 256) (fun c t => transferBad c false t = none ∧ c.p 21 1 = 1) ∧
    Meets 0x23 [(12, 8, 1 + 2 ^ 20)] oneTensor (fun c t => hrefBad t (c.p 12 8) 12 = none ∧
      (t.tensor (hrefHandle (c.p 12 8))).binds = 0 ∧ tensorInUse t (hrefHandle (c.p 12 8)) = false) ∧
    Meets 0x24 [(12, 8, 1), (20, 1, 2)] oneTensor (fun c t => hrefBad t (c.p 12 8) 12 = none ∧ c.fn = 0) ∧
    Meets 0x25 [(20, 4, 65536)] State.reset (fun c _ => bit (c.p 32 1) 0 = false) ∧
    Meets 0x25 [(20, 4, 65536), (32, 1, 1)] (bound0 State.reset) (fun c t => (t.slot c.tenant).bound = true) := by
  and_intros <;> exact meets_spec (by decide +kernel)

theorem witness_flash :
    Meets 0x26 [(20, 4, 1)] State.reset (fun c t => bit (c.p 24 1) 0 = false ∧ t.rdB FT_RESTRICTED = false) ∧
    Meets 0x26 [(24, 1, 1), (26, 2, 3)] { State.reset with flash := { archives := [(3, { live := true })] } } (fun c t =>
      bit (c.p 24 1) 0 = true ∧ (tget t.flash.archives (c.p 26 2) {}).live = true ∧ archiveInUse t (c.p 26 2) = none) ∧
    Meets 0x27 [(12, 8, 1), (36, 4, 1)] ((inState 1).setTensor 1 { dTensor with fixed := true }) (fun c t =>
      (baseHandles t).any (fun h => (t.tensor h).binds ≠ 0) = false ∧ sourceBad t (c.p 12 8) 12 = none ∧ c.p 20 8 = 0 ∧
      t.rdB FT_RESTRICTED = false) ∧
    Meets 0x28 [] State.reset (fun _ _ => True) ∧ placementOn upState = true := by
  refine ⟨?_, ?_, ?_, ?_, by decide +kernel⟩ <;> exact meets_spec (by decide +kernel)

/-- A live request of ring 0 with SEQ 5. -/
def aRequest : Request := { used := true, state := 1, entry := BitVec.ofNat 512 (5 * 2 ^ 16) }

theorem witness_request :
    Meets 0x30 [(20, 4, 65536), (36, 2, 8)] (hullState aHull) (fun c t => admitBad c t = none ∧ freeEntry t = some 0) ∧
    Meets 0x31 [(20, 4, 1), (32, 4, 1048575)] (hullState aHull) (fun c t => admitBad c t = none ∧ freeEntry t = some 0) ∧
    Meets 0x32 [(14, 2, 5)] elsewhere5 (fun c t => t.srv.elsewhere.contains (c.p 12 2, c.p 14 2) = true) ∧
    Meets 0x32 [(14, 2, 5)] (State.reset.setRequest 9 aRequest) (fun c t => t.srv.elsewhere.contains (c.p 12 2, c.p 14 2) = false ∧
      findRequest t (c.p 12 2) (c.p 14 2) = some 9 ∧ isLive (t.request 9) = true ∧ inStep t 9 = false) ∧
    Meets 0x32 [(14, 2, 5)] ((hullState { aHull with
      step := some { number := 0, start := 0, rowsUsed := 1, halfSplit := 1,
                     segs := [{ req := 9, tenant := 0, seqPos := 0, row := 0, len := 1, kind := 2, guess := [] }] } }).setRequest 9 aRequest)
      (fun c t => t.srv.elsewhere.contains (c.p 12 2, c.p 14 2) = false ∧ findRequest t (c.p 12 2) (c.p 14 2) = some 9 ∧
        isLive (t.request 9) = true ∧ inStep t 9 = true) ∧
    Meets 0x33 [] State.reset (fun _ _ => True) := by
  and_intros <;> exact meets_spec (by decide +kernel)

/-- Hull 0 drained, its save block at N-tier 0 with a sound record: REC_MAGIC, zeros and the CRC-32 of both. -/
def savedHull : State :=
  let s := hullState { aHull with drained := true, saves := [0] }
  let m := mwrite [] RECORD_OFF [0x52#8, 0x53#8, 0x44#8, 0x50#8]
  { s with tier := { s.tier with nmem := mwrite m (RECORD_OFF + 4092) [0x35#8, 0xA7#8, 0x35#8, 0xF8#8] } }

theorem witness_hull :
    Meets 0x10 [(12, 8, 1), (32, 2, 1), (40, 2, 0xFFFF), (42, 2, 0xFFFF), (46, 2, 0xFFFF)] pkgState
      (fun c t => createRefs c t = none ∧ (look (frontRanges (pkgRead t 1) 1 ++ [(hrefHandle (c.p 20 8), 0, 8 * c.p 28 4)]) t).1 = none ∧
        createBad c (look (frontRanges (pkgRead t 1) 1 ++ [(hrefHandle (c.p 20 8), 0, 8 * c.p 28 4)]) t).2.2 = none) ∧
    Meets 0x11 [(12, 8, 1)] (hullState aHull) (fun c t => hullBad t c.hull false false true = none ∧
      (runOf t c.hull).isSome = false ∧ hrefBad t (c.p 12 8) 12 = none ∧ (look (frontRanges (pkgRead t 1) 1) t).1 = none) ∧
    Meets 0x12 [] (hullState { aHull with fault := some 1 }) (fun c t => hullBad t c.hull true true true = none) ∧
    Meets 0x13 [] (hullState aHull) (fun c t => hullBad t c.hull true true false = none ∧ (runOf t c.hull).isSome = false) ∧
    Meets 0x15 [(12, 8, 1), (21, 1, 3)] (hullState aHull) (fun c t => hullBad t c.hull false false false = none ∧
      hrefBad t (c.p 12 8) 12 = none ∧ hrefHandle (c.p 12 8) = 1 ∧ (look [(1, 0, 64)] t).1 = none ∧
      (runOf (look [(1, 0, 64)] t).2.2 c.hull).isSome = false ∧ slotBusy (look [(1, 0, 64)] t).2.2 c.hull (c.p 21 1) = false ∧
      pkGraph (pkgRead (look [(1, 0, 64)] t).2.2 1) = ((look [(1, 0, 64)] t).2.2.hull c.hull).graph.toNat ∧
      pkPods (pkgRead (look [(1, 0, 64)] t).2.2 1) = ((look [(1, 0, 64)] t).2.2.hull c.hull).pods.length ∧
      pkMulti (pkgRead (look [(1, 0, 64)] t).2.2 1) = ((look [(1, 0, 64)] t).2.2.hull c.hull).multi ∧
      c.p 20 1 < pkConfigs (pkgRead (look [(1, 0, 64)] t).2.2 1)) ∧
    Meets 0x16 [] (((hullState aHull).wr (POD_STATE 0) POD_LOADED).wr (SHL_SLOT 0 0) 2) (fun c t =>
      hullBad t c.hull false false false = none ∧
      (t.hull c.hull).pods.any (fun p => t.rd (POD_STATE p) ≠ POD_LOADED) = false ∧ hullRuns t c.hull = false ∧
      activePersists t c.hull = false ∧
      (t.hull c.hull).pods.any (fun p => (reachableSlots t c.hull (c.p 12 1)).any (fun n => t.rd (SHL_SLOT p n) < 2)) = false) := by
  and_intros <;> exact meets_spec (by decide +kernel)

theorem witness_hull_restore :
    Meets 0x14 [] (savedHull.wr (POD_STATE 0) POD_HALTED) (fun c t => (hullBad t c.hull false true false = none ∧ (t.hull c.hull).drained = true ∧ (runOf t c.hull).isSome = false ∧
      (t.hull c.hull).pods.any (fun p => t.rd (POD_STATE p) ≠ POD_HALTED) = false) ∧
      (beginRestore c.hull (startRun (c.run (.restoring c.hull)) t)).isRight = true) := by
  simp only [beginRestore_isRight, recordGood_eq]
  exact meets_spec (by decide +kernel)

theorem witness_schedule :
    Meets 0x40 [(12, 2, 511), (14, 2, 1), (16, 1, 15)] State.reset (fun _ t => armPending t = false) ∧
    Meets 0x41 [] State.reset (fun _ t => armPending t = false ∧ shadowBad t = none ∧ canPin [] t = true ∧
      (namedOnly t (shadowBank t) (activeBank t)).filter (fun h => (t.hull h).pinned = []) = []) ∧
    Meets 0x42 [(12, 2, 4095), (14, 1, 3)] State.reset (fun _ _ => True) := by
  and_intros <;> exact meets_spec (by decide +kernel)

theorem witness_power :
    Meets 0x70 [(12, 1, 1), (16, 4, 60000), (20, 4, 2800)] State.reset (fun _ _ => True) ∧
    Meets 0x71 [(12, 4, 2000), (16, 4, 20)] State.reset (fun _ _ => True) ∧
    Meets 0x72 [(12, 1, 2), (16, 4, 0x4C435943)] State.reset (fun c t => c.p 16 4 = 0x4C435943 ∧
      transitionAllowed (t.rd LC_STATE) (c.p 12 1) = true ∧ anyHull t = false ∧ paired t = false) ∧
    Meets 0x73 [(12, 1, 6)] State.reset (fun c t => anyHull t = false ∧ bit (c.p 12 1) 0 = false) ∧
    Meets 0x73 [(12, 1, 1)] (State.reset.wr (PWR_DOMAIN 79) 1) (fun c t => anyHull t = false ∧ bit (c.p 12 1) 0 = true ∧
      domainIsOn (wipeCounters (noteWipe false false (refreshHeat (freeAllTensors t)))) 79 = true) ∧
    Meets 0x74 [(20, 4, 4096)] State.reset (fun c t => t.rdB BOOT_TRIAL = false ∧ t.boot.recovery = false ∧ c.p 20 4 ≠ 0) ∧
    Meets 0x75 [] (State.reset.wr (FW_VALID 1) 1) (fun c t => t.rdB (FW_VALID (inactiveSlot t false)) = true ∧
      t.rd MIN_SVN ≤ t.rd (FW_SVN (inactiveSlot t false)) ∧ c.p 12 1 ≠ 1) ∧
    Meets 0x75 [(12, 1, 1)] (State.reset.wr (FW_VALID 1) 1) (fun c t => paired t = false ∧ t.rdB (FW_VALID (inactiveSlot t false)) = true ∧
      t.rd MIN_SVN ≤ t.rd (FW_SVN (inactiveSlot t false)) ∧ c.p 12 1 = 1) := by
  and_intros <;> exact meets_spec (by decide +kernel)

theorem witness_fabric_commands :
    Meets 0x51 [(20, 4, 1112)] State.reset (fun _ _ => True) ∧
    Meets 0x50 [(12, 1, 63)] State.reset (fun c t => (∀ h < 128, (t.hull h).live = false ∨ (t.hull h).multi = false) ∧
      (linksChanged (t.wr FAB_SLICE (c.p 12 1))).rdB FAB_VALID = false) ∧
    Meets 0x50 [(12, 1, 63)] (State.reset.wr FAB_VALID 1) (fun c t =>
      (∀ h < 128, (t.hull h).live = false ∨ (t.hull h).multi = false) ∧
      (linksChanged (t.wr FAB_SLICE (c.p 12 1))).rdB FAB_VALID = true) ∧
    Meets 0x54 [] State.reset (fun c t => c.p 12 1 = 0 ∧ parentPort t = none) ∧
    Meets 0x54 [] ((State.reset.wr FAB_VALID 1).wr (PORT_STATE 15) 5) (fun c t =>
      c.p 12 1 = 0 ∧ (parentPort t).isSome = true) ∧
    Meets 0x54 [(12, 1, 1), (16, 4, 50)] State.reset (fun c _ => c.p 12 1 ≠ 0) := by
  and_intros <;> exact meets_spec (by decide +kernel)

theorem witness_twin_commands :
    Meets 0x52 [] (inState 2) (fun c _ => c.p 12 1 = 0) ∧
    Meets 0x52 [(12, 1, 1)] (inState 2) (fun c t => c.p 12 1 = 1 ∧ mirroring t = false ∧ t.twin.armed = none ∧
      mirroring (startRun (c.run (.arming true (t.rd TWIN_STATE) false)) (sendTwin (.arm true (twinFuse t) (ifMajor t) (ifMinor t)) t)) = false ∧
      (startRun (c.run (.arming true (t.rd TWIN_STATE) false)) (sendTwin (.arm true (twinFuse t) (ifMajor t) (ifMinor t)) t)).twin.armed = none) ∧
    Meets 0x53 [] (((inState 2).wr TWIN_ACTIVE 1).wr TWIN_STATE 3) (fun _ t =>
      t.rdB TWIN_ACTIVE = true ∧ t.rd TWIN_STATE = 3 ∧ hullCommands t = false) := by
  and_intros <;> exact meets_spec (by decide +kernel)

theorem witness_observation_commands :
    Meets 0x60 [(12, 8, 2 ^ 64 - 1)] State.reset (fun _ _ => True) ∧
    Meets 0x61 [] State.reset (fun _ _ => True) ∧
    Meets 0x62 [(12, 2, 1023), (14, 2, 1), (16, 1, 1)] State.reset (fun _ _ => True) ∧
    Meets 0x65 [(20, 4, 0xFFFFFFFF)] State.reset (fun c t =>
      (telemetryPage t (c.p 24 1)).any (fun x => decide (x.1 ≤ c.p 20 4)) = true) ∧
    Meets 0x63 [(20, 4, 4096), (24, 4, 10), (28, 10, 1)] State.reset (fun _ _ => True) ∧
    Meets 0x64 [] (State.reset.wr SMP_RUNNING 1) (fun _ t => t.rdB SMP_RUNNING = true) ∧
    Meets 0x64 [] State.reset (fun _ t => t.rdB SMP_RUNNING = false) := by
  and_intros <;> exact meets_spec (by decide +kernel)

/-! ### Intake and the whole machine -/

/-- HULL_CREATE waits in ring 0 while another command of its group runs; an entry of an undefined opcode stands in ring 0. -/
def groupHeld : State :=
  { withCmd 0x10 [] State.reset with host := { (withCmd 0x10 [] State.reset).host with
      running := [{ ring := 1, fn := 0, entry := BitVec.ofNat 512 0x10, seqNo := 0, kind := .creating 0 0 }] } }

theorem witness_waits_its_turn :
    (hostOp (.nop 4095) = some (0, 4095) ∧ (startHeld 0 4095 (rejectUndefined State.reset)).isNone = true ∧
      (takeCmd 0 4095 (rejectUndefined State.reset)).isNone = true) ∧
    (hostOp (.hullCreate 0) = some (0x10, 0) ∧ (startHeld 0x10 0 (rejectUndefined groupHeld)).isNone = true ∧
      (takeCmd 0x10 0 (rejectUndefined groupHeld)).any (fun x => groupWaits x.2 0x10) = true) ∧
    ((huskNext (withCmd 0xFF [] State.reset)).any (fun f => (opSpec (entryOpcode f.entry)).isNone) = true) ∧
    ((huskNext (withCmd 0x00 [] State.reset)).all (fun f => (opSpec (entryOpcode f.entry)).isSome) = true) := by decide +kernel

theorem witness_rejected : hostOp (.tenantBind 0) = some (4, 0) ∧
    ((taken 4 0 (rejectUndefined { withCmd 0x04 [] State.reset with host := { (withCmd 0x04 [] State.reset).host with hello := [] } })).bind
      (fun x => accept x.1 x.2)) = some (ST_DEVICE_STATE, 1) := by decide +kernel

/-- A command by its opcode, function and fields. -/
def aCmd (op fn : Nat) (fs : List (Nat × Nat × Nat)) : Cmd :=
  { ring := 0, fn, e := BitVec.ofNat 512 (packBytes ((0, 1, op) :: fs)), seqNo := 1 }

def rowOf (op : Nat) : OpSpec := (opSpec op).getD {}

theorem witness_acceptance :
    (opSpec 0xFF).isNone = true ∧
    ((opSpec 0x00).isSome = true ∧ (State.reset.wr BOOT_PARKED 1).rdB BOOT_PARKED = true ∧ parkedOp 0x00 = false) ∧
    ((opSpec 0x10).isSome = true ∧ State.reset.rdB BOOT_PARKED = false ∧
      deniedField State.reset (aCmd 0x10 1 []) 0x10 (rowOf 0x10) = some 0) ∧
    (State.reset.rdB BOOT_PARKED = false ∧ deniedField (inState 2) (aCmd 0x27 0 []) 0x27 (rowOf 0x27) = none ∧
      lifeAccepts ((inState 2).rd LC_STATE) 0x27 = false) ∧
    (lifeAccepts 1 0 = true ∧ deniedField ((withCmd 0 [] State.reset).wr TWIN_STATE 3) (aCmd 0x04 0 []) 0x04 (rowOf 0x04) = none ∧
      (tget ((withCmd 0 [] State.reset).wr TWIN_STATE 3).host.hello 0 {}).done = true ∧
      isStandby ((withCmd 0 [] State.reset).wr TWIN_STATE 3) = true ∧ standbyAdmits (aCmd 0x04 0 []) 0x04 = false) ∧
    (deniedField (withCmd 0 [] State.reset) (aCmd 0 0 [(63, 1, 1)]) 0 (rowOf 0) = none ∧ isStandby (withCmd 0 [] State.reset) = false ∧
      badField (aCmd 0 0 [(63, 1, 1)]) 0 (rowOf 0) = some 63) := by decide +kernel

/-! ### Power, boot and the sideband -/

def noPower : State := { State.reset with pwr := { good := false } }

/-- The PCIe link trained. -/
def linked (s : State) : State := { s with host := { s.host with linkUp := true } }

/-- RESET_REQ# low since counter 3. -/
def resetLow : State := { State.reset with pwr := { resetLow := some 3 } }

theorem witness_reset_events :
    (noPower.pwr.good = false ∧ noPower.pwr.reversed = false) ∧
    (State.reset.pwr.good = true ∧ State.reset.pwr.reversed = false ∧ State.reset.pwr.resetLow = none) ∧
    (resetLow.pwr.good = true ∧ resetLow.pwr.reversed = false ∧ resetLow.pwr.resetLow = some 3 ∧
      resetLow.counter.toNat < 3 + 110000000) ∧
    ((linked State.reset).host.linkUp = true ∧ (linked State.reset).pwr.good = true) ∧
    (5 ≤ { State.reset with boot := { done := 5 } : State }.boot.done ∧
      { State.reset with boot := { done := 5 } : State }.boot.recovery = false) ∧
    ({ State.reset with pwr := { tripped := true, temps := [(3, 85 * 16)] } : State }.pwr.tripped = true ∧
      { State.reset with pwr := { tripped := true, temps := [(3, 85 * 16)] } : State }.pwr.temps.all
        (fun x => signed x.2 16 ≤ 85 * 16) = true) := by decide +kernel

/-- A step of the power-up sequence done. -/
def bootAt (n : Nat) : State := { State.reset with boot := { done := n } }

/-- No firmware slot holds an image. -/
def noImage : State := ((bootAt 1).wr (FW_VALID 0) 0).wr (FW_VALID 1) 0

theorem witness_boot_steps :
    ((bootAt 1).boot.done = 1 ∧ (bootAt 1).pwr.present = true ∧ rampReady (.domainOn 98) (accrue (bootAt 1)) = true ∧
      (chooseImage (accrue (bootAt 1))).slot = some 0) ∧
    (noImage.boot.done = 1 ∧ noImage.pwr.present = true ∧ rampReady (.domainOn 98) (accrue noImage) = true ∧
      (chooseImage (accrue noImage)).slot = none) ∧
    ((State.reset.wr BOOT_TRIAL 1).rdB BOOT_TRIAL = true ∧ State.reset.rdB BOOT_TRIAL = false) ∧
    ((bootAt 4).boot.recovery = false ∧ bits ((recordEvent 0x0801 none none
      (payload [(32, 1, (enterPhase 2 5 ((bootAt 4).wr32 DEV_IFVER ((bootAt 4).rd (FW_VERSION ((bootAt 4).rd BOOT_SLOT))))).rd PWR_RESET_CAUSE),
        (34, 2, (enterPhase 2 5 ((bootAt 4).wr32 DEV_IFVER ((bootAt 4).rd (FW_VERSION ((bootAt 4).rd BOOT_SLOT))))).boot.prevTime)])
      (enterPhase 2 5 ((bootAt 4).wr32 DEV_IFVER ((bootAt 4).rd (FW_VERSION ((bootAt 4).rd BOOT_SLOT)))))).rd32 PWR_BOOT_STATUS) 13 2 = 0) ∧
    ((bootAt 7).boot.done = 7 ∧ ((List.range 14).foldl (fun (s : State) i => s.wr (PWR_DOMAIN (84 + i)) 1) (bootAt 7)).boot.done = 7 ∧
      (List.range 14).all (fun i => domainIsOn ((List.range 14).foldl (fun (s : State) i => s.wr (PWR_DOMAIN (84 + i)) 1) (bootAt 7)) (84 + i)) = true) ∧
    (((bootAt 8).wr FT_BASE_VALID 1).boot.done = 8 ∧ ((bootAt 8).wr FT_BASE_VALID 1).rdB FT_BASE_VALID = true) ∧
    ((bootAt 9).boot.done = 9 ∧ (bootAt 9).pwr.secondTrip = false ∧ (bootAt 9).pwr.good = true) ∧
    ((bootAt 5).boot.done = 5 ∧ (bootAt 6).boot.done = 6) := by decide +kernel

def podLowered : State := (State.reset.wr (POD_LIMIT_POINT 79) 8)
def rampAsked : State := { State.reset with pwr := { ramp := [.domainOn 80] } }
def podRising : State := { State.reset with pwr := { rising := [79] } }
def pointRaised : State := ((State.reset.setPod 79 { changing := true, rampPoint := 9 }).wr (POD_REQ_POINT 79) 9).wr (POD_LIMIT_POINT 79) 9

theorem witness_power_events :
    (podLowered.pwr.good = true ∧ podLowered.rd (POD_LIMIT_POINT 79) < 9 ∧ podLowered.pwr.badSensors.contains 79 = false ∧
      20 ≤ (podLowered.pod 79).sinceStep ∧ (podLowered.pod 79).hot = false ∧ (podLowered.pod 79).drawn = false ∧
      podLowered.pwr.ramp.contains (.restore 79) = false) ∧
    (rampAsked.pwr.tripped = false ∧ rampAsked.pwr.present = true ∧ rampHead (accrue rampAsked) = some (.domainOn 80, []) ∧
      waitsMesh (accrue rampAsked) (.domainOn 80) = false ∧
      (min (rampStep (.domainOn 80) * 100000) (rampDepth (accrue rampAsked)) : Nat) ≤ (accrue rampAsked).pwr.budget) ∧
    (podRising.pwr.rising.contains 79 = true) ∧
    ((pointRaised.pod 79).changing = true ∧ pointRaised.rd (POD_EFF_POINT 79) < targetPoint pointRaised 79) ∧
    ((State.reset.wr PWR_POD_IDLE 1).rdB PWR_POD_IDLE = true ∧ ((State.reset.wr PWR_POD_IDLE 1).wr (POD_STATE 79) POD_IDLE).rd (POD_STATE 79) = POD_IDLE ∧
      podFree ((State.reset.wr PWR_POD_IDLE 1).wr (POD_STATE 79) POD_IDLE) 79 = true ∧
      domainNeeded ((State.reset.wr PWR_POD_IDLE 1).wr (POD_STATE 79) POD_IDLE) 79 = false ∧
      ((State.reset.wr PWR_POD_IDLE 1).wr (POD_STATE 79) POD_IDLE).pwr.ramp.contains (.domainOff 79) = false) ∧
    (State.reset.rdB PWR_STORAGE_LOW = false ∧ (State.reset.wr PWR_STORAGE_LOW 1).rdB PWR_STORAGE_LOW = true) := by
  decide +kernel

def aSample (t : Int) : GuardSample :=
  { volts := 5400, power := 500, current := 10, sensors := [{ sensor := 127, temp := t, current := 0 }], rails := [], p54 := 63, rtn := 63 }

theorem witness_guardian_sample :
    tripSensor (aSample 0) (railFaults (aSample 0) (noteInput (aSample 0) (noteReadings (aSample 0) State.reset))) = none ∧
    tripSensor (aSample 2047) (railFaults (aSample 2047) (noteInput (aSample 2047) (noteReadings (aSample 2047) State.reset)))
      = some { sensor := 127, temp := 2047, current := 0 } := by decide +kernel

theorem witness_sideband :
    (5 ≤ (bootAt 5).boot.done ∧ (bootAt 5).boot.recovery = false ∧ (bootAt 5).pwr.good = true) ∧
    (State.reset.pwr.reversed = false ∧ (inState 0).rd LC_STATE = 0 ∧ (inState 2).rd LC_STATE ≠ 0) := by decide +kernel

/-! ### Host reads, registers, rings and channels -/

/-- A state with one DMA read outstanding, of 64 bytes, and a running FENCE of order of arrival 5. -/
def dmaState (u : DmaUse) : State := { State.reset with host := {
  dma := [{ tag := 3, fn := 0, addr := 64, len := 64, use := u }],
  running := [{ ring := 0, fn := 0, entry := 0, seqNo := 5, kind := .fencing 5 false }] } }

/-- That read, of 64 bytes, and one of 8,192 from the same address. -/
def aRead (u : DmaUse) (len : Nat) : DmaRead := { tag := 3, fn := 0, addr := 64, len, use := u }
def longRead : State := { State.reset with host := { dma := [aRead (.command 5) 8192] } }

theorem witness_dma_completion :
    ((dmaState (.command 5)).host.dma.find? (fun d => d.tag = 3 && d.issued) = some (aRead (.command 5) 64) ∧
      (zeros 64).length = (aRead (.command 5) 64).piece ∧ 64 ≤ (aRead (.command 5) 64).got.length + (zeros 64).length ∧
      (findRun (dropReads (fun d => d.tag = 3) (dmaState (.command 5))) (fun x => x.seqNo = 5)).isSome = true) ∧
    ((dmaState (.staging 0 0 0 1)).host.dma.find? (fun d => d.tag = 3 && d.issued) = some (aRead (.staging 0 0 0 1) 64)) ∧
    (longRead.host.dma.find? (fun d => d.tag = 3 && d.issued) = some (aRead (.command 5) 8192) ∧
      (zeros 4032).length = (aRead (.command 5) 8192).piece ∧
      (aRead (.command 5) 8192).got.length + (zeros 4032).length < 8192) := by decide +kernel

/-- RING_SQ_BASE of a ring that function 1 does not own. -/
def RING1_BASE : Nat := RING_SQ_BASE 1

/-- A device right after reset, its link trained. -/
def live : State := linked State.reset

def latched : State := (live.setLatch 9 { held := true, off := 8, high := 1 }).setBuffer 0 { held := true, off := 0x60, high := 1 }

theorem witness_register_access :
    (isLow 8 = true ∧ visible live 255 8 = true) ∧
    (isHigh 0xC = true ∧ (latched.latch 9).held = true ∧ (latched.latch 9).off + 4 = 0xC) ∧
    (isHigh 0 = false ∧ (live.latch 9).held = false) ∧
    (visible live 0 8 = true ∧ isPodWindow 8 = false ∧ visible live 0 0xC = true ∧ isPodWindow 0xC = false) ∧
    ({ live.setBuffer 0 { held := true, off := 8, high := 1 } with free := 0 }.buffer 0).off + 4 = 0xC ∧
    ((live.setBuffer 0 { held := true, off := 8, high := 1 }).buffer 0).held = true ∧ (live.buffer 0).held = false ∧
    (isLow 0 = false ∧ isHigh 0 = false) ∧ isPodWindow 0x400 = false ∧
    (visible live 1 0x1000 = false ∧ reservedOff 0x1000 = false) ∧
    (visible live 1 0xFFFFFC = false ∧ reservedOff 0xFFFFFC = true) ∧
    (goodAccess 2 4 = false ∧ goodAccess 0 8 = false ∧ goodAccess 0xFFFFFC 4 = true ∧ goodAccess 8 8 = true) ∧
    (isLow RING1_BASE = true ∧ visible live 1 RING1_BASE = false ∧ visible live 1 (RING1_BASE + 4) = false) ∧
    (linkLive live = true ∧ linkLive latched = true ∧ linkLive State.reset = false) := by decide +kernel

/-- The PF has selected the companion of FALLBACK. -/
def counting : State :=
  { live with host := { live.host with ctrSel := [(0, BitVec.ofNat 32 (PWR_BOOT_STATUS + 13 * 2 ^ 24))], ctrVal := [(0, 0x80000000#32)] } }

theorem witness_register_rows :
    (linkLive counting = true ∧ bit (tget counting.host.ctrVal 0 0#32).toNat 31 = true ∧
      ctrValid ((counting.setCompanion (ctrOff counting 0) (ctrBit counting 0) 0).raise (ctrOff counting 0) (ctrBit counting 0)) 0 = true) ∧
    (linkLive live = true ∧ live.rd LC_STATE = 1 ∧ bit (0x40#64).toNat 6 = true) ∧ 2047 < 2048 := by decide +kernel

/-- Ring 4095 of 16 entries, enabled and linked, with its four pointers; ready. -/
def bells (sqHead sqTail cqHead cqTail : Nat) : State :=
  ((((((live.wr (RING_SIZE 4095) 4).wr (RING_ENABLE 4095) 1).wr (RING_SQ_HEAD 4095) sqHead).wr (RING_SQ_TAIL 4095) sqTail).wr
    (RING_CQ_HEAD 4095) cqHead).wr (RING_CQ_TAIL 4095) cqTail).wr BOOT_READY 1
def ringState (tail : Nat) : State := bells 0 tail 0 3

/-- Ring 4095 disabled and quiescent. -/
def quietRing : State := (live.wr (RING_QUIESCENT 4095) 1).wr (RING_SIZE 4095) 4

/-- How far a doorbell value of a ring of 16 entries stands past either of two pointers. -/
def bellParts (v p q : Nat) : Nat × Nat := ((v + 32 - p) % 32, (v + 32 - q) % 32)

/-- The SQ doorbell's five outcomes: past 2N, no move, beyond N, moves, overrun; then the CQ doorbell's five. -/
theorem witness_doorbells :
    (linkLive (bells 0 0 0 3) = true ∧ doorbellOk (bells 0 0 0 3) 0 4095 4 = true ∧ ringSize (bells 0 0 0 3) 4095 = 16 ∧
      (bells 0 0 0 3).rd (RING_SQ_TAIL 4095) = 0 ∧ (bells 0 0 0 3).rd (RING_SQ_HEAD 4095) = 0 ∧
      (bells 0 0 0 3).rd (RING_CQ_HEAD 4095) = 0 ∧ (bells 0 0 0 3).rd (RING_CQ_TAIL 4095) = 3) ∧
    (doorbellOk (bells 0 14 0 3) 0 4095 4 = true ∧ (bells 0 14 0 3).rd (RING_SQ_TAIL 4095) = 14 ∧ (bells 0 14 0 3).rd (RING_SQ_HEAD 4095) = 0) ∧
    (doorbellOk (bells 0 0 5 8) 0 4095 4 = true ∧ (bells 0 0 5 8).rd (RING_CQ_HEAD 4095) = 5 ∧ (bells 0 0 5 8).rd (RING_CQ_TAIL 4095) = 8) ∧
    (bits (32#32).toNat 0 17 = 32 ∧ bits (16#32).toNat 0 17 = 16 ∧ bits (17#32).toNat 0 17 = 17 ∧ bits (3#32).toNat 0 17 = 3) ∧
    (bellParts 0 0 0 = (0, 0) ∧ bellParts 17 0 0 = (17, 17) ∧ bellParts 16 0 0 = (16, 16) ∧ bellParts 17 14 0 = (3, 17)) ∧
    (bellParts 3 0 0 = (3, 3) ∧ bellParts 17 0 0 = (17, 17) ∧ bellParts 8 5 5 = (3, 3) ∧ bellParts 21 5 5 = (16, 16)) := by
  decide +kernel

theorem witness_bad_doorbells : linkLive (ringState 0) = true ∧ doorbellOk (ringState 0) 1 4095 4 = false ∧
    doorbellOk (ringState 0) 0 4095 8 = false ∧ doorbellOk (ringState 0) 0 0 4 = false ∧ (8 ≠ 0 ∧ 8 ≠ 4) := by decide +kernel

theorem witness_ring_enable :
    (linkLive quietRing = true ∧ visible quietRing 0 (RING_CFG 4095) = true ∧ quietRing.rdB (RING_ENABLE 4095) = false ∧
      quietRing.rdB (RING_QUIESCENT 4095) = true ∧
      4 ≤ bits (BitVec.ofNat 32 (setBits (16#32).toNat 8 1 1) : Word).toNat 0 5 ∧
      bits (BitVec.ofNat 32 (setBits (16#32).toNat 8 1 1) : Word).toNat 0 5 ≤ 16 ∧
      bit (BitVec.ofNat 32 (setBits (16#32).toNat 8 1 1) : Word).toNat 8 = true ∧
      quietRing.rd64 (RING_SQ_BASE 4095) % 4096 = 0 ∧ quietRing.rd64 (RING_CQ_BASE 4095) % 4096 = 0) ∧
    (linkLive (ringState 0) = true ∧ visible (ringState 0) 0 (RING_CFG 4095) = true ∧
      bits (BitVec.ofNat 32 (setBits (4#32).toNat 8 1 0) : Word).toNat 0 5 = (ringState 0).rd (RING_SIZE 4095) ∧
      bit (BitVec.ofNat 32 (setBits (4#32).toNat 8 1 0) : Word).toNat 8 = false) := by decide +kernel

def coalescing : State := ((State.reset.setRingAux 4095 { coalTimer := true }).wr (RING_COAL_TIME 4095) 1).wr (RING_INT_EN 4095) 1

theorem witness_fetch :
    ((ringState 1).rdB BOOT_READY = true ∧ fetchTurn (ringState 1) 4095 = true ∧ [(0 : BitVec 512)] ≠ [] ∧
      [(0 : BitVec 512)].length ≤ fetchable (ringState 1) 4095 ∧ fetchable (ringState 1) 4095 ≠ 0) ∧
    ((coalescing.ringAux 4095).coalTimer = true ∧ coalescing.rd (RING_COAL_TIME 4095) ≠ 0 ∧ coalescing.rdB (RING_INT_EN 4095) = true) ∧
    State.reset.boot.mute = false := by decide +kernel

def vfs : State := (State.reset.wr VF_ENABLE 1).wr NUM_VFS 255

/-- The link with CXL, and a window of 1 GiB. -/
def cxlState : State := ((upState.wrB ⟨0x10, 10, 1⟩ true).wr CXL_SIZE 1)
def cxlWindow : State := { cxlState.wr CXL_COMMITTED 1 with host := { cxlBase := 4096 } }

theorem witness_functions :
    (vfs.rdB VF_ENABLE = true ∧ 255 ≤ vfs.rd NUM_VFS ∧ State.reset.rdB VF_ENABLE = false ∧ State.reset.pwr.good = true) ∧
    (cxlOn cxlState = true ∧ cxlState.rdB CXL_COMMITTED = false ∧ cxlState.rd CXL_SIZE ≠ 0) ∧
    (cxlWindow.rdB CXL_COMMITTED = true ∧ (cxlAddr cxlWindow 4096 (2 ^ 30)).isSome = true) ∧ 255 ≤ State.reset.host.cfg.totalVfs := by
  decide +kernel

theorem witness_cxl_commit : (allocD (cxlState.rd CXL_SIZE * 2 ^ 30) .cxl cxlState).isSome = true := by
  rw [allocD_isSome, allocDIn_isSome]
  decide +kernel

/-- Channel 63 owned by function `fn`, in `mode`, its buffer empty. -/
def chanState (fn mode : Nat) : State :=
  ((live.wr32 (BDP_OWNER 63) (fn + 256)).wr32 (BDP_CTRL 63) mode).wr32 (BDP_FREE 63) 65536

/-- A write of one byte by function `fn` at cursor `g`, in mode 1 or with a global address; and it in front of channel 63. -/
def anItem (fn : Nat) (mode1 : Bool) (g : DWord) : ChanAccess := { fn, mode1, scale := false, cursor := g, data := [1#8] }
def queued (a : ChanAccess) (s : State) : State :=
  { s.wr32 (BDP_OWNER 63) (a.fn + 256) with host := { s.host with bdpBuf := [(63, [a])] } }

/-- Device 0 with a route to device 5. -/
def routed5 : State := { State.reset.wr FAB_VALID 1 with fab := { routes := [(5, { state := 1 })] } }

/-- What `locate` finds for an access: a refusal, or a place. -/
def refused (a : ChanAccess) (s : State) : Bool :=
  match locate s (.fn a.fn) a.target (opWrites a.op) with
  | .fail _ => true
  | _ => false

theorem witness_bulk_port :
    (linkLive (chanState 5 1) = true ∧ ownsChannel (chanState 5 1) 5 63 = true ∧ orderOk (chanState 5 1) 63 0 = true ∧ zeros 4096 ≠ [] ∧
      (zeros 4096).length ≤ (chanState 5 1).rd32 (BDP_FREE 63) ∧
      ((chanState 5 1).wr32 (BDP_FREE 63) 4095).rd32 (BDP_FREE 63) < (zeros 4096).length) ∧
    (linkLive (chanState 5 4) = true ∧ ownsChannel (chanState 5 4) 5 63 = true ∧ orderOk (chanState 5 4) 63 64 = false) ∧
    (bdpQueue (queued (anItem 0 false 0) State.reset) 63 = [anItem 0 false 0] ∧ bdpRemote (queued (anItem 0 false 0) State.reset) 63 = false ∧
      (queued (anItem 0 false 0) State.reset).isHere (gDevice (0 : DWord)) = true) ∧
    (bdpRemote (queued (anItem 0 false (5 * 2 ^ 58)) routed5) 63 = false ∧
      (queued (anItem 0 false (5 * 2 ^ 58)) routed5).isHere (gDevice (5 * 2 ^ 58 : DWord)) = false ∧
      reachable (queued (anItem 0 false (5 * 2 ^ 58)) routed5) (gDevice (5 * 2 ^ 58 : DWord)) = true) ∧
    (bdpQueue (queued (anItem 255 false 0) State.reset) 63 = [anItem 255 false 0] ∧
      bdpRemote (queued (anItem 255 false 0) State.reset) 63 = false) ∧
    (bdpRemote (queued (anItem 0 true 1) State.reset) 63 = false ∧ refused (anItem 0 true 1) (queued (anItem 0 true 1) State.reset) = true) ∧
    (bdpRemote (queued (anItem 0 true 1) oneTensor) 63 = false ∧ refused (anItem 0 true 1) (queued (anItem 0 true 1) oneTensor) = false ∧
      awaitsMove (queued (anItem 0 true 1) oneTensor) 1 = false ∧
      (match (hostGo 1 (queued (anItem 0 true 1) oneTensor)).1 with | .go => true | _ => false) = true) := by
  decide +kernel

/-! ### Observation, frames and flash -/

def logState : State := (State.reset.wr LOG_ENABLE 1).wr LOG_HEAD 1023
def anEntry : LogEntry := { stamp := 0, kind := 3, id := 0, seq := 0, len := 0, body := 0 }

/-- Sampling of pod 79 into a buffer of `len` bytes, `taken` samples taken. -/
def sampling (len taken : Nat) : State :=
  { State.reset.wr SMP_RUNNING 1 with obs := { sample := { len, mask := 2 ^ 79, taken } } }

/-- The recorder, loaded, with mask `m`, `n` records counted and `k` of code 0x0804 in this frame. -/
def recorder (m n k : Nat) : State :=
  { (State.reset.wr64 EVR_MASK m).wr EVR_COUNT n with obs := { loaded := true, perCode := [(0x0804, k)] } }

theorem witness_observation :
    ((recorder 0 0 0).obs.loaded = true ∧ linkLive live = true ∧ live.rdB LOG_ENABLE = false) ∧
    (linkLive (linked logState) = true ∧ (bits (1023#64).toNat 0 11 + 2048 - (linked logState).rd LOG_TAIL) % 2048 ≤
      ((linked logState).rd LOG_HEAD + 2048 - (linked logState).rd LOG_TAIL) % 2048) ∧
    (logState.rdB LOG_ENABLE = true ∧ (logState.rd LOG_HEAD + 2048 - logState.rd LOG_TAIL) % 2048 < 1024 ∧
      (nextLog { logState with obs := { log := [anEntry] } }).isSome = true) ∧
    ((List.range 80).filter (fun p => bit (2 ^ 79) p) = [79] ∧ (sampling 4096 1).rdB SMP_RUNNING = true ∧
      (sampling 4096 1).obs.sample.pos + 4096 * 1 ≤ (sampling 4096 1).obs.sample.len ∧
      (sampling 4095 1).obs.sample.len < (sampling 4095 1).obs.sample.pos + 4096 * 1 ∧ (sampling 4096 1).obs.sample.taken ≠ 0) := by
  decide +kernel

/-- The four ends of an event of code 0x0804: masked, one too many of its code, no room, written; the last fills the recorder. -/
theorem witness_recorder :
    bit ((recorder 0 0 0).rd64 EVR_MASK) (0x0804 / 256) = false ∧
    (bit ((recorder 256 0 16).rd64 EVR_MASK) (0x0804 / 256) = true ∧ 16 ≤ tget (recorder 256 0 16).obs.perCode 0x0804 0) ∧
    (bit ((recorder 256 4096 15).rd64 EVR_MASK) (0x0804 / 256) = true ∧ tget (recorder 256 4096 15).obs.perCode 0x0804 0 < 16 ∧
      4096 ≤ (recorder 256 4096 15).rd EVR_COUNT) ∧
    (bit ((recorder 256 4095 15).rd64 EVR_MASK) (0x0804 / 256) = true ∧ tget (recorder 256 4095 15).obs.perCode 0x0804 0 < 16 ∧
      (recorder 256 4095 15).rd EVR_COUNT = 4095) ∧
    (State.reset.rd EVR_COUNT = State.reset.obs.records.length ∧ State.reset.obs.records.length ≤ 4096) := by decide +kernel

def movingState : State := { oneTensor with tier := { oneTensor.tier with
  moves := [{ handle := 1, kind := MOVE_PROMOTE, cls := 2, bg := false, started := false, victims := [] }] } }

/-- Tensor 1 larger than the N-tier. -/
def tooLarge : State := movingState.setTensor 1 { dTensor with elem := 2 ^ 40 }

theorem witness_moves :
    (placementOn movingState = true ∧ [true, false].all (fun bg =>
      findMove { movingState with tier := { movingState.tier with
        moves := [{ handle := 1, kind := 1, cls := 2, bg, started := true, victims := [] }] } } 1 =
        some { handle := 1, kind := 1, cls := 2, bg, started := true, victims := [] } &&
      moveGranted movingState { handle := 1, kind := 1, cls := 2, bg, started := true, victims := [] }) = true) ∧
    (findMove movingState 1 = some { handle := 1, kind := MOVE_PROMOTE, cls := 2, bg := false, started := false, victims := [] } ∧
      (moveSpace 1 MOVE_PROMOTE movingState).isSome = true) ∧
    (placementOn tooLarge = true ∧ (findMove tooLarge 1).isSome = true ∧ (moveSpace 1 MOVE_PROMOTE tooLarge).isSome = false) ∧
    (State.reset.sched.due = 0 ∧ { State.reset with sched := { due := 2 } : State }.sched.due ≠ 0) := by
  rw [moveSpace_promote, moveSpace_promote]
  decide +kernel

/-- The F-tier powered, extent 0 in use by the base region. -/
def flashState (f : Flash) : State := { State.reset.wr32 FT_STATUS 1 with flash := { f with extents := [(0, 1)] } }

def aRow : FtRow := { seqNo := 5, row := 511, bytes := 64, data := [(0, 1#8)] }
def rowState : State := { flashState { rows := [aRow] } with host := {
  running := [{ ring := 0, fn := 0, entry := 0, seqNo := 5, kind := .archiving 1 64 1 }] } }

theorem witness_flash_read :
    (ftPlace 0).extent < EXTENTS ∧ extUse (flashState {}) (ftPlace 0).extent ≠ 0 ∧ bit ((flashState {}).rd32 FT_STATUS) 0 = true ∧
    (flashState {}).rdB (FT_FAILED (ftPlace 0).channel) = false ∧ (∀ i, i < 16 → tget (flashState {}).flash.lost (16 * 0 + i) false = false) ∧
    (List.replicate 16 (Codeword.hard 71)).length = 16 ∧ (∀ w, w ∈ List.replicate 16 (Codeword.hard 71) → ∃ n, w = .hard n ∧ n < 72) :=
  ⟨by decide +kernel, by decide +kernel, by decide +kernel, by decide +kernel, by decide +kernel, rfl,
    fun _ h => ⟨71, List.eq_of_mem_replicate h, by omega⟩⟩

def archiveState : State :=
  let s := flashState { archives := [(1, { live := true, members := [] })], openExt := some 7 }
  { s.wr32 0x220014 7 with flash := { s.flash with extents := [(3, 2)] } }

theorem witness_flash_events :
    (rowState.flash.rows = [aRow] ∧ bit (rowState.rd32 FT_STATUS) 0 = true ∧
      awaitsErase rowState 511 1 = false ∧
      (rowState.host.running.find? (fun r => r.seqNo = 5)).isSome = true) ∧
    (flashState { erasing := [(255, 7449)] }).flash.erasing.contains (255, 7449) = true ∧
    (7449 < GOOD_BLOCKS ∧ ((flashState {}).block 255 7449).retired = false) ∧
    (((flashState {}).setBlock 255 7449 { reads := 100000 }).block 255 7449).retired = false ∧
    wearGranted ((flashState {}).setBlock 255 7449 { reads := 100000 }) = true ∧
    scrubDue ((flashState {}).setBlock 255 7449 { reads := 100000 }) 255 7449 = true ∧
    ((flashState { relocs := [(255, 0, some 7449)] }).flash.relocs.find? (fun r => r.1 = 255) = some (255, 0, some 7449) ∧
      wearGranted (flashState { relocs := [(255, 0, some 7449)] }) = true ∧ extOf (flashState { }) 255 0 = some 0 ∧
      relocGoal (flashState {}) 255 (some 7449) = some 7449 ∧ extUse (flashState {}) 0 ≠ 0) ∧
    (wearGranted archiveState = true ∧ wearGranted (flashState { erasing := [(255, 7449)] }) = true) ∧
    (emptiest archiveState = some 3 ∧ archiveState.rd32 0x220014 < 8 ∧ flashReadOut archiveState = false ∧
      rowsWait archiveState 3 (membersIn archiveState 3) = false ∧ archiveState.rdB FT_RESTRICTED = false ∧
      (takeAll ((membersIn archiveState 3).map (rowsOfMember archiveState)) archiveState).any (fun x =>
        ((membersIn archiveState 3).zip x.1).all (fun m => !awaitsErase x.2 m.2 (rowsOfMember archiveState m.1))) = true) ∧
    ((flashState {}).rdB (FT_FAILED 255) = false) := by decide +kernel

/-- Block 7100 of channel 255 with 800 erases, base extent 0 with none. -/
def wornState : State := flashState { blocks := [(blkKey 255 7100, { erases := 800 })] }

theorem witness_levelling : levelLow wornState 255 = some 0 ∧ (levelHigh wornState 255).isSome = true ∧
    wornState.flash.relocs.any (fun r => r.1 = 255 && r.2.1 = 0) = false :=
  ⟨by decide +kernel, levelHigh_isSome wornState 255 7100 (by decide +kernel) (by decide +kernel) (by decide +kernel)
    (by decide +kernel), by decide +kernel⟩

/-! ### Tile operations -/

/-- An operation word (R162): operation, DST, A, B, C, immediate. -/
def word (op dst a b c imm : Nat) : Nat := op + dst * 2 ^ 8 + a * 2 ^ 14 + b * 2 ^ 20 + c * 2 ^ 26 + imm * 2 ^ 32

/-- A tile whose active shell has the words `ws` and channel entries (channel, value), at word 0 and issuing. -/
def tileOf (ws : List Nat) (es : List (Nat × Nat)) : Tile :=
  let m := es.foldl (fun m e => mwrite m (0x40 + 8 * e.1) (leBytes e.2 8)) (mwrite [] 6 (leBytes ws.length 2))
  { shell := mwrite m 0x300 (ws.flatMap (fun w => leBytes w 8)), seq := { phase := 1 } }

/-- The last tile of the device with that tile in a running pod. -/
def onTile (t : Tile) : State := (State.reset.wr (POD_STATE 79) POD_RUNNING).setTile 12799 t

/-- The word that issues, if one does. -/
def gate (op : Nat) (s : State) : Option Nat := match issueGate op 12799 s with | .inr w => some w | .inl _ => none

def oneWord (w : Nat) : State := onTile (tileOf [w, 0] [])

theorem witness_register_words :
    gate OP_SOP (oneWord (word OP_SOP 1 2 3 4 0)) = some (word OP_SOP 1 2 3 4 0) ∧
    gate OP_VINT (oneWord (word OP_VINT 15 2 3 4 0)) = some (word OP_VINT 15 2 3 4 0) ∧
    gate OP_VFP (oneWord (word OP_VFP 15 2 3 4 0)) = some (word OP_VFP 15 2 3 4 0) ∧
    (gate OP_VXLANE (oneWord (word OP_VXLANE 15 2 0 0 0)) = some (word OP_VXLANE 15 2 0 0 0) ∧
      wFn (word OP_VXLANE 15 2 0 0 0) < 3 ∧ wDst (word OP_VXLANE 15 2 0 0 0) < 32) ∧
    (gate OP_VCVT (oneWord (word OP_VCVT 1 2 0 0 16)) = some (word OP_VCVT 1 2 0 0 16) ∧ bit (wImm (word OP_VCVT 1 2 0 0 16)) 4 = true) ∧
    (gate OP_VCVT (oneWord (word OP_VCVT 1 2 5 0 0)) = some (word OP_VCVT 1 2 5 0 0) ∧ bit (wImm (word OP_VCVT 1 2 5 0 0)) 4 = false ∧
      cvtConflict (cvtOf false (tileOf [word OP_VCVT 1 2 5 0 0, 0] []) (word OP_VCVT 1 2 5 0 0)).scale.isSome 5
        (bits (wImm (word OP_VCVT 1 2 5 0 0)) 8 6) (bits (wImm (word OP_VCVT 1 2 5 0 0)) 14 6) = none) ∧
    (gate OP_VSFU (oneWord (word OP_VSFU 1 2 0 0 3)) = some (word OP_VSFU 1 2 0 0 3) ∧
      ((oneWord (word OP_VSFU 1 2 0 0 3)).tile 12799).sfu = none) := by decide +kernel

theorem witness_memory_words :
    (gate OP_VLOAD (oneWord (word OP_VLOAD 1 0 0 0 0x2FF80)) = some (word OP_VLOAD 1 0 0 0 0x2FF80) ∧
      (sramTrap ((oneWord (word OP_VLOAD 1 0 0 0 0x2FF80)).tile 12799) false (0x2FF80) 128).isNone = true ∧
      memOffset ((oneWord (word OP_VLOAD 1 0 0 0 0x2FF80)).tile 12799) (word OP_VLOAD 1 0 0 0 0x2FF80) = 0x2FF80) ∧
    (gate OP_VSTORE (oneWord (word OP_VSTORE 0 0 1 0 0x2FF80)) = some (word OP_VSTORE 0 0 1 0 0x2FF80) ∧
      (sramTrap ((oneWord (word OP_VSTORE 0 0 1 0 0x2FF80)).tile 12799) true (0x2FF80) 128).isNone = true ∧
      memOffset ((oneWord (word OP_VSTORE 0 0 1 0 0x2FF80)).tile 12799) (word OP_VSTORE 0 0 1 0 0x2FF80) = 0x2FF80) := by
  decide +kernel

/-- An OUTPUT entry of 4 places to queue 3 of tile (159, 79), and an INPUT entry of 4 places. -/
def outEntry : Nat := 2 + 4 * 2 ^ 12 + 1 * 2 ^ 21 + 159 * 2 ^ 32 + 79 * 2 ^ 40 + 3 * 2 ^ 47
def inEntry : Nat := 1 + 4 * 2 ^ 12

def pushTile : Tile := tileOf [word OP_VPUSH 0 1 0 0 15, 0] [(15, outEntry)]
def popTile : Tile := (tileOf [word OP_VPOP 1 0 0 0 15, 0] [(15, inEntry)]).setChan 15 { count := 1 }

theorem witness_queue_words :
    (gate OP_VPUSH (onTile pushTile) = some (word OP_VPUSH 0 1 0 0 15) ∧ ((onTile pushTile).tile 12799).seq.pushed = false ∧
      (match pushEntry (routeOk (onTile pushTile) 79) pushTile 15 (List.replicate 64 0#8) with
        | .ok t1 => (match pushEntry (routeOk (onTile pushTile) 79) t1 15 (List.replicate 64 0#8) with | .ok _ => true | _ => false)
        | _ => false) = true) ∧
    (gate OP_VPOP (onTile popTile) = some (word OP_VPOP 1 0 0 0 15) ∧
      (match popEntry popTile 15 with
        | .ok (bs, t2, n) => decide (((countCorrected 79 n ((onTile popTile).setTile 12799
            (advance (t2.setV 1 0 (bytesWords bs 16))))).tile 12799).seq ≠ popTile.seq)
        | _ => false) = true) := by decide +kernel

def sfuTile (granted : Bool) : Tile :=
  { sfu := some { fn := 0, lanes := List.replicate 32 0#32, dst := 1, granted := granted, waited := 0 } }

theorem witness_special_functions :
    ((onTile (sfuTile false)).rd (POD_STATE 79) = POD_RUNNING ∧
      (rrOrder (tget ((onTile (sfuTile false)).pod 79).sfus 9 {}).lastCol).find?
        (fun u => sfuWaits (onTile (sfuTile false)) (stripeTile 79 9 u)) = some 15) ∧
    ((sfuTile true).sfu = some { fn := 0, lanes := List.replicate 32 0#32, dst := 1, granted := true, waited := 0 }) := by
  decide +kernel

/-- A nest of one OUTPUT level of one row, on zeros. -/
def nestTile : Tile :=
  let t := tileOf [word OP_PLANE_RUN 0 0 0 0 0, 0] []
  { t with shell := mwrite (mwrite (mwrite t.shell 20 (leBytes 0x30000 4)) 5 [1#8]) 0x100 (leBytes 1 2) }
def nestState : State := onTile nestTile

theorem witness_plane_run :
    issuing 12799 nestState = true ∧ (nestState.tile 12799).seq.index < (nestState.tile 12799).opCount ∧
    wordValid 0 0 (nestState.tile 12799).opCount (nestState.rd (STR_TABLE_LEN 79)) (currentWord (nestState.tile 12799)) = true ∧
    wOp (currentWord (nestState.tile 12799)) = OP_PLANE_RUN ∧
    (planeLoop (localOf 12799 % 16) (nestLevels (nestState.tile 12799)) (routeOk nestState 79)
      (planeFuel (nestState.tile 12799) (nestLevels (nestState.tile 12799)))
      { nestState.tile 12799 with seq := { (nestState.tile 12799).seq with phase := 2 }, waitPop := [], waitPush := [] } 0).trap.isNone = true := by
  decide +kernel

/-- The same with no data SRAM given to the shell: its first access traps. -/
def trapTile : Tile := { nestTile with shell := mwrite nestTile.shell 20 (leBytes 0 4) }

theorem witness_plane_trap : issuing 12799 (onTile trapTile) = true ∧ wOp (currentWord trapTile) = OP_PLANE_RUN ∧
    (planeLoop (localOf 12799 % 16) (nestLevels trapTile) (routeOk (onTile trapTile) 79) (planeFuel trapTile (nestLevels trapTile))
      { trapTile with seq := { trapTile.seq with phase := 2 }, waitPop := [], waitPush := [] } 0).trap.isSome = true := by
  decide +kernel

def doneTile : Tile := { seq := { phase := 3 } }
/-- Hull 0 holds pod 79, with a step in progress or formed. -/
def aStep (begun : Bool) : Step := { number := 0, start := 0, segs := [], rowsUsed := 0, halfSplit := 0, begun := begun }
def stepping (begun : Bool) (state : Nat) : State :=
  ((State.reset.setHull 0 { aHull with pods := [79], step := some (aStep begun) }).wr (POD_ASSIGNED 79) 1).wr (POD_STATE 79) state

theorem witness_sequencer :
    (gate OP_END (oneWord 0) = some 0 ∧ ((oneWord 0).tile 12799).seq.accOpen = false) ∧
    gate OP_REPEAT (oneWord (word OP_REPEAT 0 0 0 0 (1 + 1 * 2 ^ 16))) = some (word OP_REPEAT 0 0 0 0 (1 + 1 * 2 ^ 16)) ∧
    (gate OP_WAIT (oneWord (word OP_WAIT 0 0 0 0 255)) = some (word OP_WAIT 0 0 0 0 255) ∧
      ∀ j, j < 8 → ticketFree ((oneWord (word OP_WAIT 0 0 0 0 255)).tile 12799) j = true) ∧
    (gate OP_FENCE (oneWord (word OP_FENCE 0 0 0 0 0)) = some (word OP_FENCE 0 0 0 0 0) ∧ bit (wImm (word OP_FENCE 0 0 0 0 0)) 0 = false) ∧
    (((stepping true POD_RUNNING).setTile 12799 doneTile).rd (POD_STATE (podOf 12799)) = POD_RUNNING ∧ atBoundary doneTile = true ∧
      doneTile.nextEn doneTile.active = false ∧
      (((stepping true POD_RUNNING).setTile 12799 doneTile).setTile 12799 { doneTile with seq := {}, acc := [], left := {} }).podOwner 79 = some 0) ∧
    (((stepping true POD_RUNNING).hull 0).step = some (aStep true) ∧ placementWait (stepping true POD_RUNNING) 0 = false ∧
      sortBy (fun a b => a ≤ b) ((stepping true POD_RUNNING).hull 0).pods = [79] ∧ ((stepping true POD_RUNNING).hull 0).fault = none ∧
      ((stepping true POD_RUNNING).hull 0).live = true ∧
      (aStep true).reported.contains ((stepping true POD_RUNNING).hull 0).devIndex = false) := by
  decide +kernel

/-- Hull 0's step begins: the state in which its tiles start. -/
def begun : State :=
  [79].foldl (fun s p => switchSlots p s) (setPods [79] POD_RUNNING ((stepping false POD_LOADED).setHull 0
    { (stepping false POD_LOADED).hull 0 with step := some { aStep false with begun := true }, select := none }))

theorem begun_tiles : begun.tiles = [] := by decide +kernel

theorem witness_step_start :
    ((stepping false POD_LOADED).hull 0).step = some (aStep false) ∧ ((stepping false POD_LOADED).hull 0).pods = [79] ∧
    ((aStep false).staging = 0 ∧ ((stepping false POD_LOADED).hull 0).fault = none ∧ ((stepping false POD_LOADED).hull 0).live = true) ∧
    [79].all (fun p => (stepping false POD_LOADED).rd (POD_STATE p) = POD_LOADED) = true ∧
    (((hullTiles begun 0).foldl (fun s k => startTile k s) begun).hull 0).fault = none := by
  refine ⟨by decide +kernel, by decide +kernel, by decide +kernel, by decide +kernel, ?_⟩
  rw [State.hull, startTiles_free _ _ (fun i => by simp [State.tile, begun_tiles, tget])]
  decide +kernel

/-! ### Streams, the mesh and hulls -/

/-- A descriptor's 64 bytes (R177): READ or WRITE of one 64 B chunk by global address, tile side an SRAM offset. -/
def descRaw (ctrl : Nat) (tile tier : Nat) : BitVec 512 :=
  BitVec.ofNat 512 (packBytes [(0, 2, ctrl + 1 * 2 ^ 7), (2, 2, 1), (4, 4, tile), (8, 8, tier), (16, 2, 1)])

def aDesc (raw : BitVec 512) : Desc := { job := 1, index := 0, raw, tile := 12799, ticket := 0 }

/-- A READ by global address into SRAM 0 of local tile 0, and one by handle 1. -/
def readDesc : Desc := aDesc (descRaw (1 * 2 ^ 3) 0 (2 ^ 56))
def handleDesc : Desc := aDesc (descRaw 0 0 1)

/-- Engine 3 of pod 79 with a queue, in a running pod whose tile 0 has all of its SRAM. -/
def engineState (q : List Desc) : State :=
  (((powered State.reset).wr (POD_STATE 79) POD_RUNNING).setPod 79 { engines := [(3, { queue := q })] }).setTile 12640
    { shell := mwrite [] 20 (leBytes 0x30000 4) }

def halting : State := (engineState [handleDesc]).setTensor 1 { dTensor with inD := false, origin := 2 }

/-- WRITEs of one chunk to a global address, from SRAM 0 of local tile 0 and from hub port 0; a READ past the SRAM. -/
def writeDesc : Desc := aDesc (descRaw (1 + 1 * 2 ^ 3) 0 (2 ^ 56))
def hubDesc : Desc := aDesc (descRaw (1 + 2 * 2 ^ 1 + 1 * 2 ^ 3) 0 (2 ^ 56))
def pastDesc : Desc := aDesc (descRaw (1 * 2 ^ 3) 0x30000 (2 ^ 56))
def hubState : State :=
  let s := engineState [hubDesc]
  s.setPod 79 { s.pod 79 with hub := [(hubDesc.hubAt, [(0, 1#512)])] }

theorem witness_write_chunks :
    (writeDesc.write = true ∧ writeDesc.tside = 0 ∧ writeDesc.tkind = 1 ∧
      (issueOrder ((engineState [writeDesc]).engine 79 3)).find? (canIssue (engineState [writeDesc]) 79) = some writeDesc ∧
      chunkOk (engineState [writeDesc]) 79 writeDesc 0 = true ∧
      rspFails (tileRead { space := 3, off := tsOffset 12640 0 0, room := 0x30000 } 64 (engineState [writeDesc])).code = false) ∧
    (hubDesc.write = true ∧ hubDesc.tside = 2 ∧ (issueOrder (hubState.engine 79 3)).find? (canIssue hubState 79) = some hubDesc ∧
      chunkOk hubState 79 hubDesc 0 = true ∧
      ((takeHub 79 3 16 hubDesc hubState).1.kept.find? (fun x => x.1 = 0)).any (fun x => decide (hubDesc.chunkBytes ≤ x.2.length)) = true) ∧
    ((issueOrder ((engineState [pastDesc]).engine 79 3)).find? (canIssue (engineState [pastDesc]) 79) = some pastDesc ∧
      chunkOk (engineState [pastDesc]) 79 pastDesc 0 = false) := by decide +kernel

/-- The ended access of chunk 0 of `readDesc`. -/
def endedRead : Ended :=
  { id := 0, req := { who := .stream 79 3 1 0, target := .addr 0, op := .read 64, cls := 2 }, code := 0, addr := 0, data := [] }
def respState : State :=
  let s := engineState [{ readDesc with next := 1, flying := [0] }]
  { s with tier := { s.tier with ended := [endedRead] } }

theorem witness_streams :
    (ntOn (engineState []) = true ∧ (engineState []).rd (POD_STATE 79) = POD_RUNNING) ∧
    ((engineState [readDesc]).rdB (STR_STOP 79 3) = false ∧ inFlight ((engineState [readDesc]).engine 79 3) < 32 ∧
      (issueOrder ((engineState [readDesc]).engine 79 3)).find? (canIssue (engineState [readDesc]) 79) = some readDesc ∧
      chunkOk (engineState [readDesc]) 79 readDesc readDesc.next = true ∧ readDesc.target readDesc.next = some (.addr (2 ^ 56)) ∧
      readDesc.write = false ∧ readDesc.tkind = 1) ∧
    ((issueOrder (halting.engine 79 3)).find? (canIssue halting 79) = some handleDesc ∧ chunkOk halting 79 handleDesc 0 = true ∧
      handleDesc.target 0 = some (.handle 1 false 0) ∧ handleDesc.tkind = 0 ∧ halts halting handleDesc.handle = true ∧
      handleDesc.direct = false) ∧
    ((((engineState [{ handleDesc with halted := some 0, direct := true }]).engine 79 3).queue.find?
      (fun d => d.halted.isSome && ((engineState []).tensor d.handle).move = 0
        && (d.direct || !halts (engineState []) d.handle || placementOn (engineState [])))) =
      some { handleDesc with halted := some 0, direct := true }) ∧
    (nextEnded respState 79 3 = some (endedRead, some ({ readDesc with next := 1, flying := [0] }, 0)) ∧
      respState.rd (POD_STATE 79) = POD_RUNNING ∧ (respState.pod 79).changing = false) ∧
    ([{ readDesc with next := 1 }].find? (fun (d : Desc) => d.chunks ≤ d.next && d.flying = [] && d.halted.isNone && d.wellFormed)
      = some { readDesc with next := 1 }) := by decide +kernel

/-- STREAM of descriptor 0 with ticket 7; its table is a region of hull 128 in the D-tier. -/
def streamState : State :=
  let s := ((powered (onTile (tileOf [word OP_STREAM 0 0 0 0 (7 * 2 ^ 10), 0] []))).wr (STR_TABLE_LEN 79) 1).wr64 (STR_TABLE 79) (2 ^ 56)
  let s := ((s.wr (POD_ASSIGNED 79) 1).setTensor 1 { dTensor with fixed := true, owned := true })
  { s with tier := { s.tier with dWritten := [(0, true)], allocs := [⟨true, 0, 4096, .region 1⟩] } }

theorem witness_stream_word :
    ntOn streamState = true ∧ gate OP_STREAM streamState = some (word OP_STREAM 0 0 0 0 (7 * 2 ^ 10)) ∧
    (tget (streamState.tile 12799).tickets 7 {}).busy = false ∧
    rspFails (access true (.hullPort ((streamState.podOwner 79).getD 128)) (.addr (BitVec.ofNat 64 (streamState.rd64 (STR_TABLE 79) + 64 * 0)))
      (.read 64) streamState).code = false ∧ (streamState.engine 79 0).queue.length < 32 := by decide +kernel

def sendState : State := onTile ((tileOf [0] [(15, outEntry)]).setChan 15 { count := 1, credits := 1 })
/-- The same channel bound to hub endpoint 47. -/
def hubEntry : Nat := 2 + 4 * 2 ^ 12 + 1 * 2 ^ 21 + 1 * 2 ^ 2 + 47 * 2 ^ 32
def hubSend : State := onTile ((tileOf [0] [(15, hubEntry)]).setChan 15 { count := 1, credits := 1 })
def creditState : State :=
  ((((State.reset.setHull 0 { aHull with pods := [79] }).wr (POD_ASSIGNED 79) 1).wr (POD_STATE 79) POD_LOADED).setTile 12640
    (tileOf [] [(0, 2 + 159 * 2 ^ 32 + 79 * 2 ^ 40 + 15 * 2 ^ 47)])).setTile 12799 ((tileOf [] [(15, inEntry)]).setChan 15 { owed := 1 })

/-- A flit for queue 15 of the last tile. -/
def aFlit (credit : Bool) (n : Nat) : Flit := { destX := 159, destY := 79, destQ := 15, credit, hull := 0, payload := BitVec.ofNat 512 n }
/-- The last tile's router with those flits at its L input, in the places of VC 0 and of VC 1. -/
def atRouter (v0 v1 : List Flit) : State :=
  (State.reset.wr (PWR_DOMAIN 83) 1).setRouter 12799 { inputs := [(8, v0), (9, v1)], lastVc1 := [(4, true)] }
def arriving (f : Flit) (e : Nat) : State :=
  (onTile { tileOf [] [(15, e)] with toTile := [f] }).wr (POD_ASSIGNED 79) 1

theorem witness_mesh :
    (queuesLive sendState 12799 = true ∧ podSide sendState 12799 = true ∧ hullFaulted sendState 79 = false ∧ sendState.rdB (POD_INJECT_STOP 79) = false ∧
      chMode ((sendState.tile 12799).chanEntry 0 15) = MODE_OUTPUT ∧ ((sendState.tile 12799).chan 15).count = 1 ∧
      ((sendState.tile 12799).chan 15).credits = 1 ∧ chHub ((sendState.tile 12799).chanEntry 0 15) = false ∧
      destBad ((sendState.tile 12799).chanEntry 0 15) = false ∧ (sendState.tile 12799).toMesh.length < 8 ∧ (match readEntry (sendState.tile 12799) 15 with | .ok _ => true | _ => false) = true) ∧
    (queuesLive hubSend 12799 = true ∧ podSide hubSend 12799 = true ∧ hullFaulted hubSend 79 = false ∧
      chMode ((hubSend.tile 12799).chanEntry 0 15) = MODE_OUTPUT ∧ chHub ((hubSend.tile 12799).chanEntry 0 15) = true ∧
      destBad ((hubSend.tile 12799).chanEntry 0 15) = false ∧ (hubSend.tile 12799).riserUp.length < 8 ∧ ((hubSend.tile 12799).chan 15).count = 1 ∧ ((hubSend.tile 12799).chan 15).credits = 1 ∧
      (match readEntry (hubSend.tile 12799) 15 with | .ok _ => true | _ => false) = true) ∧
    (queuesLive creditState 12799 = true ∧ podSide creditState 12799 = true ∧ ((creditState.tile 12799).chan 15).owed = 1 ∧ creditState.podOwner 79 = some 0 ∧
      producerOf creditState 0 12799 15 = some (12640, 0) ∧ (creditState.tile 12799).toMesh.length < 8) ∧
    (candidate (atRouter [aFlit false 0] []) 159 79 4 1 = none ∧ candidate (atRouter [aFlit false 0] []) 159 79 4 0 = some (4, aFlit false 0)) ∧
    (candidate (atRouter [] [aFlit true 1]) 159 79 4 1 = some (4, aFlit true 1) ∧ candidate (atRouter [] [aFlit true 1]) 159 79 4 0 = none) ∧
    (candidate (atRouter [aFlit false 0] [aFlit true 1]) 159 79 4 1 = some (4, aFlit true 1) ∧
      candidate (atRouter [aFlit false 0] [aFlit true 1]) 159 79 4 0 = some (4, aFlit false 0) ∧
      meshOn (atRouter [aFlit false 0] [aFlit true 1]) (tileAt 159 79) = true ∧
      outputPick (atRouter [aFlit false 0] [aFlit true 1]) 159 79 4 true = some (0, 4, aFlit false 0) ∧
      outputPick (atRouter [aFlit false 0] [aFlit true 1]) 159 79 4 false = some (1, 4, aFlit true 1)) ∧
    (((arriving (aFlit false 0) inEntry).tile 12799).toTile = [aFlit false 0] ∧ (arriving (aFlit false 0) inEntry).rd (POD_STATE 79) ≠ POD_OFF ∧
      (arriving (aFlit false 0) inEntry).podOwner 79 = some 0 ∧ podSide (arriving (aFlit false 0) inEntry) 12799 = true ∧
      (arriving { aFlit false 0 with hull := 1 } inEntry).podOwner 79 ≠ some 1) ∧
    (podSide (arriving (aFlit true 1) outEntry) 12799 = true ∧ ((arriving (aFlit true 1) outEntry).tile 12799).toTile = [aFlit true 1] ∧
      chMode (((ejectFlit 12799 (arriving (aFlit true 1) outEntry)).tile 12799).chanEntry 0 15) = MODE_OUTPUT ∧
      (((ejectFlit 12799 (arriving (aFlit true 1) outEntry)).tile 12799).chan 15).credits + bits (aFlit true 1).payload.toNat 0 16
        ≤ chInit (((ejectFlit 12799 (arriving (aFlit true 1) outEntry)).tile 12799).chanEntry 0 15)) := by decide +kernel

/-- Hull 0 halted on pod 79 with its injection stopped, drained by a running HULL_DRAIN. -/
def quietHull : State :=
  let s := (stepping false POD_HALTED).setHull 0 { aHull with pods := [79] }
  { (s.wr (POD_INJECT_STOP 79) 1).wr (POD_HUB_IDLE 79) 1 with host := {
      running := [{ ring := 0, fn := 0, entry := 0, seqNo := 5, kind := .draining 0 }] } }
def quieted : State := [79].foldl (fun (s : State) p => refreshInjectStopped p s) (beginQuiesce 0 quietHull)

/-- Pod 79 of hull 0 loads configuration 0 of package 1 into slot 3. -/
def aLoad : Load := { slot := 3, cfg := 0, pkg := 1 }
def loadingPod (ld : Load) (h : Hull) (r : List Running) : State :=
  let s := ((pkgState.setHull 0 { h with pods := [79] }).wr (POD_ASSIGNED 79) 1).setPod 79 { load := some ld }
  { s with host := { s.host with running := r } }
def loadRun : Running := { ring := 0, fn := 0, entry := 0, seqNo := 5, kind := .loading 0 3 0 1 }
def looked (r : List Running) : Option (Nat × Nat) × Bool × State := look (loadRanges (loadingPod aLoad aHull r) 0 79 aLoad) (loadingPod aLoad aHull r)
def scanningPod (dir : Nat) : State :=
  ((State.reset.setHull 0 { aHull with pods := [79], saves := [0] }).wr (POD_ASSIGNED 79) 1).setPod 79 { scan := dir }
/-- The first granule of pod 79's save block has `bad` symbols in error, or is poisoned, and a restore of hull 0 runs. -/
def badSave (bad : Nat) (poison : Bool) : State :=
  let s := powered (scanningPod 2)
  { s with
    tier := { s.tier with nBad := [(0, bad)], nPoison := [(0, poison)] }
    host := { s.host with running := [{ ring := 0, fn := 0, entry := 0, seqNo := 5, kind := .restoring 0 }] } }
def spanning : State := State.reset.setHull 127 { aHull with multi := true, graph := 9 }

theorem witness_hulls :
    (((beginQuiesce 0 quietHull).hull 0).pods = [79] ∧ quieted.rd (POD_STATE 79) = POD_HALTED ∧ quiescent quieted 0 = true ∧
      drains quieted 0 = true ∧ ((beginQuiesce 0 quietHull).hull 0).drained = false ∧ ((beginQuiesce 0 quietHull).hull 0).fault = none) ∧
    (((State.reset.setHull 127 { aHull with fault := some 1 }).hull 127).fault = some 1 ∧
      ((State.reset.setHull 127 { aHull with fault := some 1 }).hull 127).faultDone = false) ∧
    ((tkeys spanning.srv.hulls).filter (fun h => (spanning.hull h).live && (spanning.hull h).multi && (spanning.hull h).graph = 9) = [127]) ∧
    (((loadingPod aLoad aHull []).pod 79).load = some aLoad ∧ (loadingPod aLoad aHull []).podOwner 79 = some 0 ∧
      ntOn (loadingPod aLoad aHull []) = true ∧ ((loadingPod aLoad aHull []).pod 79).changing = false ∧
      ((loadingPod aLoad { aHull with fault := some 1 } []).hull 0).fault.isSome = true ∧
      ((loadingPod { aLoad with bare := true } aHull []).hull 0).fault = none) ∧
    ((powered (scanningPod 1)).podOwner 79 = some 0 ∧ ((powered (scanningPod 1)).pod 79).scan = 1 ∧ ntOn (powered (scanningPod 1)) = true ∧
      ((powered (scanningPod 1)).pod 79).changing = false) ∧
    ((badSave 0 false).podOwner 79 = some 0 ∧ ntOn (badSave 0 false) = true ∧ ((badSave 0 false).pod 79).scan = 2 ∧
      ((badSave 0 false).pod 79).changing = false ∧ saveErrors (badSave 0 false) 0 = [] ∧ savePoisoned (badSave 0 false) 0 = false) ∧
    (scanBase (badSave 2 false) 79 = 0 ∧ saveErrors (badSave 2 false) 0 = [0] ∧
      (runOf (([0].foldl (fun s g => uncorrectable false g 0 s) (endPodScan 79 true (badSave 2 false))).wr (POD_STATE 79) POD_IDLE) 0).isSome = true) ∧
    (saveErrors (badSave 0 true) 0 = [] ∧ savePoisoned (badSave 0 true) 0 = true ∧
      (runOf ((endPodScan 79 true (badSave 0 true)).wr (POD_STATE 79) POD_IDLE) 0).isSome = true) := by
  decide +kernel

/-- What the look at the images leaves, noted and stored; pod 2 of the hull still loads, where `busy`. -/
def stored (r : List Running) (busy : Bool) (h : Hull) : State :=
  let s := loadingPod aLoad h r
  let s := if busy then (s.setHull 0 { s.hull 0 with pods := [79, 2] }).setPod 2 { load := some aLoad } else s
  let x := look (loadRanges s 0 79 aLoad) s
  storeLoad 0 79 aLoad (noteLoadRun 0 aLoad x.2.1 x.2.2)

theorem witness_load_done :
    ((looked []).1 = none ∧ (loadingOf (stored [] false aHull) 0 3).isNone = true ∧ ((stored [] false aHull).hull 0).configs ≤ 0 + 1 ∧
      0 + 1 < ((stored [] false { aHull with configs := 2 }).hull 0).configs) ∧
    ((looked [loadRun]).1 = none ∧ (loadingOf (stored [loadRun] false aHull) 0 3).isSome = true ∧
      loadersBusy (stored [loadRun] false aHull) 0 = false ∧
      (look (tableRanges (stored [loadRun] false aHull) 0) (stored [loadRun] false aHull)).1 = none ∧
      (loadingOf (stored [loadRun] true aHull) 0 3).isSome = true ∧ loadersBusy (stored [loadRun] true aHull) 0 = true) := by
  decide +kernel

/-! ### Steps, ports and the fabric -/

/-- A hull on pod 79 in a step with one entry at each serving port; its manifest region is tensor 1. -/
def servingHull (st : Step) : State :=
  let s := (oneTensor.setHull 0 { aHull with pods := [79], manifest := some 1, step := some st }).wr (POD_ASSIGNED 79) 1
  s.setPod 79 { hub := (List.range 5).map (fun i => (48 + i, [(12640 * 16, 1#512)])) }

theorem witness_serving_ports :
    (servingHull (aStep true)).podOwner 79 = some 0 ∧ ((servingHull (aStep true)).hull 0).step = some (aStep true) ∧
    (∀ i, i < 5 → (hubTake 79 (48 + i) (servingHull (aStep true))).1 = some (12640 * 16, 1#512) ∧
      ((hubTake 79 (48 + i) (servingHull (aStep true))).2.hull 0).step = some (aStep true)) ∧
    ((hubTake 79 49 (servingHull (aStep true))).2.hull 0).manifest = some 1 ∧
    ((setStep 0 (fun st => { st with output := st.output ++ leBytes 1 64 }) (hubTake 79 49 (servingHull (aStep true))).2).hull 0).manifest
      = some 1 := by decide +kernel

/-- Hull 0 with expert map tensor 1 in the D-tier: layer 0 in MODE 1 with one entry a row. -/
def expertHull (st : Step) : State :=
  oneTensor.setHull 0 { aHull with expmap := some 1, step := some { st with
    map := (List.range 4480).map (fun i => if i = 384 ∨ i = 394 then 1#8 else 0#8) } }

def waitingRequest : State := (State.reset.setHull 0 { aHull with kvN := some 1 }).setRequest 9
  { aRequest with state := REQ_QUEUED, hull := 0 }

def leadStep : State := State.reset.setHull 0 { aHull with step := some { aStep true with reported := [0] }, devCount := 1 }

theorem witness_steps :
    (halfReady (expertHull { aStep true with rowsUsed := 1, halfSplit := 1, gateA := [0, 0, 0, 0], rowsA := [0] }) 0 false
      { aStep true with rowsUsed := 1, halfSplit := 1, gateA := [0, 0, 0, 0], rowsA := [0] } = true) ∧
    ((waitingRequest.hull 0).live = true ∧ (waitingRequest.hull 0).fault = none ∧ (hullRequests waitingRequest 0).find? (fun i => (waitingRequest.request i).state = REQ_QUEUED) = some 9 ∧
      kvFit waitingRequest (waitingRequest.hull 0) (kvFootprint (waitingRequest.hull 0) (waitingRequest.request 9)) = some (0, 0)) ∧
    (((servingHull (aStep true)).hull 0).devIndex = 0 ∧ 0 < ((servingHull (aStep true)).hull 0).devCount ∧
      (aStep true).reported.contains 0 = false) ∧
    ((leadStep.hull 0).step = some { aStep true with reported := [0] } ∧ (leadStep.hull 0).fault = none ∧ (leadStep.hull 0).devIndex = 0 ∧
      (aStep true).begun = true ∧ (aStep true).error = none ∧ allReported (leadStep.hull 0) { aStep true with reported := [0] } = true ∧
      (∀ p ∈ (leadStep.hull 0).pods, hubQueue leadStep p 48 = [] ∧ hubQueue leadStep p 49 = []) ∧
      emitsMatch { aStep true with reported := [0] } = true ∧ mirroring leadStep = false ∧ awaitsAck leadStep { aStep true with reported := [0] } = false ∧
      ((commitEffects 0 leadStep).hull 0).step = none ∧ ((commitEffects 0 leadStep).hull 0).fault = none) ∧
    (((State.reset.setHull 0 { aHull with devIndex := 1 }).hull 0).devIndex ≠ 0 ∧
      ((State.reset.setHull 0 { aHull with devIndex := 1 }).hull 0).step = none ∧
      ((State.reset.setHull 0 { aHull with devIndex := 1 }).hull 0).live = true ∧
      ((State.reset.setHull 0 { aHull with devIndex := 1 }).hull 0).fault = none ∧
      ((State.reset.setHull 0 { aHull with devIndex := 1, step := some { aStep true with reported := [1] } }).hull 0).step =
        some { aStep true with reported := [1] } ∧ ({ aStep true with reported := [1] } : Step).reported.contains 1 = true) := by
  decide +kernel

def portAt (p n : Nat) : State := State.reset.wr (PORT_STATE p) n
/-- Port 15 with lane 3 in use, or lane 0 as well. -/
def lanesAt (n lanes : Nat) : State := (portAt 15 n).wr (PORT_LANES 15) lanes
def aPeer (valid : Bool) (id port : Nat) : PeerInfo := { idValid := valid, id, port, slice := 0, role := false }
/-- Device 0 with its ID installed. -/
def device0 : State := State.reset.wr FAB_VALID 1
def checking : State := device0.wr (PORT_STATE 0) 4

theorem witness_ports :
    (isPort 17 = true ∧ (∀ n, n < 16 → (portAt 17 n).rd (PORT_STATE 17) = n) ∧ 15 % 16 ≠ 0) ∧
    (isTwinPort 0 = false ∧ checking.rd (PORT_STATE 0) = 4 ∧ (aPeer false 0 0).idValid = false ∧
      ((portAt 17 4).wr (PORT_PEER 17) 1).rdB FAB_VALID = false) ∧
    ((portAt 17 10).rd (PORT_STATE 17) = 10 ∧ (portAt 17 10).rdB FAB_VALID = false) ∧
    (((checking.wr (PORT_PEER 0) 0).wr (PORT_PEER_PORT 0) 6).rdB FAB_VALID = true ∧
      0 = ((checking.wr (PORT_PEER 0) 0).wr (PORT_PEER_PORT 0) 6).rd FAB_DEVICE) ∧
    (mapPeer ((checking.wr (PORT_PEER 0) 2).wr (PORT_PEER_PORT 0) 6) 0 ≠ some (2, 6)) ∧
    (1 ≠ ((checking.wr (PORT_PEER 0) 1).wr (PORT_PEER_PORT 0) 6).rd FAB_DEVICE ∧
      mapPeer ((checking.wr (PORT_PEER 0) 1).wr (PORT_PEER_PORT 0) 6) 0 = some (1, 6)) ∧
    (isTwinPort 16 = true ∧ (device0.wr (PORT_STATE 16) 4).rd (PORT_STATE 16) = 4 ∧
      (((device0.wr (PORT_STATE 16) 4).wr (PORT_PEER 16) 1).wr (PORT_PEER_PORT 16) 16).rdB FAB_VALID = true ∧
      0 = (((device0.wr (PORT_STATE 16) 4).wr (PORT_PEER 16) 0).wr (PORT_PEER_PORT 16) 16).rd FAB_DEVICE ∧
      1 ≠ (((device0.wr (PORT_STATE 16) 4).wr (PORT_PEER 16) 1).wr (PORT_PEER_PORT 16) 16).rd FAB_DEVICE ∧
      1 ≠ (((device0.wr (PORT_STATE 16) 4).wr (PORT_PEER 16) 1).wr (PORT_PEER_PORT 16) 17).rd FAB_DEVICE ∧ 17 ≠ 16) ∧
    (portUp (lanesAt 5 8) 15 = true ∧ isTwinPort 15 = false ∧ bit ((lanesAt 5 8).rd (PORT_LANES 15)) 3 = true ∧
      ((((lanesAt 5 8).wr ⟨portBlock 15, 4 + 3, 1⟩ 0).raise (portBlock 15 + 4) 0).rd (PORT_LANES 15) = 0) ∧
      ((((lanesAt 5 9).wr ⟨portBlock 15, 4 + 3, 1⟩ 0).raise (portBlock 15 + 4) 0).rd (PORT_LANES 15) ≠ 0)) ∧
    (portUp (lanesAt 6 1) 15 = true ∧ bit ((lanesAt 6 1).rd (PORT_LANES 15)) 3 = false ∧
      tget (((lanesAt 6 1).addSat (portBlock 15 + 0x28) 1).port 15).clean 3 0 + 1 < 3 ∧
      3 ≤ tget ((((lanesAt 6 1).setPort 15 { clean := [(3, 2)] }).addSat (portBlock 15 + 0x28) 1).port 15).clean 3 0 + 1) := by
  decide +kernel

/-- The flit of zeros, whose FEC count goes into words of its own: sequence number 0, no packet, and a CRC of 0. -/
theorem flit_up (s : State) : portUp (takeAck 15 0 (noteFec 15 s)) 15 = portUp s 15 := by
  have e : (takeAck 15 0 (noteFec 15 s)).bar = (noteFec 15 s).bar := by
    rw [takeAck, if_pos (by decide +kernel)]
    rfl
  have h : (noteFec 15 s).word (PORT_STATE 15).off = s.word (PORT_STATE 15).off := by
    rw [noteFec, State.add64, State.wr64, State.wr32, State.wr32, setWord_word, setWord_word, if_neg (by decide), if_neg (by decide)]
    rfl
  have w : (takeAck 15 0 (noteFec 15 s)).word (PORT_STATE 15).off = s.word (PORT_STATE 15).off := by rw [← h, State.word, e]; rfl
  rw [portUp, portUp, State.rd, State.rd, State.rd32, State.rd32, w]

theorem witness_flits :
    (portUp (portAt 15 5) 15 = true ∧ portUp (takeAck 15 0 (noteFec 15 (portAt 15 5))) 15 = true ∧
      fb 0 0 2 % 4096 = ((takeAck 15 0 (noteFec 15 (portAt 15 5))).port 15).rxSeq) ∧
    (portUp (takeAck 15 0 (noteFec 15 ((portAt 15 5).setPort 15 { rxSeq := 4095 }))) 15 = true ∧
      fb 0 0 2 % 4096 ≠ ((takeAck 15 0 (noteFec 15 ((portAt 15 5).setPort 15 { rxSeq := 4095 }))).port 15).rxSeq) ∧
    (((portAt 15 5).setPort 15 { ackDue := true }).port 15).ackDue = true := by
  rw [flit_up, flit_up]
  decide +kernel

theorem witness_flit_good : flitGood 0 = true ∧ flitGood 1 = false := by
  simp only [flitGood, crc64_eq_strict]
  decide +kernel

def anUpdate : RouteUpdate := { origin := 63, gen := 1, slice := 0, standsFor := none, links := [] }

theorem witness_routes :
    (device0.rdB FAB_VALID = true ∧ anUpdate.origin ≠ device0.rd FAB_DEVICE ∧ (reportOf device0 63).isNone = true) ∧
    ((device0.wr (PORT_STATE 15) 5).rdB FAB_VALID = true ∧ portUp (device0.wr (PORT_STATE 15) 5) 15 = true ∧
      (device0.wr (PORT_STATE 15) 5).rdB TIME_ROOT = false) := by
  decide +kernel

/-- A packet from device 63 to device 0, and one to device 5. -/
def hdrTo (d : Nat) : PktHdr := { tag := 1, src := 63, slice := 0, dst := d }
def routed : State := { device0 with fab := { routes := [(5, { state := 1 })] } }
def pendingOf (u : ReqUse) : State := { device0 with fab := { pending := [{ tag := 7, dst := 5, use := u, addr := 0 }] } }
def lostRoute : State := { device0 with fab := { routes := [(5, { state := 0, held := true })] } }
def heldRoute : State := { device0 with fab := { routes := [(5, { state := 1, held := true })] } }

/-- Pod 79 in a hull that spans devices, with an INPUT channel 15 on its last tile. -/
def spanPod : State :=
  ((device0.setHull 0 { aHull with multi := true, pods := [79] }).wr (POD_ASSIGNED 79) 1).setTile 12799 (tileOf [] [(15, inEntry)])
def granted : State := (spanPod.setPod 79 { routes := [(15, { granted := true })] })

theorem witness_remote :
    (isOurs device0 0 = true ∧ canAnswer device0 (hdrTo 0) = true ∧ (hdrTo 0).slice = device0.rd FAB_SLICE ∧
      (hdrTo 0).slice ≠ (device0.wr FAB_SLICE 5).rd FAB_SLICE) ∧
    (isOurs routed 5 = false ∧ reachable routed 5 = true ∧ (hdrTo 5).slice = routed.rd FAB_SLICE ∧ (hdrTo 5).hop < 2) ∧
    (isOurs (pendingOf .ack) 0 = true ∧ (hdrTo 0).tag = 1 ∧ findPending (pendingOf .ack) 1 = none) ∧
    ((findPending (pendingOf .ack) 7) = some { tag := 7, dst := 5, use := .ack, addr := 0 }) ∧
    ((heldRoute.route 5).held = true ∧ owesResponse heldRoute 5 = false ∧
      reachable { heldRoute with fab := { heldRoute.fab with
        heldOut := heldRoute.fab.heldOut.filter (fun x => x.1 ≠ 5),
        routes := tput heldRoute.fab.routes 5 { heldRoute.route 5 with held := false } {} } } 5 = true) ∧
    ((lostRoute.route 5).held = true ∧ owesResponse lostRoute 5 = false ∧
      reachable { lostRoute with fab := { lostRoute.fab with
        heldOut := lostRoute.fab.heldOut.filter (fun x => x.1 ≠ 5),
        routes := tput lostRoute.fab.routes 5 { lostRoute.route 5 with held := false } {} } } 5 = false) ∧
    (isOurs spanPod 0 = true ∧ canAnswer spanPod (hdrTo 0) = true ∧ (hdrTo 0).slice = spanPod.rd FAB_SLICE ∧ spansDevices spanPod (podOf (tileAt 159 79)) = true ∧
      (spanPod.pod (podOf (tileAt 159 79))).inbound.find? (fun i => i.1 = inboundKey (tileAt 159 79) 15) = none ∧
      chMode ((spanPod.tile (tileAt 159 79)).chanEntry (spanPod.tile (tileAt 159 79)).active 15) = MODE_INPUT) ∧
    (findPending (pendingOf (.queueOpen 79 15)) 7 = some ⟨7, 5, .queueOpen 79 15, 0⟩) ∧
    ((arrivalTrap (spanPod.tile (tileAt 159 79)) 15).isNone = true) ∧
    ((tget (granted.pod 79).routes 15 {}).granted = true ∧ isOurs granted 0 = true ∧ canAnswer granted (hdrTo 0) = true ∧ (hdrTo 0).slice = granted.rd FAB_SLICE) := by
  decide +kernel

/-! ### Twins, the schedule and the controllers -/

def armingTwin : State := { inState 2 with host := {
  running := [{ ring := 0, fn := 0, entry := 0, seqNo := 5, kind := .arming true 0 false }] } }
def standby (n : Nat) : State := State.reset.wr TWIN_STATE n
def stagedTwin : State := { standby 3 with twin := { staged := [{ hdr := ⟨1, 0, 0, 0, 0, 0⟩, body := [] }] } }
def active (n : Nat) : State := (State.reset.wr TWIN_STATE n).wr TWIN_ACTIVE 1

theorem witness_twin :
    (ArmAction.active ≠ .disarm ∧ ArmAction.standby ≠ .disarm ∧ (armRun State.reset).isNone = true ∧
      (armRun armingTwin).any (fun r => r.kind = .arming true 0 false) = true) ∧
    (isStandby (standby 2) = true ∧ isStandby (standby 3) = true ∧ lacksSnapshot (standby 3) = false ∧ (standby 3).twin.expect = 1) ∧
    (isStandby stagedTwin = true ∧ lacksSnapshot stagedTwin = false ∧
      (stagedTwin.twin.staged.find? (fun (e : Staged) => e.hdr.epoch = 1 && !e.marked)).any (fun e => e.hdr.kind ≠ 2) = true) ∧
    ({ standby 2 with twin := { snapEpoch := some 4 } : State }.twin.snapEpoch = some 4 ∧
      isStandby { standby 2 with twin := { snapEpoch := some 4 } } = true) ∧
    (mirroring (active 3) = true ∧ (active 3).rd TWIN_STATE = 3 ∧ (active 3).twin.snapEpoch ≠ some 1 ∧
      (noteWait 1 ((active 3).wr64 TWIN_ACKED (max 1 ((active 3).rd64 TWIN_ACKED)))).twin.snapEpoch ≠ some 1) ∧
    (((State.reset.wr BOOT_READY 1).wr (PORT_STATE 16) 5).rdB BOOT_READY = true ∧ portUp ((State.reset.wr BOOT_READY 1).wr (PORT_STATE 16) 5) 16 = true ∧
      portUp ((State.reset.wr BOOT_READY 1).wr (PORT_STATE 16) 5) 17 = false ∧
      portUp (sendOn 16 none (.twin .heartbeat) ((State.reset.wr BOOT_READY 1).wr (PORT_STATE 16) 5)) 17 = false) ∧
    (mirroring (standby 3) = false ∧ (standby 3).twin.twaIn ≠ 1 ∧ (standby 2).rd TWIN_STATE ≠ 3) := by decide +kernel

/-- The CRC of the staged epoch's marker. -/
theorem witness_epoch_crc : ∃ c : DWord, c.toNat = epochCrc ⟨1, 0, 0, 0, 0, 0⟩ [] := by
  refine ⟨BitVec.ofNat 64 (epochCrc ⟨1, 0, 0, 0, 0, 0⟩ []), ?_⟩
  simp only [epochCrc, crc64_eq_strict]
  decide +kernel

def peerHull : State := State.reset.setHull 127 { aHull with multi := true, devices := [0, 63] }

theorem witness_peer_loss :
    peerHull.fab.reports.any (fun u => u.standsFor = some 63) = false ∧ peerHull.rdB FAB_ALIAS_VALID = false ∧
    (tkeys peerHull.srv.hulls).filter (fun h => (peerHull.hull h).live && (peerHull.hull h).multi && (peerHull.hull h).fault.isNone
      && (peerHull.hull h).devices.contains 63) = [127] := by decide +kernel

/-- Tensor 1 in the D-tier and, at the N-tier's first page, in a clean N-tier copy whose first granule has `bad` symbols in
error; the PF reads it by handle. -/
def tierState (inN : Bool) (bad : Nat) (a : Access) : State :=
  let s := upState.setTensor 1 { dTensor with inN, nBase := N_SYSTEM }
  { s with tier := { s.tier with
      nWritten := [(N_SYSTEM / PAGE, true)], dWritten := [(0, true)], nBad := [(N_SYSTEM / 64, bad)],
      allocs := [⟨false, N_SYSTEM, PAGE, .copy 1⟩, ⟨true, 0, PAGE, .copy 1⟩], queue := [a], xbar := [a] } }
def anAccess (granted recover : Bool) : Access :=
  { id := 3, req := { who := .fn 0, target := .handle 1 false 0, op := .read 64, cls := 2 }, hull := none, granted, recover }
def theFault (recover : Bool) : State := tierState true 2 (anAccess true recover)

/-- Access 2 of the same crossing stands before access 3. -/
def behind : State :=
  let s := tierState true 0 (anAccess false false)
  { s with tier := { s.tier with xbar := [{ anAccess false false with id := 2 }, anAccess false false] } }
/-- The PF reads at device 5. -/
def farRequest : AccessReq := { who := .fn 0, target := .addr (5 * 2 ^ 58), op := .read 64, cls := 2 }

theorem witness_tier_accesses :
    ((tierState true 0 (anAccess false false)).tier.xbar.find? (fun x => x.id = 3) = some (anAccess false false) ∧
      firstAcross (tierState true 0 (anAccess false false)) (anAccess false false) = some (anAccess false false)) ∧
    ((behind).tier.xbar.find? (fun x => x.id = 3) = some (anAccess false false) ∧
      (firstAcross behind (anAccess false false)).map (fun x => x.id) = some 2) ∧
    (awayFrom State.reset (anAccess false false).req = none ∧ awayFrom State.reset farRequest = some 5 ∧ reachable State.reset 5 = false ∧
      awayFrom routed5 farRequest = some 5 ∧ reachable routed5 5 = true) ∧
    controllerOn (tierState true 0 (anAccess true false)) (anAccess true false) = true ∧ controllerOn (theFault true) (anAccess true true) = true ∧
    ((tierState true 0 (anAccess true false)).tier.queue.find? (fun x => x.id = 3) = some (anAccess true false) ∧
      awaitsRecovery (tierState true 0 (anAccess true false)) (anAccess true false) = none) ∧
    (awaitsRecovery (theFault false) (anAccess true false) = some (false, N_SYSTEM / 64)) ∧
    ((theFault true).tier.queue.find? (fun x => x.id = 3) = some (anAccess true true) ∧
      awaitsRecovery (theFault true) (anAccess true true) = some (false, N_SYSTEM / 64) ∧
      (readGranule false true 0 (N_SYSTEM / 64) (theFault true)).1 = RSP_OK ∧
      awaitsRecovery (readGranule false true 0 (N_SYSTEM / 64) (theFault true)).2 (anAccess true true) = none) ∧
    ((spaceOf (tierState false 0 (anAccess false false)) (.fn 0) (.handle 1 false 0) (.read 64)).any (fun p => decide (p.space = 1)) = true) := by
  decide +kernel

/-- An access over two granules beyond correction, on the two sides of a 64 KiB block's end, in a tensor of two blocks. -/
def acrossBlocks : Access :=
  { anAccess true true with req := { who := .fn 0, target := .handle 1 false 65472, op := .read 128, cls := 2 } }
def twoFaults : State :=
  let s := upState.setTensor 1 { dTensor with elem := 131072, inN := true, nBase := N_SYSTEM }
  { s with tier := { s.tier with
      nWritten := [(N_SYSTEM / PAGE, true)], dWritten := [(0, true)]
      nBad := [(N_SYSTEM / 64 + 1023, 2), (N_SYSTEM / 64 + 1024, 2)], queue := [acrossBlocks]
      allocs := [⟨false, N_SYSTEM, 131072, .copy 1⟩, ⟨true, 0, 131072, .copy 1⟩] } }

theorem witness_recovery :
    (readGranule false false 0 (N_SYSTEM / 64) (theFault true)).1 = RSP_UNCORRECTABLE ∧
    (awaitsRecovery twoFaults acrossBlocks = some (false, N_SYSTEM / 64 + 1023) ∧ controllerOn twoFaults acrossBlocks = true ∧
      (readGranule false true 0 (N_SYSTEM / 64 + 1023) twoFaults).1 ≠ RSP_UNCORRECTABLE ∧
      (awaitsRecovery (readGranule false true 0 (N_SYSTEM / 64 + 1023) twoFaults).2 acrossBlocks).isSome = true) := by decide +kernel

theorem witness_tier_upkeep :
    ({ tierState true 1 (anAccess true false) with tier := { (tierState true 1 (anAccess true false)).tier with
        writeback := [(false, N_SYSTEM / 64)] } : State }.tier.writeback.contains (false, N_SYSTEM / 64) = true ∧
      backPasses (tierState true 1 (anAccess true false)) false (N_SYSTEM / 64) = true ∧
      (backGrant false (N_SYSTEM / 64) 100 (tierState true 1 (anAccess true false))).badSyms false (N_SYSTEM / 64) = 1) ∧
    (backPasses (theFault false) true 0 = true ∧ backPasses (theFault false) false (N_SYSTEM / 64) = true) ∧
    State.reset.tier.blocked.contains (true, 1, 31) = false ∧
    ((theFault false).written false (N_SYSTEM / 64 * 64 / PAGE) = true ∧ (allocAt (theFault false) false (N_SYSTEM / 64 * 64)).isSome = true ∧
      lastGranule (theFault false) false ≠ some (N_SYSTEM / 64)) ∧
    ((theFault false).written true (0 * 64 / PAGE) = true ∧ (allocAt (theFault false) true (0 * 64)).isSome = true) := by decide +kernel

/-- Port 15 in UP with a QUEUE_ACK to send. -/
def portSends : State := (portAt 15 5).setPort 15 { egress := [(none, .queueAck (hdrTo 5))] }

theorem witness_fabric_grant : resourceNo .fabric = 3 ∧
    (grantClass portSends 3 15 (portCands portSends 15)).any (fun c => (grantVc 0 c (portCands portSends 15)).isSome) = true := by
  decide +kernel

theorem witness_schedule_events :
    (resourceNo .nTier ≠ 3 ∧
      grantClass (tierState true 0 (anAccess false false)) 0 (arbiterOf false N_SYSTEM)
        (tierCands (tierState true 0 (anAccess false false)) 0 (arbiterOf false N_SYSTEM)) = some 2 ∧
      (grantWithin 0 2 (tierCands (tierState true 0 (anAccess false false)) 0 (arbiterOf false N_SYSTEM))).isSome = true) ∧
    ({ State.reset with sched := { slot := 510 } : State }.sched.slot < 511) ∧
    (cycKind (slotEntry upState 0) ≠ 1 ∧ upState.sched.calLast.find? (fun e => e.1 = 0) = none ∧ bit (upState.rd32 (unitBlock false 0)) 1 = true) ∧
    (cycKind (slotEntry upState 1) ≠ 1 ∧ upState.sched.calLast.find? (fun e => e.1 = 16) = none ∧ bit (upState.rd32 (unitBlock true 0)) 1 = true) := by
  decide +kernel

/-! ### Premises of the other statements -/

/-- The levels of a cross-lane tree over register `r`. -/
def treeLevel (f : Word → Word → Word) (xs : List Word) : Nat → Nat → Word
  | 0, i => xs.getD i 0#32
  | n + 1, i => f (treeLevel f xs n i) (treeLevel f xs n (i + 16 / 2 ^ n))

theorem witness_cross_lane (t : Tile) (w : Nat) :
    (∀ i, treeLevel (xlaneFn (wFn w) (bit (wImm w) 8)) (t.v (wA w)) 0 i = (t.v (wA w)).getD i 0#32) ∧
    (∀ n i, treeLevel (xlaneFn (wFn w) (bit (wImm w) 8)) (t.v (wA w)) (n + 1) i =
      xlaneFn (wFn w) (bit (wImm w) 8) (treeLevel (xlaneFn (wFn w) (bit (wImm w) 8)) (t.v (wA w)) n i)
        (treeLevel (xlaneFn (wFn w) (bit (wImm w) 8)) (t.v (wA w)) n (i + 16 / 2 ^ n))) := ⟨fun _ => rfl, fun _ _ => rfl⟩

/-- A descriptor of six dimensions with COUNT 2 in each. -/
def sixDims : Desc := aDesc (BitVec.ofNat 512 (packBytes [(0, 2, 1 * 2 ^ 3 + 6 * 2 ^ 7), (2, 2, 1), (16, 8, 2), (24, 8, 2), (32, 8, 2),
  (40, 8, 2), (48, 8, 2), (56, 8, 2)]))

theorem witness_chunks : 1 ≤ sixDims.dims ∧ sixDims.dims ≤ 6 ∧ (∀ k, k < sixDims.dims → 0 < sixDims.count k) ∧ 63 < sixDims.chunks ∧
    (∀ k, k < sixDims.dims → sixDims.indexAt 63 k = 1) ∧ sixDims.tkind ≠ 0 ∧ handleDesc.tkind = 0 := by decide +kernel

theorem witness_flags : bit (regInfo PWR_BOOT_STATUS).w1c 13 = true ∧ bit (regInfo PWR_BOOT_STATUS).rw 13 = false ∧
    isFlag PWR_BOOT_STATUS 13 = true ∧ bit (0x2000#32).toNat 13 = true := by decide +kernel

theorem witness_tier_bytes : upState.written true 0 = false ∧ 1 ∉ pagesOf 0 64 ∧ 0 ∈ pagesOf 0 64 ∧
    (tierState true 0 (anAccess true false)).written true (5 / PAGE) = true := by decide +kernel

/-- A step from reset, and one that stores: the premises of what every step keeps. -/
theorem witness_step : memoriesWf State.reset = true ∧ State.reset.pending.head? ≠ some .powerGood ∧ isNext (step State.reset) = true ∧
    isNext (step { State.reset with pending := [.vstore ⟨0, {}⟩] }) = true := by decide +kernel

/-! ### Worked examples of the manual -/

/-- Purpose, Conventions and Numbers: the lid serial KT-2431-004127. -/
theorem test_serial : packBytes [(0, 3, 4127), (3, 1, 31), (4, 1, 24), (5, 1, 84), (6, 1, 75)] = 0x004B54181F00101F := by decide +kernel

/-- Tile (75, 43) lies in pod 44, with local index 59. -/
theorem test_tile_numbers : podOf (tileAt 75 43) = 44 ∧ localOf (tileAt 75 43) = 59 ∧ tileX (tileAt 75 43) = 75 ∧
    tileY (tileAt 75 43) = 43 := by decide +kernel

/-- The fields of the global address 0x1700_0000_AD2D_2340. -/
theorem test_tile_address : gDevice 0x17000000AD2D2340 = 5 ∧ gSpace 0x17000000AD2D2340 = 3 ∧
    tsRegion (gOffset 0x17000000AD2D2340) = 0 ∧ tsY (gOffset 0x17000000AD2D2340) = 43 ∧
    tsX (gOffset 0x17000000AD2D2340) = 75 ∧ tsByte (gOffset 0x17000000AD2D2340) = 0x12340 := by decide +kernel

/-- The LN8 product of 0x35 under scale 0x7C and 0xAA under scale 0x81. -/
theorem test_ln8_product : planeProduct 1 0xAA 0x81 0x35 0x7C = 0xC1E0CCDF#32 := by decide +kernel

/-- The exact group sum of BF16 products, and its addition to the accumulator. -/
theorem test_bf16_group :
    groupDot 4 (0x4580 + 0x3F80 * 2 ^ 16 + 0x3F80 * 2 ^ 32) 0 (0x4580 + 0x3F80 * 2 ^ 16 + 0x3F80 * 2 ^ 32) 0 = 0x4B800001#32 ∧
    fpAdd 0x3F800000#32 0x4B800001#32 = 0x4B800002#32 := by decide +kernel

/-- 100.0, −1.0, 3.0 and −0.3 to LN8, in both modes; and a lane of 7.0, which separates them. -/
theorem test_ln8_conversion :
    (cvtFrom false 1 none ([0x42C80000#32, 0xBF800000#32, 0x40400000#32, 0xBE99999A#32] ++ List.replicate 28 0#32)).packed = 0x002A917B ∧
    (cvtFrom false 1 none ([0x42C80000#32, 0xBF800000#32, 0x40400000#32, 0xBE99999A#32] ++ List.replicate 28 0#32)).scale = some 0x7E ∧
    (cvtFrom true 1 none ([0x42C80000#32, 0xBF800000#32, 0x40400000#32, 0xBE99999A#32] ++ List.replicate 28 0#32)).packed = 0x002A917B ∧
    (cvtFrom false 1 none [0x42C80000#32, 0x40E00000#32]).packed = 0x3E7B ∧
    (cvtFrom true 1 none [0x42C80000#32, 0x40E00000#32]).packed = 0x3D7B := by decide +kernel

/-- The stored form of a channel entry whose logical pod 2 maps to pod 44. -/
theorem test_stored_entry : storedEntry (podMap [0, 1, 44]) 0x00001D8206E40A02 = 0x00002B4B06E40A02 := by decide +kernel

/-- The first allocatable byte of the N-tier lies in stack 4. -/
theorem test_n_tier_unit : unitOf false 0x40000000 = 4 ∧ arbiterOf false 0x40000000 = 4 * 64 + 21 * 2 + 0 := by decide +kernel

/-- OFFSET 0xF_4240_0000: channel 31, extent 8, slot 2. -/
theorem test_flash_place : ftPlace (0xF42400000 / 65536) = { channel := 31, extent := 8, slot := 2 } := by decide +kernel

/-- A slot that reserves the N-tier for hulls 5 and 12. -/
theorem test_cycle_entry : cycOf [5, 12] = 0x00006055#32 ∧ cycHulls 0x00006055#32 = [5, 12] ∧ cycKind 0x00006055#32 = 1 := by decide +kernel

/-- Pods for N = 6, SHAPE 3 × 2, with hulls on pods 0–13; and with pod 14 taken as well. -/
theorem test_choose_pods : choosePods 6 3 2 0 (fun p => 14 ≤ p) = some (0, [14, 15, 16, 17, 18, 19]) ∧
    (choosePods 6 3 2 0 (fun p => 15 ≤ p)).map (fun x => x.2.head?) = some (some 20) := by decide +kernel

/-- The GENERATE of the driver's example, byte by byte. -/
def exampleEntry : BitVec 512 := BitVec.ofNat 512 (leNat [0x31, 0, 2, 1, 1, 0, 0xFE, 0xCA, 0x11, 0, 3, 0, 0, 0, 0, 0x10, 0x40, 0, 0, 0,
  0xD0, 7, 0, 0, 0, 0, 0, 0x20, 0x40, 0, 0, 0, 0, 1, 0, 0, 4, 1, 0, 0, 2, 0, 0, 0])

theorem test_generate_entry :
    entryOpcode exampleEntry = 0x31 ∧ entrySeq exampleEntry = 0x0102 ∧ entryTag exampleEntry = 0xCAFE0001 ∧ entryTenant exampleEntry = 17 ∧
    entryHull exampleEntry = 3 ∧ ({ entry := exampleEntry } : Request).inAddr = 0x4010000000 ∧ ({ entry := exampleEntry } : Request).inLen = 2000 ∧
    ({ entry := exampleEntry } : Request).outAddr = 0x4020000000 ∧ ({ entry := exampleEntry } : Request).maxNew = 256 ∧
    ({ entry := exampleEntry } : Request).sprouts = 4 := by decide +kernel

/-- Ring 37 of 16 entries: its doorbells of 14, 18 and a late 12; 31 is taken as behind; 20 before any fetch overruns. -/
def ring37 (head tail : Nat) : State := ((State.reset.wr (RING_SIZE 37) 4).wr (RING_SQ_HEAD 37) head).wr (RING_SQ_TAIL 37) tail

theorem test_doorbells :
    RING_SQ_BASE 37 = 0x100940 ∧ (sqBell 37 14 (ring37 0 0)).rd (RING_SQ_TAIL 37) = 14 ∧ (sqBell 37 18 (ring37 14 14)).rd (RING_SQ_TAIL 37) = 18 ∧
    (sqBell 37 12 (ring37 18 18)).rd (RING_SQ_TAIL 37) = 18 ∧ (sqBell 37 31 (ring37 14 14)).rd (RING_SQ_TAIL 37) = 14 ∧
    (sqBell 37 20 (ring37 0 14)).rd (RING_SQ_TAIL 37) = 14 ∧ bit ((sqBell 37 20 (ring37 0 14)).rd32 (RING_STATUS 37)) 4 = true := by decide +kernel

/-- Device 19 and its links to 43 (port 9 with lane 2 lost) and 21; 43 reaches 45 by its board port, 21 has lost its cable. -/
def device19 (cable : Bool) : State :=
  let s := ((((((State.reset.wr FAB_VALID 1).wr FAB_DEVICE 19).wr (PORT_STATE 9) 6).wr (PORT_LANES 9) 0b1011).wr (PORT_PEER 9) 43).wr
    (PORT_STATE 1) 5)
  let s := ((s.wr (PORT_LANES 1) 15).wr (PORT_PEER 1) 21)
  { s with fab := { s.fab with reports := [⟨43, 1, 0, none, [(45, 1, 4)]⟩, ⟨21, 1, 0, none, if cable then [(45, 9, 4)] else []⟩,
      ⟨45, 1, 0, none, []⟩] } }

theorem test_routes :
    boardPort (indexOf 19) (indexOf 21) = 1 ∧ cablePort (trayOf 21) (trayOf 45) = 9 ∧
    routeTo (device19 true) 45 = { state := 1, links := 2, port := 1, via := [21], bw := 112 } ∧
    routeTo (device19 false) 45 = { state := 2, links := 2, port := 9, via := [43], bw := 84 } := by decide +kernel

/-- The refills of the budget's example: a bucket at its depth, and one of 800 millitokens. -/
theorem test_refill :
    ((refill (State.reset.setSlot 17 { bound := true, rate := 400, burst := 8, level := 8000 })).slot 17).level = 8000 ∧
    ((refill (refill (State.reset.setSlot 17 { bound := true, rate := 400, burst := 8, level := 800 }))).slot 17).level = 1600 ∧
    available { bound := true, rate := 400, burst := 8, level := 5000 } = 5 := by decide +kernel

/-- A mesh domain takes 30 W of the ramp budget and a pod 4 W. -/
theorem test_ramp_steps : rampStep (.domainOn 81) = 300 ∧ rampStep (.domainOn 20) = 40 := by decide +kernel

/-! ### Ill-formed commands, one for each range -/

theorem test_wf_numbers :
    (Instr.nop 4096).wf = false ∧ (Instr.vfFlr 256).wf = false ∧ (Instr.vfFlr 0).wf = false ∧ (Instr.streamStop 80 0).wf = false ∧
    (Instr.streamStop 0 4).wf = false ∧ (Instr.vstore ⟨12800, {}⟩).wf = false ∧ (Instr.stall 128).wf = false ∧
    (Instr.queueEntrySend 0 16).wf = false ∧ (Instr.ackTimer 18).wf = false ∧ (Instr.bdpBufferDrain 64).wf = false ∧
    (Instr.domainPowerUpDone 100).wf = false ∧ (Instr.ftChannelFailure 256).wf = false ∧ (Instr.sfuGrant 0 10).wf = false ∧
    (Instr.i3cRead 256).wf = false ∧ (Instr.meshFlitForward 160 0 ⟨0, false⟩ {}).wf = false ∧ (Instr.meshFlitForward 0 80 ⟨0, false⟩ {}).wf = false ∧
    (Instr.meshFlitForward 0 0 ⟨5, false⟩ {}).wf = false ∧ (Instr.meshFlitForward 0 0 ⟨0, false⟩ ⟨[], List.replicate 10 0⟩).wf = false ∧
    (Instr.meshFlitForward 0 0 ⟨0, false⟩ ⟨List.replicate 10 0, []⟩).wf = false ∧ (Instr.nop 4095).wf = true ∧ (Instr.vstore ⟨12799, {}⟩).wf = true := by decide

theorem test_wf_forms :
    (Instr.sqDoorbell 0 0 4096 (.write 4 0)).wf = false ∧ (Instr.bar0LowHalfRead 0 (.half 2)).wf = false ∧ (Instr.bar0LowHalfRead 0 (.whole 0x1000000)).wf = false ∧
    (Instr.cxlMemRead 0 0).wf = false ∧ (Instr.cxlMemWrite 0 []).wf = false ∧ (Instr.msixVectorUnmask 0 2048).wf = false ∧
    (Instr.calibrationWindow ⟨true, 2⟩ 0).wf = false ∧ (Instr.calibrationWindow ⟨false, 12⟩ 0).wf = false ∧
    (Instr.tierAccess (.direct ⟨.fn 256, .addr 0, .read 1, 0⟩)).wf = false ∧
    (Instr.tierAccess (.direct ⟨.husk, .handle (2 ^ 20) false 0, .read 1, 0⟩)).wf = false ∧
    (Instr.tierAccess (.direct ⟨.husk, .addr 0, .read 1, 4⟩)).wf = false ∧ (Instr.ftChunkRead 0 [.retry 0 0]).wf = false ∧
    (Instr.portTrainingDone 0 (.locked 0 false 0)).wf = false := by decide

theorem test_wf_messages :
    (Instr.queueOpen ⟨0, 64, 0, 0, 0, 2, 0⟩ 0 0 0).wf = false ∧ (Instr.queueOpen ⟨0, 0, 64, 0, 0, 2, 0⟩ 0 0 0).wf = false ∧
    (Instr.queueOpen ⟨0, 0, 0, 64, 0, 2, 0⟩ 0 0 0).wf = false ∧ (Instr.queueOpen ⟨0, 0, 0, 0, 0, 2, 0⟩ 160 0 0).wf = false ∧
    (Instr.queueGrant ⟨0, 0, 0, 0, 3, 2, 0⟩ 0).wf = false ∧ (Instr.queueGrant ⟨0, 0, 0, 0, 0, 4, 0⟩ 0).wf = false ∧
    (Instr.queueCredit ⟨0, 0, 0, 0, 0, 2, 0⟩ 0 16 1).wf = false ∧ (Instr.epochReceive ⟨0, 3, 0, 0, 0, 0⟩ []).wf = false ∧
    (Instr.epochReceive ⟨0, 0, 0, 1, 0, 0⟩ []).wf = false ∧ (Instr.twaFault 8).wf = false ∧ (Instr.newSnapshotRequest 0 3).wf = false ∧
    (Instr.vfEnableWrite true 256).wf = false ∧ (Instr.pcieLinkTrained 2 16 false false).wf = false ∧
    (Instr.pcieLinkTrained 6 2 false false).wf = false ∧ (Instr.twinSwitchSaveBlocks [(128, [])]).wf = false ∧
    (Instr.pathChangeRelease 64).wf = false ∧ (Instr.laneLockLoss 0 4).wf = false ∧ (Instr.servingPortEntry 0 64).wf = false ∧
    (Instr.promotionStart (2 ^ 20)).wf = false ∧ (Instr.ftEraseDone ⟨0, 7450⟩ true 0).wf = false := by decide

end Sys2Proof.Tests
end

section
/-! PROOFS. Register fields and flags bit by bit (R15, R16), the reads and writes of BAR0 (R17–R19, R312, R446), and the
values at reset: the laws that later proofs share, then the statements they settle. -/

namespace Sys2Proof.Machine

/-! ### Bit fields of a number, bit by bit -/

/-- A number with a field replaced: the bits above the field, the field, the bits below it. -/
theorem setBits_eq (v lo w x : Nat) :
    setBits v lo w x = 2 ^ lo * (2 ^ w * (v / 2 ^ lo / 2 ^ w) + x % 2 ^ w) + v % 2 ^ lo := by
  have hswap : ∀ q r a : Nat, 2 ^ lo * (q + r) + a = 2 ^ lo * q + a + r * 2 ^ lo := fun q r a => by
    rw [Nat.mul_add, Nat.mul_comm (2 ^ lo) r, Nat.add_right_comm]
  have hv : v = 2 ^ lo * (2 ^ w * (v / 2 ^ lo / 2 ^ w)) + v % 2 ^ lo + v / 2 ^ lo % 2 ^ w * 2 ^ lo := by
    rw [← hswap, Nat.div_add_mod, Nat.div_add_mod]
  have hsub : v - v / 2 ^ lo % 2 ^ w * 2 ^ lo = 2 ^ lo * (2 ^ w * (v / 2 ^ lo / 2 ^ w)) + v % 2 ^ lo :=
    Nat.sub_eq_of_eq_add hv
  rw [setBits, bits, Nat.shiftRight_eq_div_pow, hsub, hswap]

theorem testBit_setBits (v lo w x i : Nat) :
    (setBits v lo w x).testBit i = if lo ≤ i ∧ i < lo + w then x.testBit (i - lo) else v.testBit i := by
  rw [setBits_eq, Nat.testBit_two_pow_mul_add _ (Nat.mod_lt _ (Nat.two_pow_pos _)),
    Nat.testBit_two_pow_mul_add _ (Nat.mod_lt _ (Nat.two_pow_pos _))]
  by_cases hlo : i < lo
  · simp [hlo, Nat.not_le.mpr hlo]
  · by_cases hw : i < lo + w
    · simp [hlo, hw, Nat.not_lt.mp hlo, show i - lo < w by omega]
    · simp [hlo, hw, show ¬ i - lo < w by omega, Nat.testBit_div_two_pow,
        show i - lo - w + w + lo = i by omega]

theorem testBit_bits (v lo w i : Nat) : (bits v lo w).testBit i = (decide (i < w) && v.testBit (lo + i)) := by
  rw [bits, Nat.testBit_mod_two_pow, Nat.testBit_shiftRight]

theorem bit_eq_testBit (v i : Nat) : bit v i = v.testBit i := by
  simp [bit, bits, Nat.testBit_eq_decide_div_mod_eq, Nat.shiftRight_eq_div_pow]

/-- Numbers without a common bit add without a carry. -/
theorem add_eq_or_of_and_eq_zero {a b : Nat} (h : a &&& b = 0) : a + b = a ||| b := by
  have hw : a + b < 2 ^ (a + b) := Nat.lt_two_pow_self
  have ha : a % 2 ^ (a + b) = a := Nat.mod_eq_of_lt (by omega)
  have hb : b % 2 ^ (a + b) = b := Nat.mod_eq_of_lt (by omega)
  have hand : BitVec.ofNat (a + b) a &&& BitVec.ofNat (a + b) b = 0#(a + b) :=
    BitVec.eq_of_toNat_eq (by simp [ha, hb, h])
  simpa [ha, hb, Nat.mod_eq_of_lt hw] using congrArg BitVec.toNat (BitVec.add_eq_or_of_and_eq_zero _ _ hand)

/-- Taking the bits of a mask away from a number. -/
theorem testBit_sub_and (a m i : Nat) : (a - (a &&& m)).testBit i = (a.testBit i && !m.testBit i) := by
  have hbit : ∀ j, (a ^^^ (a &&& m)).testBit j = (a.testBit j && !m.testBit j) := by
    intro j
    rw [Nat.testBit_xor, Nat.testBit_and]
    cases a.testBit j <;> cases m.testBit j <;> rfl
  have hdisj : (a ^^^ (a &&& m)) &&& (a &&& m) = 0 := by
    apply Nat.eq_of_testBit_eq
    intro j
    rw [Nat.testBit_and, hbit, Nat.testBit_and, Nat.zero_testBit]
    cases a.testBit j <;> cases m.testBit j <;> rfl
  have hor : (a ^^^ (a &&& m)) ||| (a &&& m) = a := by
    apply Nat.eq_of_testBit_eq
    intro j
    rw [Nat.testBit_or, hbit, Nat.testBit_and]
    cases a.testBit j <;> cases m.testBit j <;> rfl
  have hsub : a - (a &&& m) = a ^^^ (a &&& m) :=
    Nat.sub_eq_of_eq_add (by rw [add_eq_or_of_and_eq_zero hdisj, hor])
  rw [hsub, hbit]

/-- The word after a software write, bit by bit (R15, R17). -/
theorem testBit_writeMask (off old v i : Nat) : (writeMask off old v).testBit i =
    (((old.testBit i && !(regInfo off).rw.testBit i) || (v.testBit i && (regInfo off).rw.testBit i)) &&
      !(v.testBit i && (regInfo off).w1c.testBit i)) := by
  have hdisj : (old - (old &&& (regInfo off).rw)) &&& (v &&& (regInfo off).rw) = 0 := by
    apply Nat.eq_of_testBit_eq
    intro j
    rw [Nat.testBit_and, testBit_sub_and, Nat.testBit_and, Nat.zero_testBit]
    cases (regInfo off).rw.testBit j <;> simp
  rw [writeMask, testBit_sub_and, add_eq_or_of_and_eq_zero hdisj, Nat.testBit_or, testBit_sub_and,
    Nat.testBit_and, Nat.testBit_and]

/-! ### Register words and fields, read after a write -/

theorem rd32_wr32 (s : State) (off v o : Nat) : (s.wr32 off v).rd32 o = if o = off then v % 2 ^ 32 else s.rd32 o := by
  unfold State.rd32
  rw [wr32_word]
  split <;> simp

/-- A bit of a register word after a write of a field. -/
theorem rd32_wr_testBit (s : State) (f : Fld) (v o i : Nat) (hi : i < 32) : ((s.wr f v).rd32 o).testBit i =
    if o = f.off ∧ f.lo ≤ i ∧ i < f.lo + f.w then v.testBit (i - f.lo) else (s.rd32 o).testBit i := by
  rw [State.wr, rd32_wr32]
  by_cases ho : o = f.off
  · subst ho
    rw [if_pos rfl, Nat.testBit_mod_two_pow, testBit_setBits]
    simp [hi]
  · simp [ho]

theorem wr_word_ne (s : State) (f : Fld) (v o : Nat) (h : o ≠ f.off) : (s.wr f v).word o = s.word o := by
  rw [State.wr, wr32_word, if_neg h]

/-- A field that is written reads back. -/
theorem rd_wr_same (s : State) (f : Fld) (v : Nat) (hf : f.lo + f.w ≤ 32) : (s.wr f v).rd f = v % 2 ^ f.w := by
  apply Nat.eq_of_testBit_eq
  intro i
  rw [State.rd, testBit_bits, Nat.testBit_mod_two_pow]
  by_cases hi : i < f.w
  · rw [rd32_wr_testBit _ _ _ _ _ (by omega), if_pos ⟨rfl, by omega, by omega⟩, Nat.add_sub_cancel_left]
  · simp [hi]

/-- A field without a common bit reads as before. -/
theorem rd_wr_disjoint (s : State) (f g : Fld) (v : Nat) (hg : g.lo + g.w ≤ 32)
    (h : g.off ≠ f.off ∨ g.lo + g.w ≤ f.lo ∨ f.lo + f.w ≤ g.lo) : (s.wr f v).rd g = s.rd g := by
  apply Nat.eq_of_testBit_eq
  intro i
  rw [State.rd, State.rd, testBit_bits, testBit_bits]
  by_cases hi : i < g.w
  · rw [rd32_wr_testBit _ _ _ _ _ (by omega), if_neg (by omega)]
  · simp [hi]

theorem rd64_wr64_same (s : State) (off v : Nat) : (s.wr64 off v).rd64 off = v % 2 ^ 64 := by
  have hlo : (s.wr64 off v).rd32 off = v % 2 ^ 32 := by
    rw [State.wr64, rd32_wr32, if_neg (by omega), rd32_wr32, if_pos rfl]
  have hhi : (s.wr64 off v).rd32 (off + 4) = v / 2 ^ 32 % 2 ^ 32 := by
    rw [State.wr64, rd32_wr32, if_pos rfl, Nat.shiftRight_eq_div_pow]
  rw [State.rd64, hlo, hhi]
  omega

theorem wr64_word_ne (s : State) (off v o : Nat) (hlo : o ≠ off) (hhi : o ≠ off + 4) :
    (s.wr64 off v).word o = s.word o := by
  rw [State.wr64, wr32_word, if_neg hhi, wr32_word, if_neg hlo]

/-! ### Flags and companion counters (R16) -/

theorem companionOf_setCompanion (s : State) (off b o c : Nat) (v : BitVec 16) (hb : b < 32) (hc : c < 32) :
    (s.setCompanion off b v).companionOf o c = if o = off ∧ c = b then v else s.companionOf o c := by
  have hkey : flagKey o c = flagKey off b ↔ o = off ∧ c = b := by unfold flagKey; omega
  simp only [State.setCompanion, State.companionOf, tget_tput, hkey]

theorem rd32_raise_testBit (s : State) (off b o i : Nat) (hi : i < 32) : ((s.raise off b).rd32 o).testBit i =
    if o = off ∧ i = b then true else (s.rd32 o).testBit i := by
  have h : ((s.raise off b).rd32 o).testBit i = ((s.wr ⟨off, b, 1⟩ 1).rd32 o).testBit i := rfl
  rw [h, rd32_wr_testBit _ _ _ _ _ hi]
  by_cases hib : i = b
  · subst hib; simp
  · rw [if_neg (by simp only; omega), if_neg (by omega)]

theorem raise_word_ne (s : State) (off b o : Nat) (h : o ≠ off) : (s.raise off b).word o = s.word o :=
  wr_word_ne s ⟨off, b, 1⟩ 1 o h

theorem companionOf_raise_same (s : State) (off b : Nat) :
    ((s.raise off b).companionOf off b).toNat = min ((s.companionOf off b).toNat + 1) 0xFFFF := by
  have h : (s.raise off b).companionOf off b = BitVec.ofNat 16 (satAdd 16 (s.companionOf off b).toNat 1) :=
    tget_tput_same ..
  rw [h, satAdd, BitVec.toNat_ofNat]
  omega

theorem companionOf_raise_ne (s : State) (off b o c : Nat) (hb : b < 32) (hc : c < 32) (h : o ≠ off ∨ c ≠ b) :
    (s.raise off b).companionOf o c = s.companionOf o c := by
  rw [State.raise, companionOf_setCompanion _ _ _ _ _ _ hb hc, if_neg (by omega)]
  rfl

theorem swWrite_none (s : State) (off : Nat) (v : Word) :
    s.swWrite off v [] = s.wr32 off (writeMask off (s.rd32 off) v.toNat) := rfl

theorem swWrite_setNow (s : State) (off b : Nat) (v : Word) (h : isFlag off b = true) :
    s.swWrite off v [(off, b)] = (s.swWrite off v []).raise off b := by
  simp [State.swWrite, h]

theorem companionOf_swWrite (s : State) (off o b : Nat) (v : Word) :
    (s.swWrite off v []).companionOf o b = s.companionOf o b := rfl

theorem rd32_swWrite_testBit (s : State) (off i : Nat) (v : Word) (hi : i < 32) :
    ((s.swWrite off v []).rd32 off).testBit i = (writeMask off (s.rd32 off) v.toNat).testBit i := by
  rw [swWrite_none, rd32_wr32, if_pos rfl, Nat.testBit_mod_two_pow]
  simp [hi]

/-! ### Accesses over the link (R400) -/

theorem overPcie_live {t s : State} (h : linkLive s = true) : overPcie t s = .next t := by simp [overPcie, h]

theorem overPcie_dead {t s : State} (h : linkLive s = false) : overPcie t s = .next s := by simp [overPcie, h]

/-! ### What a function sees (R303, R312) -/

theorem visible_zero (s : State) (off : Nat) : visible s 0 off = true := by simp [visible]

/-- The serving block is the PF's alone (R303, R312). -/
theorem visible_servingBlock {s : State} {fn off : Nat} (hfn : fn ≠ 0) (hlo : 0x1000 ≤ off) (hhi : off < 0x1100) :
    visible s fn off = false := by
  simp only [visible, inRange, isMsix, isPba, isChan, isRing, Bool.or_eq_false_iff, Bool.and_eq_false_iff,
    decide_eq_false_iff_not]
  omega

/-! ### Reads of a word (R17, R18, R446) -/

theorem barWord_of_not_visible {s : State} {fn off : Nat} (h : visible s fn off = false) : barWord s fn off = 0#32 := by
  simp [barWord, h]

theorem barWord_windowLast (s : State) : barWord s 0 0x601FFC = windowWord s 0xFFC := rfl

/-- Of the words, the window's last one alone changes anything as it is read, and only for who sees it. -/
theorem barRead_plain {fn off : Nat} {s : State} (h : off ≠ 0x601FFC ∨ visible s fn off = false) :
    barRead fn off s = (barWord s fn off, s) := by
  rcases h with h | h <;> simp [barRead, h]

theorem barRead_windowLast (s : State) : barRead 0 0x601FFC s = (windowWord s 0xFFC, advanceCursor s) := by
  rw [barRead, barWord_windowLast, visible_zero]
  rfl

/-- The function's latch holds the high half at this offset (R18). -/
def LatchHolds (s : State) (fn off : Nat) : Prop :=
  isHigh off = true ∧ (s.latch fn).held = true ∧ (s.latch fn).off + 4 = off

theorem read32_low {fn off : Nat} (s : State) (h : isLow off = true) : read32 fn off s =
    answerRead fn off (barRead fn off (s.setLatch fn { held := true, off, high := barWord s fn (off + 4) })) := by
  simp [read32, h]

theorem read32_latched {fn off : Nat} {s : State} (hlow : isLow off = false)
    (h : LatchHolds s fn off) :
    read32 fn off s = (s.setLatch fn {}).emit (.readData fn off ((s.latch fn).high.zeroExtend 64)) := by
  obtain ⟨hhigh, hheld, hoff⟩ := h
  simp [read32, answerRead, hlow, hhigh, hheld, hoff]

theorem read32_unlatched {fn off : Nat} {s : State} (hlow : isLow off = false)
    (h : ¬ LatchHolds s fn off) :
    read32 fn off s = answerRead fn off (barRead fn off s) := by
  have hc : (isHigh off && (s.latch fn).held && decide ((s.latch fn).off + 4 = off)) = false := by
    simpa [LatchHolds, and_assoc] using h
  simp [read32, hlow, hc]

/-- The read of a low half that does not act on the recorder: the high half, as it stands, goes to the latch. -/
theorem read32_low_plain {fn off : Nat} {s : State} (h : isLow off = true)
    (hplain : off ≠ 0x601FFC ∨ visible s fn off = false) : read32 fn off s =
    (s.setLatch fn { held := true, off, high := barWord s fn (off + 4) }).emit
      (.readData fn off ((barWord s fn off).zeroExtend 64)) := by
  rw [read32_low s h, barRead_plain (s := s.setLatch fn _) hplain]
  rfl

theorem read32_unlatched_plain {fn off : Nat} {s : State} (hlow : isLow off = false)
    (h : ¬ LatchHolds s fn off)
    (hplain : off ≠ 0x601FFC ∨ visible s fn off = false) :
    read32 fn off s = s.emit (.readData fn off ((barWord s fn off).zeroExtend 64)) := by
  rw [read32_unlatched hlow h, barRead_plain hplain]
  rfl

/-! ### Writes (R18, R312) -/

theorem lowWrite_visible {fn off : Nat} {s : State} (v : Word) (hv : visible s fn off = true)
    (hp : isPodWindow off = false) : lowWrite fn off v s = s.setBuffer fn { held := true, off, high := v } := by
  simp [lowWrite, hv, hp]

theorem highWrite_buffered {fn off : Nat} {s : State} (v : Word) (hv : visible s fn off = true)
    (hp : isPodWindow off = false) (hheld : (s.buffer fn).held = true) (hoff : (s.buffer fn).off + 4 = off) :
    highWrite fn off v s =
      barWrite64 fn (s.buffer fn).off ((s.buffer fn).high.toNat + 2 ^ 32 * v.toNat) (s.setBuffer fn {}) := by
  simp [highWrite, hv, hp, hheld, hoff]

theorem highWrite_alone {fn off : Nat} {s : State} (v : Word) (hv : visible s fn off = true)
    (hp : isPodWindow off = false) (h : (s.buffer fn).held = false ∨ (s.buffer fn).off + 4 ≠ off) :
    highWrite fn off v s = barWrite64 fn (off - 4) (s.rd32 (off - 4) + 2 ^ 32 * v.toNat) s := by
  rcases h with h | h <;> simp [highWrite, hv, hp, h]

/-- Whichever half or word it is, a write of what the function does not see is refused. -/
theorem write32_of_not_visible {fn off : Nat} {s : State} (v : Word) (h : visible s fn off = false) :
    write32 fn off v s = refuseWrite fn 4 off s := by
  unfold write32
  split
  · simp [lowWrite, h]
  · split
    · simp [highWrite, h]
    · simp [barWrite, h]

theorem huskWrite_plain {off : Nat} (v : Word) (s : State) (hp : isPodWindow off = false) (h : off ≠ 0x501008) :
    huskWrite off v s = s.swWrite off v [] := by
  simp [huskWrite, huskPod, faultCleared, hp, h]

/-! ### The commands that read and write BAR0, for the accesses that R18 provides for -/

theorem exec_readHalf {fn off : Nat} (s : State) (h : off % 4 = 0) :
    exec (.bar0LowHalfRead fn (.half off)) s = overPcie (read32 fn off s) s := by
  simp [exec_bar0LowHalfRead, execBar0LowHalfRead, h]

theorem exec_readHigh (fn off : Nat) (s : State) :
    exec (.bar0HighHalfRead fn off) s = exec (.bar0LowHalfRead fn (.half off)) s := rfl

theorem exec_readWhole {fn off : Nat} (s : State) (h : isLow off = true) :
    exec (.bar0LowHalfRead fn (.whole off)) s = overPcie (read64 fn off s) s := by
  simp [exec_bar0LowHalfRead, execBar0LowHalfRead, h]

theorem exec_writeLow {fn off : Nat} (v : Word) (s : State) (h : off % 4 = 0) (hlow : isLow off = true) :
    exec (.bar0LowHalfWrite fn off v) s = overPcie (lowWrite fn off v s) s := by
  simp [exec_bar0LowHalfWrite, execBar0LowHalfWrite, h, hlow]

theorem exec_writeHigh {fn off : Nat} (v : Word) (s : State) (h : off % 4 = 0) (hhigh : isHigh off = true) :
    exec (.bar0HighHalfWrite fn off v) s = overPcie (highWrite fn off v s) s := by
  simp [exec_bar0HighHalfWrite, execBar0HighHalfWrite, h, hhigh]

theorem relatch_nil (a : Agent) (off : Nat) (wide : Bool) (v : DWord) (s t : State) :
    relatch a off wide v [] s t = t := by
  cases a <;> simp [relatch]

theorem exec_registerWrite32 (fn off : Nat) (v : DWord) (s : State) :
    exec (.registerWrite (.pcie fn) off false v []) s =
      overPcie (if off % 4 ≠ 0 then badAccess fn off 4 true s else write32 fn off (v.truncate 32) s) s := by
  rw [exec_registerWrite, execRegisterWrite]
  simp only [relatch_nil, setFlags, List.foldl_nil, Bool.false_eq_true, if_false]

theorem exec_registerWrite64 {fn off : Nat} (v : DWord) (s : State) (h : isLow off = true) :
    exec (.registerWrite (.pcie fn) off true v []) s = overPcie (barWrite64 fn off v.toNat s) s := by
  rw [exec_registerWrite, execRegisterWrite]
  simp only [relatch_nil, setFlags, List.foldl_nil, h, if_true]

theorem exec_registerWrite_husk (off : Nat) (v : DWord) (s : State) :
    exec (.registerWrite .husk off false v []) s = .next (huskWrite off (v.truncate 32) s) := by
  rw [exec_registerWrite, execRegisterWrite]
  simp only [relatch_nil, setFlags, List.foldl_nil, Bool.false_eq_true, if_false]

/-! ### Accesses of another width or alignment (R19) -/

theorem goodAccess_iff (off width : Nat) :
    goodAccess off width = true ↔ (width = 4 ∧ off % 4 = 0) ∨ (width = 8 ∧ isLow off = true) := by
  simp [goodAccess]

theorem exec_bar0BadAccess_bad {fn off width : Nat} (write : Bool) {s : State} (hlink : linkLive s = true)
    (h : goodAccess off width = false) :
    exec (.bar0BadAccess fn off width write) s = .next (badAccess fn off width write s) := by
  rw [exec_bar0BadAccess, execBar0BadAccess, overPcie_live hlink, h]
  rfl

theorem exec_bar0BadAccess_good {fn off width : Nat} (write : Bool) (s : State) (h : goodAccess off width = true) :
    exec (.bar0BadAccess fn off width write) s = .next s := by
  simp [exec_bar0BadAccess, execBar0BadAccess, overPcie, h]

/-! ### The frame of register reads -/

theorem advanceCursor_eq (s : State) : advanceCursor s = { s with bar := (advanceCursor s).bar } := by
  unfold advanceCursor
  split <;> rfl

theorem advanceCursor_word_ne (s : State) {o : Nat} (h : o ≠ EVR_CURSOR.off) : (advanceCursor s).word o = s.word o := by
  unfold advanceCursor
  split
  · exact wr_word_ne _ _ _ _ h
  · rfl

theorem advanceCursor_bit (s : State) {b : Nat} (hb : b < 32)
    (h : b < EVR_CURSOR.lo ∨ EVR_CURSOR.lo + EVR_CURSOR.w ≤ b) :
    bit ((advanceCursor s).rd32 EVR_CURSOR.off) b = bit (s.rd32 EVR_CURSOR.off) b := by
  unfold advanceCursor
  split
  · rw [bit_eq_testBit, bit_eq_testBit, rd32_wr_testBit _ _ _ _ _ hb, if_neg (by omega)]
  · rfl

/-- The reader's latch may differ, and nothing else. -/
def LatchOnly (fn : Nat) (s t : State) : Prop := t = s ∨ ∃ x, t = s.setLatch fn x

/-- What a register read may do before its answer leaves: change the reader's latch, and at the window's last word
advance the cursor (R18, R446). -/
def ReadPrepares (fn off : Nat) (s t : State) : Prop :=
  ∃ r, LatchOnly fn s r ∧ (t = r ∨ off = 0x601FFC ∧ t = advanceCursor r)

theorem LatchOnly.frame {fn : Nat} {s t : State} (h : LatchOnly fn s t) :
    ∃ x, t = { s with host := { s.host with latches := x } } ∧ ∀ g, g ≠ fn → t.latch g = s.latch g := by
  rcases h with rfl | ⟨x, rfl⟩
  · exact ⟨t.host.latches, rfl, fun _ _ => rfl⟩
  · exact ⟨_, rfl, fun g hg => setLatch_latch_ne s fn g x hg⟩

theorem ReadPrepares.frame {fn off : Nat} {s t : State} (h : ReadPrepares fn off s t) :
    ∃ b x, t = { s with bar := b, host := { s.host with latches := x } } ∧ (∀ g, g ≠ fn → t.latch g = s.latch g) ∧
      (off ≠ 0x601FFC → b = s.bar) ∧ (∀ o, o ≠ EVR_CURSOR.off → t.word o = s.word o) ∧
      ∀ i, i < 32 → (i < EVR_CURSOR.lo ∨ EVR_CURSOR.lo + EVR_CURSOR.w ≤ i) →
        bit (t.rd32 EVR_CURSOR.off) i = bit (s.rd32 EVR_CURSOR.off) i := by
  obtain ⟨r, hr, ht⟩ := h
  obtain ⟨x, rfl, hlatch⟩ := hr.frame
  rcases ht with rfl | ⟨rfl, rfl⟩
  · exact ⟨s.bar, x, rfl, hlatch, fun _ => rfl, fun _ _ => rfl, fun _ _ _ => rfl⟩
  · refine ⟨_, x, advanceCursor_eq _, ?_, fun h => absurd rfl h, fun o ho => advanceCursor_word_ne _ ho,
      fun i hi hout => advanceCursor_bit _ hi hout⟩
    intro g hg
    rw [advanceCursor_eq]
    exact hlatch g hg

theorem barRead_prepares {fn off : Nat} {s r : State} (h : LatchOnly fn s r) :
    ReadPrepares fn off s (barRead fn off r).2 := by
  refine ⟨r, h, ?_⟩
  by_cases hw : off = 0x601FFC
  · subst hw
    cases hv : visible r fn 0x601FFC <;> simp [barRead, hv]
  · exact .inl (by rw [barRead_plain (.inl hw)])

theorem read32_prepares (fn off : Nat) (s : State) :
    ∃ t v, ReadPrepares fn off s t ∧ read32 fn off s = t.emit (.readData fn off v) := by
  cases hlow : isLow off
  · by_cases hl : LatchHolds s fn off
    · exact ⟨_, _, ⟨_, .inr ⟨_, rfl⟩, .inl rfl⟩, read32_latched hlow hl⟩
    · exact ⟨_, _, barRead_prepares (.inl rfl), read32_unlatched hlow hl⟩
  · exact ⟨_, _, barRead_prepares (.inr ⟨_, rfl⟩), read32_low s hlow⟩

theorem read64_prepares (fn off : Nat) (s : State) :
    ∃ t v, ReadPrepares fn off s t ∧ read64 fn off s = t.emit (.readData fn off v) :=
  ⟨s, _, ⟨s, .inl rfl, .inl rfl⟩, rfl⟩

/-! ### Reset values (R272, R396) -/

/-- The assignment word of every pod window resets to 0, and beyond the last window no register stands. -/
theorem regReset_podAssigned (p : Nat) : regReset (POD_ASSIGNED p).off = 0#32 := by
  have hoff : (POD_ASSIGNED p).off = 0x800008 + p * 0x10000 := by
    simp only [POD_ASSIGNED, podBlock]
    omega
  have hmod : (0x800008 + p * 0x10000) % 0x10000 = 8 := by omega
  have hpod : regInfo (0x800008 + p * 0x10000) =
      if 0x800008 + p * 0x10000 < 0xD00000 then podInfo ((0x800008 + p * 0x10000) % 0x10000) else {} := by
    simp [regInfo, Nat.not_lt_of_le, Nat.le_add_right_of_le]
  rw [regReset, hoff, hpod, hmod]
  split <;> rfl

theorem reset_podOwner (p : Nat) : State.reset.podOwner p = none := by
  have hword : State.reset.word (POD_ASSIGNED p).off = 0#32 := regReset_podAssigned p
  simp [State.podOwner, State.rdB, State.rd, State.rd32, hword, bits]

/-! ### The statements settled -/

/-- Settles O50: a register word read bit by bit after a write of a field (`rd32_wr_testBit`). -/
theorem fieldLaws : Obligations.FieldLaws :=
  ⟨rd_wr_same, fun s f g v _ => rd_wr_disjoint s f g v, rd64_wr64_same, wr64_word_ne, fun _ _ _ => rfl⟩

/-- Settles O51: a write of 1 clears the flag, and a raise acts on the word that the write left. -/
theorem flagSetWins : Obligations.FlagSetWins := by
  refine ⟨?_, ?_, ?_, ?_⟩
  · intro s off b v hb hw1c _ hv
    rw [bit_eq_testBit] at hw1c hv ⊢
    rw [rd32_swWrite_testBit _ _ _ _ hb, testBit_writeMask, hv, hw1c]
    simp
  · intro s off b v hb hflag
    rw [swWrite_setNow _ _ _ _ hflag, bit_eq_testBit, rd32_raise_testBit _ _ _ _ _ hb, companionOf_raise_same,
      companionOf_swWrite]
    simp
  · intro s off b o c hb hc h
    exact companionOf_raise_ne s off b o c hb hc h
  · intro s off b hb
    refine ⟨?_, companionOf_raise_same s off b, ?_, fun o => raise_word_ne s off b o⟩
    · rw [bit_eq_testBit, rd32_raise_testBit _ _ _ _ _ hb]
      simp
    · intro c hc hcb
      rw [bit_eq_testBit, bit_eq_testBit, rd32_raise_testBit _ _ _ _ _ hc, if_neg (by omega)]

/-- Settles O55: an unseen word reads zero, and its writes are refused. -/
theorem privateRegisters : Obligations.PrivateRegisters := by
  refine ⟨?_, ?_, ?_, visible_zero, fun _ _ _ => visible_servingBlock⟩
  · intro fn off s hlink hv ha
    rw [exec_readHalf s ha, overPcie_live hlink]
    cases hlow : isLow off
    · by_cases hl : LatchHolds s fn off
      · rw [read32_latched hlow hl]
        obtain ⟨hhigh, hheld, hoff⟩ := hl
        simp [hhigh, hheld, hoff]
      · rw [read32_unlatched_plain hlow hl (.inr hv), barWord_of_not_visible hv]
        rw [LatchHolds] at hl
        simp [hl, and_assoc]
    · rw [read32_low_plain hlow (.inr hv), barWord_of_not_visible hv]
      simp
  · intro fn off s hlink hlow hv hv4
    rw [exec_readWhole s hlow, overPcie_live hlink, read64, barWord_of_not_visible hv, barWord_of_not_visible hv4]
    rfl
  · intro fn off v s hlink hv ha
    have hexec : exec (.registerWrite (.pcie fn) off false v []) s = .next (refuseWrite fn 4 off s) := by
      rw [exec_registerWrite32, overPcie_live hlink, if_neg (by omega), write32_of_not_visible _ hv]
    refine ⟨fun hr => ?_, fun hr => ?_⟩ <;> rw [hexec, refuseWrite, hr] <;> rfl

/-- Settles O56: a read prepares its answer, and the answer leaves. -/
theorem registerReadsFrame : Obligations.RegisterReadsFrame := by
  intro c fn off s hc
  obtain ⟨t, v, hprep, hexec⟩ :
      ∃ t v, ReadPrepares fn off s t ∧ exec c s = overPcie (t.emit (.readData fn off v)) s := by
    rcases hc with ⟨rfl, hlow⟩ | ⟨rfl | rfl, ha⟩
    · obtain ⟨t, v, hprep, hread⟩ := read64_prepares fn off s
      exact ⟨t, v, hprep, by rw [exec_readWhole s hlow, hread]⟩
    · obtain ⟨t, v, hprep, hread⟩ := read32_prepares fn off s
      exact ⟨t, v, hprep, by rw [exec_readHalf s ha, hread]⟩
    · obtain ⟨t, v, hprep, hread⟩ := read32_prepares fn off s
      exact ⟨t, v, hprep, by rw [exec_readHigh, exec_readHalf s ha, hread]⟩
  refine ⟨fun hlink => by rw [hexec, overPcie_dead hlink], fun hlink => ?_⟩
  rw [hexec, overPcie_live hlink]
  obtain ⟨b, x, rfl, hlatch, hbar, hword, hbit⟩ := hprep.frame
  exact ⟨_, v, x, rfl, rfl, rfl, hlatch, rfl, rfl, rfl, rfl, rfl, rfl, rfl, rfl, rfl, rfl, rfl, rfl, rfl, rfl, rfl, hbar,
    hword, hbit⟩

/-- Settles O22: each read is one of the cases of `read32`, or the whole read, over the link. -/
theorem registerReadsComplete : Obligations.RegisterReadsComplete := by
  refine ⟨?_, ?_, exec_readHigh, ?_, ?_, ?_⟩
  · intro fn off s hlink ha hlow _ hw
    rw [exec_readHalf s ha, overPcie_live hlink, read32_low_plain hlow (.inl hw)]
  · intro fn off s hlink hlow
    rw [exec_readWhole s hlow, overPcie_live hlink, read64]
  · intro fn off s hlink ha hlow hhigh hheld hoff
    rw [exec_readHigh, exec_readHalf s ha, overPcie_live hlink, read32_latched hlow ⟨hhigh, hheld, hoff⟩]
  · intro fn off s hlink ha hw hlow hno
    have hun : ¬ LatchHolds s fn off := by
      rintro ⟨hhigh, hheld, hoff⟩
      simp [hhigh, hheld, hoff] at hno
    rw [exec_readHigh, exec_readHalf s ha, overPcie_live hlink, read32_unlatched_plain hlow hun (.inl hw)]
  · intro s hlink
    rw [exec_evrWindowAutoRead, execEvrWindowAutoRead, overPcie_live hlink, barRead_windowLast]
    rfl

/-- Settles O23: the buffered, the lone and the whole write, and what REGISTER_WRITE comes to. -/
theorem halfWritesComplete : Obligations.HalfWritesComplete := by
  refine ⟨?_, ?_, ?_, ?_, ?_, ?_, ?_, ?_⟩
  · intro fn off v s hlink ha hlow hv hp
    rw [exec_writeLow v s ha hlow, overPcie_live hlink, lowWrite_visible v hv hp]
  · intro fn off v s hlink ha hhigh hv hp hheld hoff
    rw [exec_writeHigh v s ha hhigh, overPcie_live hlink, highWrite_buffered v hv hp hheld hoff]
  · intro fn off v s hlink ha hhigh hv hp h
    rw [exec_writeHigh v s ha hhigh, overPcie_live hlink, highWrite_alone v hv hp h]
  · intro off v s hlink hlow
    rw [exec_registerWrite64 v s hlow, overPcie_live hlink]
  · intro fn off v s hlow
    rw [exec_registerWrite32, exec_bar0LowHalfWrite, execBar0LowHalfWrite, write32, if_pos hlow]
    simp [hlow]
  · intro fn off v s hhigh hlow
    simp [exec_registerWrite32, exec_bar0HighHalfWrite, execBar0HighHalfWrite, write32, hlow, hhigh]
  · intro off v s hlink ha hlow hhigh
    rw [exec_registerWrite32, overPcie_live hlink]
    simp [write32, ha, hlow, hhigh]
  · intro off v s hp h
    rw [exec_registerWrite_husk, huskWrite_plain _ s hp h]

/-- Settles O24: the access is bad or it is none of this row's. -/
theorem badAccessesComplete : Obligations.BadAccessesComplete :=
  ⟨fun _ _ _ _ => exec_bar0BadAccess_bad true, fun _ _ _ _ => exec_bar0BadAccess_bad false,
    fun _ _ _ w s => exec_bar0BadAccess_good w s, goodAccess_iff⟩

/-- Settles O60: the tables of the reset state list nothing, so that each read answers its default. -/
theorem resetValues : Obligations.ResetValues := by
  have htile : ∀ k, State.reset.tile k = {} := fun _ => rfl
  refine ⟨fun _ => rfl, fun k n => ⟨?_, rfl⟩, fun k r => ?_, reset_podOwner, fun _ => rfl, rfl, by decide, by decide,
    by decide, by decide, by decide, ?_, rfl, rfl⟩
  · rw [htile, Tile.s]
    split <;> rfl
  · rw [htile]
    rfl
  · rintro f (rfl | rfl) <;> exact ⟨rfl, rfl, rfl⟩

end Sys2Proof.Machine
end

section
/-! PROOFS. The fields of a global address (R37), the canonical form of the memories (R198, R211, R232; log entries 5, 6) and
the events of the tier controllers (R32, R38, R199, R203–R205, R224, R226): the laws that carry them, then the statements they settle. -/

namespace Sys2Proof.Machine

/-! ### Fields of a number and of a global address (R37) -/

theorem bits_eq_div_mod (v lo w : Nat) : bits v lo w = v / 2 ^ lo % 2 ^ w := by
  rw [bits, Nat.shiftRight_eq_div_pow]

theorem bits_lt (v lo w : Nat) : bits v lo w < 2 ^ w := Nat.mod_lt _ (Nat.two_pow_pos w)

/-- A field is no wider than its width says. -/
theorem rd_lt (s : State) (f : Fld) : s.rd f < 2 ^ f.w := bits_lt _ _ _

theorem ownId_lt (s : State) : s.ownId < 64 := by
  rw [State.ownId]
  split
  · exact rd_lt s FAB_DEVICE
  · decide

theorem gDevice_eq (g : DWord) : gDevice g = g.toNat / 2 ^ 58 % 64 := bits_eq_div_mod _ _ _

theorem gSpace_eq (g : DWord) : gSpace g = g.toNat / 2 ^ 56 % 4 := bits_eq_div_mod _ _ _

theorem gOffset_eq (g : DWord) : gOffset g = g.toNat % 2 ^ 56 := by
  rw [gOffset, bits_eq_div_mod, Nat.pow_zero, Nat.div_one]

/-- A word of 64 bits is made of its three fields, and nothing is left over. -/
theorem globalAddress_split (g : DWord) : g.toNat = gDevice g * 2 ^ 58 + gSpace g * 2 ^ 56 + gOffset g ∧
    gDevice g < 64 ∧ gSpace g < 4 ∧ gOffset g < 2 ^ 56 := by
  have hg := g.isLt
  rw [gDevice_eq, gSpace_eq, gOffset_eq]
  omega

/-- Fields within their widths come back from the address that they make up. -/
theorem globalAddress_fields {d sp off : Nat} (hd : d < 64) (hsp : sp < 4) (hoff : off < 2 ^ 56) :
    gDevice (BitVec.ofNat 64 (d * 2 ^ 58 + sp * 2 ^ 56 + off)) = d ∧
    gSpace (BitVec.ofNat 64 (d * 2 ^ 58 + sp * 2 ^ 56 + off)) = sp ∧
    gOffset (BitVec.ofNat 64 (d * 2 ^ 58 + sp * 2 ^ 56 + off)) = off := by
  rw [gDevice_eq, gSpace_eq, gOffset_eq, BitVec.toNat_ofNat]
  omega

/-! ### Accesses that arrive (R32, R38, R462) -/

/-- Of one crossing only the oldest access goes on to its controller. -/
theorem exec_tierAccess_xbar {id : Nat} {s : State} {a : Access} (h : s.tier.xbar.find? (fun x => x.id = id) = some a) :
    exec (.tierAccess (.xbar id)) s = .next (if (firstAcross s a).map (fun x => x.id) = some a.id then
      { s with tier := { s.tier with xbar := s.tier.xbar.filter (fun x => x.id ≠ id), queue := s.tier.queue ++ [a] } }
      else s) := by
  simp only [exec_tierAccess, execTierAccess, h]
  by_cases hfirst : (firstAcross s a).map (fun x => x.id) = some a.id
  · rw [if_neg (not_not_intro hfirst), if_pos hfirst]
  · rw [if_pos hfirst, if_neg hfirst]

theorem exec_tierAccess_here {q : AccessReq} {s : State} (h : awayFrom s q = none) :
    exec (.tierAccess (.direct q)) s = .next (present (directUse q) q s) := by
  simp only [exec_tierAccess, execTierAccess, h]

theorem exec_tierAccess_away {q : AccessReq} {s : State} {d : Nat} (h : awayFrom s q = some d) :
    exec (.tierAccess (.direct q)) s = .next (sendAway d q s) := by
  simp only [exec_tierAccess, execTierAccess, h]

/-! ### Accesses that end, wait for a recovery or expire (R199, R203, R204, R224) -/

/-- Whether an access's controller serves it now: the controller is on, and no arbiter still holds the access. -/
def served (s : State) (a : Access) : Prop := controllerOn s a = true ∧ (a.granted = true ∨ arbiterFor s a = none)

/-- Nothing holds a served access that waits for no recovery yet. -/
theorem served.not_held {s : State} {a : Access} (h : served s a) (hr : a.recover = false) :
    ¬ (a.recover || !controllerOn s a || ((arbiterFor s a).isSome && !a.granted)) = true := by
  obtain ⟨hon, hg | hg⟩ := h <;> simp [hr, hon, hg]

theorem exec_tierAccessEnd_finishes {id : Nat} {s : State} {a : Access}
    (h : s.tier.queue.find? (fun x => x.id = id) = some a) (hr : a.recover = false) (hs : served s a)
    (hw : awaitsRecovery s a = none) : exec (.tierAccessEnd id) s = .next (finishAccess a s) := by
  simp only [exec_tierAccessEnd, execTierAccessEnd, h]
  rw [if_neg (hs.not_held hr), hw]

theorem exec_tierAccessEnd_waits {id : Nat} {s : State} {a : Access} {g : Bool × Nat}
    (h : s.tier.queue.find? (fun x => x.id = id) = some a) (hr : a.recover = false) (hs : served s a)
    (hw : awaitsRecovery s a = some g) : exec (.tierAccessEnd id) s = .next { s with tier := { s.tier with
      queue := s.tier.queue.map (fun b => if b.id = id then { b with recover := true } else b) } } := by
  simp only [exec_tierAccessEnd, execTierAccessEnd, h]
  rw [if_neg (hs.not_held hr), hw]

/-- What the end of a recovery read comes to is said by what the granule then answers. -/
theorem exec_recoveryComplete_waiting {id : Nat} {ok : Bool} {s u : State} {a : Access} {d : Bool} {g x : Nat}
    (h : s.tier.queue.find? (fun x => x.id = id) = some a) (hr : a.recover = true) (hon : controllerOn s a = true)
    (hw : awaitsRecovery s a = some (d, g)) (hg : readGranule d ok 0 g s = (x, u)) :
    exec (.recoveryComplete id ok) s = .next (if x = RSP_UNCORRECTABLE then endUnrecovered a d g u
      else if awaitsRecovery u a = none then finishAccess a u else u) := by
  have hheld : ¬ (!a.recover || !controllerOn s a) = true := by simp [hr, hon]
  simp only [exec_recoveryComplete, execRecoveryComplete, h]
  rw [if_neg hheld]
  simp only [hw, hg]
  by_cases hx : x = RSP_UNCORRECTABLE
  · rw [if_pos hx, if_pos hx]
  · rw [if_neg hx, if_neg hx]
    cases hu : awaitsRecovery u a <;> rfl

/-- An expired access ends LATE with the data of a failure, whatever its write left behind. -/
theorem lateAnswer_answer (p : Spot) (op : TierOp) (s : State) :
    (lateAnswer p op s).code = RSP_LATE ∧ (lateAnswer p op s).data = failData op := ⟨rfl, rfl⟩

theorem exec_accessDeadlineExpiry_queued {id : Nat} {s : State} {a : Access} {p : Spot}
    (h : s.tier.queue.find? (fun x => x.id = id) = some a) (hr : a.recover = false)
    (hp : spaceOf s a.req.who a.req.target a.req.op = some p) (hsp : p.space = 1 ∨ p.space = 2) :
    exec (.accessDeadlineExpiry (.queued id)) s = .next
      (endAccess a RSP_LATE 0 (spotAddr s p 0) (failData a.req.op) (lateAnswer p a.req.op s).s) := by
  obtain ⟨hcode, hdata⟩ := lateAnswer_answer p a.req.op s
  rw [← hcode, ← hdata]
  simp only [exec_accessDeadlineExpiry, execAccessDeadlineExpiry, h, hp]
  exact if_neg (by simpa [hr] using hsp.resolve_left)

/-! ### The controllers' own work (R203, R205, R226) -/

theorem exec_ceWriteback_granted {d : Bool} {g n : Nat} {s u : State} (h : s.tier.writeback.contains (d, g) = true)
    (hp : backPasses s d g = true) (hb : (backGrant d g n s).badSyms d g = 1)
    (hu : u = (backGrant d g n s).setBadSyms d g 0) : exec (.ceWriteback ⟨d, g⟩ n) s = .next { u with tier := { u.tier with
      writeback := u.tier.writeback.filter (· ≠ (d, g)) } } := by
  simp only [exec_ceWriteback, execCeWriteback, h, hp, hb, hu, Bool.and_self, if_true]

theorem exec_perBankRefresh_free {d : Bool} {u b : Nat} {s : State} (h : s.tier.blocked.contains (d, u, b) = false) :
    exec (.perBankRefresh d u b) s = .next
      { noteMaint (if d then 1 else 0) u (if d then 3800 else 3500) s with
        tier := { s.tier with blocked := s.tier.blocked ++ [(d, u, b)] } } := by
  simp only [exec_perBankRefresh, execPerBankRefresh, h]
  rfl

/-- A written granule of an allocation, or of the N-tier's system area, is read when background traffic passes there. -/
theorem exec_scrubRead_granted {d : Bool} {g n : Nat} {s : State} (hw : s.written d (g * 64 / PAGE) = true)
    (ha : (allocAt s d (g * 64)).isSome = true ∨ (d = false ∧ g * 64 < N_SYSTEM)) (hp : backPasses s d g = true) :
    exec (.scrubRead ⟨d, g⟩ n) s = .next (if d = false ∧ lastGranule s false = some g then
      (readGranule d true 2 g (backGrant d g n s)).2.addSat 0x201004 1
      else (readGranule d true 2 g (backGrant d g n s)).2) := by
  have halloc : ((allocAt s d (g * 64)).isNone && (d || decide (N_SYSTEM ≤ g * 64))) = false := by
    obtain hsome | ⟨hd, hlow⟩ := ha
    · simp [Option.isNone_eq_false_iff.mpr hsome]
    · simp [hd, Nat.not_le.mpr hlow]
  simp only [exec_scrubRead, execScrubRead, hw, halloc, hp]
  by_cases hlast : d = false ∧ lastGranule s false = some g <;> simp [hlast]

/-! ### The statements settled -/

/-- Settles O57: of what every step keeps (`step_of_exec`), the part about the memories. -/
theorem memoriesStayCanonical : Obligations.MemoriesStayCanonical := by
  intro s t hwf hstep
  obtain ⟨_, _, _, hmems, _⟩ :=
    step_of_exec (fun _ _ _ hne h => Keeps.exec_next hne h) (fun _ _ h => Keeps.powerGood_next h) hstep
  exact hmems hwf

/-- Settles O46: the device's own ID fits its field (`ownId_lt`), so the address built from it is one of three such fields. -/
theorem globalAddressFields : Obligations.GlobalAddressFields := by
  refine ⟨globalAddress_split, fun d sp off => globalAddress_fields, fun s sp off hsp hoff => ?_⟩
  obtain ⟨hdev, hspace, hoffset⟩ := globalAddress_fields (ownId_lt s) hsp hoff
  exact ⟨hspace, hoffset, hdev⟩

/-- Settles O33: each event by its law above. -/
theorem tierEventsComplete : Obligations.TierEventsComplete := by
  refine ⟨?_, ?_, ?_, ?_, ?_, ?_, ?_, ?_, ?_, fun _ => rfl, ?_, ?_⟩
  · intro id s a h hfirst
    rw [exec_tierAccess_xbar h, if_pos hfirst]
  · intro id s a h hfirst
    rw [exec_tierAccess_xbar h, if_neg hfirst]
  · intro q s h
    rw [exec_tierAccess_here h, present]
  · intro q s d g h htarget
    rw [exec_tierAccess_away h]
    exact ⟨fun hreach => by simp [sendAway, htarget, hreach], fun hreach => by simp [sendAway, htarget, hreach]⟩
  · intro id s a h hr hon hg hw
    exact exec_tierAccessEnd_finishes h hr ⟨hon, hg⟩ hw
  · intro id s a g h hr hon hg hw
    exact exec_tierAccessEnd_waits h hr ⟨hon, hg⟩ hw
  · intro id ok s a d g x u h hr hon hw hgran
    rw [exec_recoveryComplete_waiting h hr hon hw hgran]
    refine ⟨fun hx => ?_, fun hx hu => ?_, fun y hx hu => ?_⟩
    · rw [if_pos hx]
    · rw [if_neg hx, if_pos hu]
    · rw [if_neg hx, if_neg (by simp [hu])]
  · intro d g n s u h hp hb hu
    exact exec_ceWriteback_granted h hp hb hu
  · rintro id s a p r h hr hp hsp rfl
    exact exec_accessDeadlineExpiry_queued h hr hp hsp
  · rintro d u b s t h rfl
    exact exec_perBankRefresh_free h
  · rintro d g n s r hw ha hp rfl
    exact exec_scrubRead_granted hw ha hp

end Sys2Proof.Machine
end

section
/-! PROOFS. The words of a tile's operation list (R49, R68, R110–R112, R122–R128, R160–R164, R168, R221), the mesh between the
tiles (R55–R67, R78), the events that move a hull on (R76, R78, R145–R159) and the power inputs (R420–R435): what each issued
word and each event comes to, then the statements settled. -/

namespace Sys2Proof.Machine

/-! ### A word at issue (R160–R163) -/

/-- A word that issues is the one that the sequencer stands at, it names the operation, its registers are free and, within the
list, it is valid. -/
theorem issueGate_issues {op k : Nat} {s : State} {w : Nat} (h : issueGate op k s = .inr w) :
    w = currentWord (s.tile k) ∧ issuing k s = true ∧ wOp w = op ∧ (wordVectors w).any (sfuBusy (s.tile k)) = false ∧
      ((s.tile k).seq.index < (s.tile k).opCount → wordValid (s.tile k).seq.index (s.tile k).seq.reps.length
        (s.tile k).opCount (s.rd (STR_TABLE_LEN (podOf k))) w = true) := by
  unfold issueGate at h
  split at h
  · cases h
  · next hissuing =>
    dsimp only at h
    split at h
    · cases h
    · next hvalid =>
      split at h
      · cases h
      · next hop =>
        split at h
        · cases h
        · next hfree =>
          obtain rfl : currentWord (s.tile k) = w := Sum.inr.inj h
          exact ⟨rfl, by simpa using hissuing, Classical.not_not.mp hop, by simpa using hfree,
            fun hi => by simpa [hi] using hvalid⟩

/-- Past the list the word counts as END, so that any other word which issues is valid. -/
theorem issueGate_wordValid {op k : Nat} {s : State} {w : Nat} (h : issueGate op k s = .inr w) (hop : op ≠ 0) :
    wordValid (s.tile k).seq.index (s.tile k).seq.reps.length (s.tile k).opCount (s.rd (STR_TABLE_LEN (podOf k))) w = true := by
  obtain ⟨hw, -, hwop, -, hvalid⟩ := issueGate_issues h
  refine hvalid (Nat.lt_of_not_le fun hend => hop ?_)
  rw [← hwop, hw, currentWord, if_pos hend]
  rfl

theorem tileOp_done {op k : Nat} {run : Tile → Nat → State → Issue} {s : State} {w n : Nat} {t : Tile}
    (h : issueGate op k s = .inr w) (hrun : run (s.tile k) w s = .done t n) :
    tileOp op k run s = countCorrected (podOf k) n (s.setTile k t) := by
  simp only [tileOp, h, hrun]

theorem tileOp_wait {op k : Nat} {run : Tile → Nat → State → Issue} {s : State} {w : Nat} {t : Tile}
    (h : issueGate op k s = .inr w) (hrun : run (s.tile k) w s = .wait t) :
    tileOp op k run s = s.setTile k { t with stalled := true } := by
  simp only [tileOp, h, hrun]

theorem tileOp_open {op k : Nat} {run : Tile → Nat → State → Issue} {s : State} {w : Nat} {f : Word → Tile}
    (h : issueGate op k s = .inr w) (hrun : run (s.tile k) w s = .open_ f) :
    tileOp op k run s = s.fresh.2.setTile k (f s.fresh.1) := by
  simp only [tileOp, h, hrun]

/-! ### The words that have run (R110–R112, R122, R123, R162) -/

theorem exec_sop_issued {k w : Nat} {s : State} (h : issueGate OP_SOP k s = .inr w) : exec (.sop k) s =
    .next (s.setTile k (advance ((s.tile k).setS (wDst w)
      (intFn (wFn w) ((s.tile k).s (wA w)) (scalarB (s.tile k) w) ((s.tile k).s (wC w)))))) := by
  rw [exec_sop, execSop, tileOp_done h rfl]
  rfl

theorem exec_vint_issued {k w : Nat} {s : State} (h : issueGate OP_VINT k s = .inr w) : exec (.vint k) s =
    .next (s.setTile k (advance ((s.tile k).setV (wDst w) 0
      (lanes3 (intFn (wFn w)) ((s.tile k).v (wA w)) (vectorB (s.tile k) w) ((s.tile k).v (wC w)))))) := by
  rw [exec_vint, execVint, tileOp_done h rfl]
  rfl

theorem exec_vfp_issued {k w : Nat} {s : State} (h : issueGate OP_VFP k s = .inr w) : exec (.vfp k) s =
    .next (s.setTile k (advance ((s.tile k).setV (wDst w) 0
      (lanes3 (fpFn (wFn w)) ((s.tile k).v (wA w)) (vectorB (s.tile k) w) ((s.tile k).v (wC w)))))) := by
  rw [exec_vfp, execVfp, tileOp_done h rfl]
  rfl

theorem exec_vxlane_issued {k w : Nat} {s : State} (h : issueGate OP_VXLANE k s = .inr w) : exec (.vxlane k) s =
    .next (s.setTile k (advance ((s.tile k).setV (wDst w) 0 (xlaneResult (s.tile k) w)))) := by
  rw [exec_vxlane, execVxlane, tileOp_done h rfl]
  rfl

theorem exec_repeatOp_issued {k w : Nat} {s : State} (h : issueGate OP_REPEAT k s = .inr w) : exec (.repeatOp k) s =
    .next (s.setTile k { s.tile k with
      seq := { (s.tile k).seq with
        index := (s.tile k).seq.index + 1,
        reps := { left := bits (wImm w) 0 16, first := (s.tile k).seq.index + 1, len := bits (wImm w) 16 8 } ::
          (s.tile k).seq.reps,
        phase := 1 },
      stalled := false }) := by
  rw [exec_repeatOp, execRepeatOp, tileOp_done h rfl]
  rfl

/-- A request is presented where none stands, and otherwise waits (R113). -/
theorem exec_vsfu_issued {k w : Nat} {s : State} (h : issueGate OP_VSFU k s = .inr w) : exec (.vsfu k) s =
    .next (s.setTile k (if (s.tile k).sfu.isSome then { s.tile k with stalled := true } else advance { s.tile k with
      sfu := some { fn := bits (wImm w) 0 2, lanes := (s.tile k).v (wA w), dst := wDst w, granted := false, waited := 0 } })) := by
  rw [exec_vsfu, execVsfu]
  cases hsfu : (s.tile k).sfu with
  | some r => rw [tileOp_wait h (t := s.tile k) (by simp only [runVsfu, hsfu])]; rfl
  | none => rw [tileOp_done h (by simp only [runVsfu, hsfu]; rfl)]; rfl

/-- The counters of a conversion count where its word runs and converts from FP32. -/
theorem exec_vcvt_issued {k w : Nat} {s : State} (h : issueGate OP_VCVT k s = .inr w) : exec (.vcvt k) s =
    .next (if bit (wImm w) 4 = false
      then cvtCount (podOf k) (cvtOf (s.rdB (SFU_COMPAT (podOf k))) (s.tile k) w)
        (tileOp OP_VCVT k (fun t w _ => runVcvt t w (s.rdB (SFU_COMPAT (podOf k)))) s)
      else tileOp OP_VCVT k (fun t w _ => runVcvt t w (s.rdB (SFU_COMPAT (podOf k)))) s) := by
  obtain ⟨hw, hissuing, hop, hfree, -⟩ := issueGate_issues h
  have hvalid := issueGate_wordValid h (by decide)
  rw [hw] at hop hfree hvalid ⊢
  simp only [exec_vcvt, execVcvt, hissuing, hop, hfree, hvalid, decide_true, Bool.not_false, Bool.and_true, Bool.true_and,
    Bool.not_eq_true']

theorem exec_vcvt_back {k w : Nat} {s : State} (h : issueGate OP_VCVT k s = .inr w) (hback : bit (wImm w) 4 = true) :
    exec (.vcvt k) s = .next (s.setTile k (advance ((s.tile k).setV (wDst w) 0 (cvtBack (s.tile k) w)))) := by
  rw [exec_vcvt_issued h, if_neg (by simp [hback]), tileOp_done h (by simp only [runVcvt, hback, if_true]; rfl)]
  rfl

/-- A conversion from FP32 whose scalar destinations are apart. -/
theorem exec_vcvt_from {k w : Nat} {s : State} {c : Cvt} (h : issueGate OP_VCVT k s = .inr w)
    (hfrom : bit (wImm w) 4 = false) (hc : c = cvtOf (s.rdB (SFU_COMPAT (podOf k))) (s.tile k) w)
    (hapart : cvtConflict c.scale.isSome (wB w) (bits (wImm w) 8 6) (bits (wImm w) 14 6) = none) :
    exec (.vcvt k) s = .next (cvtCount (podOf k) c (s.setTile k (advance (cvtTile (s.tile k) w c)))) := by
  subst hc
  rw [exec_vcvt_issued h, if_pos hfrom, tileOp_done h (by simp only [runVcvt, hfrom, hapart]; rfl)]
  rfl

/-- Where two scalar destinations are one register, what that register holds is open (log 60). -/
theorem exec_vcvt_conflict {k w r : Nat} {s : State} {c : Cvt} (h : issueGate OP_VCVT k s = .inr w)
    (hfrom : bit (wImm w) 4 = false) (hc : c = cvtOf (s.rdB (SFU_COMPAT (podOf k))) (s.tile k) w)
    (hclash : cvtConflict c.scale.isSome (wB w) (bits (wImm w) 8 6) (bits (wImm w) 14 6) = some r) :
    exec (.vcvt k) s = .next (cvtCount (podOf k) c
      (s.fresh.2.setTile k ((advance (cvtTile (s.tile k) w c)).setS r s.fresh.1))) := by
  subst hc
  rw [exec_vcvt_issued h, if_pos hfrom, tileOp_open h (by simp only [runVcvt, hfrom, hclash]; rfl)]

theorem exec_vload_issued {k w : Nat} {waits : BankWait} {s : State} (h : issueGate OP_VLOAD k s = .inr w)
    (htrap : sramTrap (s.tile k) false (memOffset (s.tile k) w) 128 = none) : exec (.vload ⟨k, waits⟩) s =
    .next (withWaits k waits s (countCorrected (podOf k) (sramRead (s.tile k) (memOffset (s.tile k) w) 128).2.2 (s.setTile k
      (advance ((sramRead (s.tile k) (memOffset (s.tile k) w) 128).2.1.setV (wDst w) 0
        (bytesWords (sramRead (s.tile k) (memOffset (s.tile k) w) 128).1 32)))))) := by
  rw [exec_vload, execVload, tileOp_done h (by simp only [runVload, htrap]; rfl)]

theorem exec_vstore_issued {k w : Nat} {waits : BankWait} {s : State} (h : issueGate OP_VSTORE k s = .inr w)
    (htrap : sramTrap (s.tile k) true (memOffset (s.tile k) w) 128 = none) : exec (.vstore ⟨k, waits⟩) s =
    .next (withWaits k waits s (countCorrected (podOf k)
      (sramWrite (s.tile k) (memOffset (s.tile k) w) (wordBytes ((s.tile k).v (wB w)))).2 (s.setTile k
        (advance (sramWrite (s.tile k) (memOffset (s.tile k) w) (wordBytes ((s.tile k).v (wB w)))).1)))) := by
  rw [exec_vstore, execVstore, tileOp_done h (by simp only [runVstore, htrap]; rfl)]

/-- Both entries have room, the first now or in an earlier event (R112, log 58). -/
theorem exec_vpush_issued {k w : Nat} {s : State} {t1 t2 : Tile} (h : issueGate OP_VPUSH k s = .inr w)
    (hfirst : (if (s.tile k).seq.pushed then .ok (s.tile k) else pushEntry (routeOk s (podOf k)) (s.tile k) (bits (wImm w) 0 4)
      ((wordBytes ((s.tile k).v (wA w))).take 64)) = .ok t1)
    (hsecond : pushEntry (routeOk s (podOf k)) t1 (bits (wImm w) 0 4) ((wordBytes ((s.tile k).v (wA w))).drop 64) = .ok t2) :
    exec (.vpush k) s = .next (s.setTile k (advance t2)) := by
  rw [exec_vpush, execVpush, tileOp_done h (by simp only [runVpush, hfirst, hsecond]; rfl)]
  rfl

theorem exec_vpop_issued {k w n : Nat} {s : State} {t2 u : Tile} {bs : List Byte} (h : issueGate OP_VPOP k s = .inr w)
    (hpop : popEntry (s.tile k) (bits (wImm w) 0 4) = .ok (bs, t2, n))
    (hu : u = advance (t2.setV (wDst w) (if bit (wImm w) 4 then 16 else 0) (bytesWords bs 16))) : exec (.vpop k) s =
    .next (if ((countCorrected (podOf k) n (s.setTile k u)).tile k).seq = (s.tile k).seq
      then countCorrected (podOf k) n (s.setTile k u)
      else progress (podOf k) (owesAnew (podOf k) (countCorrected (podOf k) n (s.setTile k u)))) := by
  subst hu
  rw [exec_vpop, execVpop, tileOp_done h (by simp only [runVpop, hpop]; rfl)]

/-! ### The INT32 lanes of the cross-lane tree (R110, log 62) -/

theorem xlaneFn_max_toInt (a b : Word) : (xlaneFn 1 true a b).toInt = max a.toInt b.toInt := by
  show (if a.slt b = true then b else a).toInt = _
  split <;> rename_i hlt <;> rw [BitVec.slt_iff_toInt_lt] at hlt <;> omega

theorem xlaneFn_min_toInt (a b : Word) : (xlaneFn 2 true a b).toInt = min a.toInt b.toInt := by
  show (if a.slt b = true then a else b).toInt = _
  split <;> rename_i hlt <;> rw [BitVec.slt_iff_toInt_lt] at hlt <;> omega

/-! ### What a write of a tile's register leaves (R46, R47) -/

theorem setS_zero (t : Tile) (v : Word) : t.setS 0 v = t := rfl

theorem setS_s_ne (t : Tile) {m n : Nat} (v : Word) (h : n ≠ m) : (t.setS m v).s n = t.s n := by
  unfold Tile.setS
  split
  · rfl
  · simp only [Tile.s, tget_tput_ne _ _ _ _ _ h]

theorem setS_v (t : Tile) (n r : Nat) (v : Word) : (t.setS n v).v r = t.v r := by
  unfold Tile.setS
  split <;> rfl

theorem setV_s (t : Tile) (r lo n : Nat) (xs : List Word) : (t.setV r lo xs).s n = t.s n := rfl

/-- A run of puts leaves an index that none of them names. -/
theorem tget_foldl_tput_ne {β : Type} (l : List β) (at_ : β → Nat) (val : β → Word) (m : Tab Word) (i : Nat)
    (h : ∀ e ∈ l, at_ e ≠ i) : tget (l.foldl (fun m e => tput m (at_ e) (val e) 0#32) m) i 0#32 = tget m i 0#32 := by
  induction l generalizing m with
  | nil => rfl
  | cons e l ih =>
    rw [List.foldl_cons, ih _ (fun x hx => h x (List.mem_cons_of_mem _ hx)), tget_tput_ne _ _ _ _ _ (h e List.mem_cons_self).symm]

theorem tget_setV_ne (t : Tile) (r lo i : Nat) (xs : List Word) (h : i < 32 * r + lo ∨ 32 * r + lo + xs.length ≤ i) :
    tget (t.setV r lo xs).vreg i 0#32 = tget t.vreg i 0#32 := by
  refine tget_foldl_tput_ne _ _ _ _ _ fun e he => ?_
  have hlt := List.mem_range.mp (List.of_mem_zip he).2
  omega

/-- A write within one vector register leaves the others. -/
theorem setV_v_ne (t : Tile) {r d lo : Nat} {xs : List Word} (hlen : lo + xs.length ≤ 32) (h : r ≠ d) :
    (t.setV d lo xs).v r = t.v r := by
  refine List.map_congr_left fun l hl => tget_setV_ne _ _ _ _ _ ?_
  have := List.mem_range.mp hl
  omega

/-- A write of some lanes leaves the other lanes of the register. -/
theorem setV_lane_ne (t : Tile) {d lo l : Nat} {xs : List Word} (h : l < lo ∨ lo + xs.length ≤ l) :
    ((t.setV d lo xs).v d)[l]? = (t.v d)[l]? := by
  rw [Tile.v, Tile.v, List.getElem?_map, List.getElem?_map]
  by_cases hl : l < 32
  · rw [List.getElem?_range hl, Option.map_some, Option.map_some, tget_setV_ne _ _ _ _ _ (by omega)]
  · simp [Nat.not_lt.mp hl]

@[simp] theorem v_length (t : Tile) (r : Nat) : (t.v r).length = 32 := by simp [Tile.v]

@[simp] theorem vectorB_length (t : Tile) (w : Nat) : (vectorB t w).length = 32 := by
  unfold vectorB
  split
  · exact v_length t _
  · split <;> exact List.length_replicate

@[simp] theorem lanes3_length (f : Word → Word → Word → Word) (a b c : List Word) :
    (lanes3 f a b c).length = min a.length (min b.length c.length) := by simp [lanes3]

@[simp] theorem xlaneResult_length (t : Tile) (w : Nat) : (xlaneResult t w).length = 32 := by
  unfold xlaneResult
  dsimp only
  split
  · exact List.length_replicate
  · split
    · rw [List.length_map, v_length]
    · exact List.length_replicate

@[simp] theorem cvtBack_length (t : Tile) (w : Nat) : (cvtBack t w).length = 32 := by
  unfold cvtBack
  split
  · rw [List.length_map, v_length]
  · simp [cvtTo]

@[simp] theorem bytesWords_length (bs : List Byte) (n : Nat) : (bytesWords bs n).length = n := by simp [bytesWords]

@[simp] theorem wordBytes_length (ws : List Word) : (wordBytes ws).length = 4 * ws.length := by
  induction ws with
  | nil => rfl
  | cons w ws ih => simp [wordBytes, leBytes] at ih ⊢; omega

/-! ### What a word leaves of its tile's memories and channels (R48, R66, R112) -/

/-- From `t` to `u` the data SRAM, the queue store, the shell and the channels stand as they were. -/
structure SameMemories (t u : Tile) : Prop where
  sram : u.sram = t.sram
  queues : u.queues = t.queues
  shell : u.shell = t.shell
  chans : u.chans = t.chans

theorem setS_sameMemories (t : Tile) (n : Nat) (v : Word) : SameMemories t (t.setS n v) := by
  unfold Tile.setS
  split <;> exact ⟨rfl, rfl, rfl, rfl⟩

theorem SameMemories.trans {t u v : Tile} (h : SameMemories t u) (h2 : SameMemories u v) : SameMemories t v :=
  ⟨h2.sram.trans h.sram, h2.queues.trans h.queues, h2.shell.trans h.shell, h2.chans.trans h.chans⟩

theorem SameMemories.setS {t u : Tile} (h : SameMemories t u) (n : Nat) (v : Word) : SameMemories t (u.setS n v) :=
  h.trans (setS_sameMemories u n v)

theorem setV_sameMemories (t : Tile) (r lo : Nat) (xs : List Word) : SameMemories t (t.setV r lo xs) := ⟨rfl, rfl, rfl, rfl⟩

theorem SameMemories.advance {t u : Tile} (h : SameMemories t u) : SameMemories t (Machine.advance u) :=
  ⟨h.sram, h.queues, h.shell, h.chans⟩

theorem advance_v (t : Tile) (r : Nat) : (advance t).v r = t.v r := rfl

/-- The scale that an LN format stores, in its register; the other formats have none (R123). -/
def scaleStored (t : Tile) (w : Nat) (c : Cvt) : Tile := match c.scale with
  | some e => t.setS (wB w) (BitVec.ofNat 32 e)
  | none => t

/-- A conversion from FP32 writes its vector register and then the scale and the two maxima (R123, R127). -/
theorem cvtTile_eq (t : Tile) (w : Nat) (c : Cvt) : cvtTile t w c =
    ((scaleStored (t.setV (wDst w) 0 (bytesWords (leBytes c.packed 128) 32)) w c).setS (bits (wImm w) 8 6) c.maximum).setS
      (bits (wImm w) 14 6) (tensorMax (t.s (bits (wImm w) 14 6)) c.maximum) := by
  unfold cvtTile scaleStored
  cases c.scale <;> rfl

theorem scaleStored_v (t : Tile) (w r : Nat) (c : Cvt) : (scaleStored t w c).v r = t.v r := by
  unfold scaleStored
  split
  · exact setS_v _ _ _ _
  · rfl

theorem scaleStored_s_ne (t : Tile) {w n : Nat} (c : Cvt) (h : n ≠ wB w) : (scaleStored t w c).s n = t.s n := by
  unfold scaleStored
  split
  · exact setS_s_ne _ _ h
  · rfl

theorem SameMemories.scaleStored {t u : Tile} (h : SameMemories t u) (w : Nat) (c : Cvt) :
    SameMemories t (Machine.scaleStored u w c) := by
  unfold Machine.scaleStored
  split
  · exact h.setS _ _
  · exact h

theorem cvtTile_v_ne (t : Tile) {w r : Nat} (c : Cvt) (h : r ≠ wDst w) : (cvtTile t w c).v r = t.v r := by
  rw [cvtTile_eq, setS_v, setS_v, scaleStored_v, setV_v_ne t (by simp) h]

theorem cvtTile_s_ne (t : Tile) {w n : Nat} (c : Cvt) (hB : n ≠ wB w) (hmax : n ≠ bits (wImm w) 8 6)
    (htensor : n ≠ bits (wImm w) 14 6) : (cvtTile t w c).s n = t.s n := by
  rw [cvtTile_eq, setS_s_ne _ _ htensor, setS_s_ne _ _ hmax, scaleStored_s_ne _ _ hB, setV_s]

theorem cvtTile_sameMemories (t : Tile) (w : Nat) (c : Cvt) : SameMemories t (cvtTile t w c) := by
  rw [cvtTile_eq]
  exact (((setV_sameMemories t _ _ _).scaleStored w c).setS _ _).setS _ _

/-- A register of which the manual leaves the value open is one that the conversion names (log 60). -/
theorem cvtConflict_names {scale : Bool} {b m d r : Nat} (h : cvtConflict scale b m d = some r) : r = m ∨ r = b := by
  unfold cvtConflict at h
  split at h
  · exact .inl (Option.some.inj h).symm
  · split at h
    · exact .inr (Option.some.inj h).symm
    · cases h

/-! ### Pops and pushes of a channel (R66, R67) -/

theorem chan_setChan_same (t : Tile) (q : Nat) (c : Chan) : (t.setChan q c).chan q = c := tget_tput_same ..

theorem chan_setChan_ne (t : Tile) {p q : Nat} (c : Chan) (h : p ≠ q) : (t.setChan q c).chan p = t.chan p :=
  tget_tput_ne _ _ _ _ _ h

/-- A pop corrects error records of its entry and moves its own channel on. -/
theorem popEntry_ok {t t2 : Tile} {q n : Nat} {bs : List Byte} (h : popEntry t q = .ok (bs, t2, n)) :
    ∃ bad c, t2 = { t with bad := bad }.setChan q c := by
  unfold popEntry at h
  dsimp only at h
  split at h
  · cases h
  · split at h
    · cases h
    · unfold readEntry at h
      dsimp only at h
      cases hbad : eccBad t true (wordsOf (entryOffset (t.chanEntry t.active q) (t.chan q) 0) 64) with
      | some b => simp only [hbad] at h; cases h
      | none =>
        simp only [hbad] at h
        injection h with h
        injection h with _ h
        injection h with h _
        exact ⟨_, _, h.symm⟩

/-- A push writes one entry after those that its channel holds. -/
theorem pushEntry_ok {ok : Nat → Bool} {t t2 : Tile} {q : Nat} {data : List Byte} (h : pushEntry ok t q data = .ok t2) :
    ∃ bad, t2 = { t with
      bad := bad
      queues := mwrite t.queues (entryOffset (t.chanEntry t.active q) (t.chan q) (t.chan q).count) data }.setChan q
        { t.chan q with count := (t.chan q).count + 1 } := by
  unfold pushEntry at h
  dsimp only at h
  split at h
  · cases h
  · split at h
    · cases h
    · split at h
      · cases h
      · split at h
        · cases h
        · injection h with h
          exact ⟨_, h.symm⟩

/-- From `t` to `u`, `n` entries have joined channel `q`, each in its place of the queue store. -/
structure Pushed (q n : Nat) (t u : Tile) : Prop where
  v : ∀ r, u.v r = t.v r
  s : ∀ m, u.s m = t.s m
  sram : u.sram = t.sram
  shell : u.shell = t.shell
  active : u.active = t.active
  chan : ∀ p, p ≠ q → u.chan p = t.chan p
  head : (u.chan q).head = (t.chan q).head
  count : (u.chan q).count = (t.chan q).count + n
  queues : ∀ a, (∀ i, i < n → a < entryOffset (t.chanEntry t.active q) (t.chan q) ((t.chan q).count + i) ∨
      entryOffset (t.chanEntry t.active q) (t.chan q) ((t.chan q).count + i) + 64 ≤ a) →
    tget u.queues a 0#8 = tget t.queues a 0#8

theorem Pushed.none (q : Nat) (t : Tile) : Pushed q 0 t t :=
  ⟨fun _ => rfl, fun _ => rfl, rfl, rfl, rfl, fun _ _ => rfl, rfl, rfl, fun _ _ => rfl⟩

theorem Pushed.push {q n : Nat} {t u v : Tile} {ok : Nat → Bool} {data : List Byte} (h : Pushed q n t u)
    (hlen : data.length = 64) (hpush : pushEntry ok u q data = .ok v) : Pushed q (n + 1) t v := by
  obtain ⟨bad, rfl⟩ := pushEntry_ok hpush
  have hentry : u.chanEntry u.active q = t.chanEntry t.active q := by
    simp only [Tile.chanEntry, Tile.sh, h.shell, h.active]
  have hoff : entryOffset (u.chanEntry u.active q) (u.chan q) (u.chan q).count =
      entryOffset (t.chanEntry t.active q) (t.chan q) ((t.chan q).count + n) := by
    simp only [entryOffset, hentry, h.head, h.count]
  refine ⟨h.v, h.s, h.sram, h.shell, h.active, fun p hp => ?_, ?_, ?_, fun a ha => ?_⟩
  · rw [chan_setChan_ne _ _ hp]
    exact h.chan p hp
  · rw [chan_setChan_same]
    exact h.head
  · rw [chan_setChan_same]
    exact congrArg (· + 1) h.count
  · have hlast := ha n (Nat.lt_succ_self n)
    rw [hoff]
    refine (tget_mwrite _ _ _ _).trans ?_
    rw [if_neg (by omega)]
    exact h.queues a fun i hi => ha i (Nat.lt_succ_of_lt hi)

/-! ### What a word leaves of the block -/

/-- From `s` to `u` nothing changes but register words and their companion counters. -/
def RegistersOnly (s u : State) : Prop := ∃ b x, u = { s with bar := b, host := x }

theorem RegistersOnly.trans {s u v : State} (h : RegistersOnly s u) (h2 : RegistersOnly u v) : RegistersOnly s v := by
  obtain ⟨_, _, rfl⟩ := h
  obtain ⟨b, x, rfl⟩ := h2
  exact ⟨b, x, rfl⟩

theorem RegistersOnly.foldl {β : Type} {f : State → β → State} (h : ∀ s x, RegistersOnly s (f s x)) (l : List β) (s : State) :
    RegistersOnly s (l.foldl f s) := by
  induction l generalizing s with
  | nil => exact ⟨_, _, rfl⟩
  | cons x l ih => exact (h s x).trans (ih _)

theorem countCorrected_registersOnly (p n : Nat) (s : State) : RegistersOnly s (countCorrected p n s) := by
  unfold countCorrected State.raiseN
  by_cases hn : n = 0
  · rw [if_pos hn]
    exact ⟨_, _, rfl⟩
  · rw [if_neg hn, if_neg hn]
    exact ⟨_, _, rfl⟩

theorem progress_registersOnly (p : Nat) (s : State) : RegistersOnly s (progress p s) := by
  unfold progress
  split
  · exact .foldl (fun s q => ⟨_, _, rfl⟩) _ _
  · exact ⟨_, _, rfl⟩

theorem owesAnew_registersOnly (p : Nat) (s : State) : RegistersOnly s (owesAnew p s) := by
  unfold owesAnew
  split <;> exact ⟨_, _, rfl⟩

theorem cvtCount_registersOnly (p : Nat) (c : Cvt) (s : State) : RegistersOnly s (cvtCount p c s) := by
  unfold cvtCount
  dsimp only
  split <;> split <;> exact ⟨_, _, rfl⟩

theorem cvtCount_word_ne {p o : Nat} (c : Cvt) (s : State) (hsat : o ≠ CVT_SAT p) (hspecial : o ≠ CVT_SPECIAL p) :
    (cvtCount p c s).word o = s.word o := by
  have hstep : ∀ (u : State) off n, o ≠ off → (u.addSat off n).word o = u.word o := fun u off n hne => by
    rw [State.addSat, wr32_word, if_neg hne]
  unfold cvtCount
  dsimp only
  split <;> split <;> simp only [hstep _ _ _ hsat, hstep _ _ _ hspecial]

/-- Tile `k` stands in `u` as `t`, its banks' turns apart; the other tiles, the pods, the tiers, the flash and what has left
the block stand as in `s`. -/
structure LeavesTile (k : Nat) (t : Tile) (s u : State) : Prop where
  tile : ∃ turn, u.tile k = { t with bankTurn := turn }
  others : ∀ j, j ≠ k → u.tile j = s.tile j
  pods : u.pods = s.pods
  tier : u.tier = s.tier
  flash : u.flash = s.flash
  out : u.out = s.out

namespace LeavesTile

variable {k : Nat} {t : Tile} {s u v : State}

theorem v_eq (h : LeavesTile k t s u) (r : Nat) : (u.tile k).v r = t.v r := by
  obtain ⟨turn, htile⟩ := h.tile
  rw [htile]
  rfl

theorem s_eq (h : LeavesTile k t s u) (n : Nat) : (u.tile k).s n = t.s n := by
  obtain ⟨turn, htile⟩ := h.tile
  rw [htile]
  rfl

theorem memories (h : LeavesTile k t s u) : SameMemories t (u.tile k) := by
  obtain ⟨turn, htile⟩ := h.tile
  rw [htile]
  exact ⟨rfl, rfl, rfl, rfl⟩

theorem setTile (k : Nat) (t : Tile) (s : State) : LeavesTile k t s (s.setTile k t) :=
  ⟨⟨t.bankTurn, setTile_tile s k t⟩, fun j hj => setTile_tile_ne s k j t hj, rfl, rfl, rfl, rfl⟩

theorem registers (h : LeavesTile k t s u) (hr : RegistersOnly u v) : LeavesTile k t s v := by
  obtain ⟨_, _, rfl⟩ := hr
  exact ⟨h.tile, h.others, h.pods, h.tier, h.flash, h.out⟩

theorem bankConflict (h : LeavesTile k t s u) (b : Nat) : LeavesTile k t s (bankConflict k b u) := by
  obtain ⟨turn, htile⟩ := h.tile
  refine ⟨⟨tput (u.tile k).bankTurn b (!tget (u.tile k).bankTurn b false) false, ?_⟩,
    fun j hj => (setTile_tile_ne u k j _ hj).trans (h.others j hj), h.pods, h.tier, h.flash, h.out⟩
  · rw [Machine.bankConflict]
    exact (setTile_tile u k _).trans (by rw [htile])

theorem bankWaits (h : LeavesTile k t s u) (w : BankWait) : LeavesTile k t s (bankWaits k w u) := by
  have hfold : ∀ (l : List Nat) (u : State), LeavesTile k t s u →
      LeavesTile k t s (l.foldl (fun s b => Machine.bankConflict k (b % 4) s) u) := by
    intro l
    induction l with
    | nil => exact fun u hu => hu
    | cons b l ih => exact fun u hu => ih _ (hu.bankConflict _)
  exact (hfold w.riser u h).registers ⟨_, _, rfl⟩

theorem withWaits (h : LeavesTile k t s u) (w : BankWait) : LeavesTile k t s (withWaits k w s u) := by
  unfold Machine.withWaits
  split
  · exact h
  · exact h.bankWaits w

end LeavesTile

/-! ### The frames of the words -/

/-- A word that acts on registers alone leaves its tile's memories, and of its registers all but its destination. -/
theorem exec_registerWord {c : Instr} {k w op : Nat} {s : State} (h : issueGate op k s = .inr w)
    (hc : (c = .sop k ∧ op = OP_SOP) ∨ (c = .vint k ∧ op = OP_VINT) ∨ (c = .vfp k ∧ op = OP_VFP) ∨
      (c = .vxlane k ∧ op = OP_VXLANE) ∨ (c = .vsfu k ∧ op = OP_VSFU) ∨ (c = .repeatOp k ∧ op = OP_REPEAT)) :
    ∃ t, exec c s = .next (s.setTile k t) ∧ SameMemories (s.tile k) t ∧
      (∀ n, (op ≠ OP_SOP ∨ n ≠ wDst w) → t.s n = (s.tile k).s n) ∧
      (∀ r, ((op ≠ OP_VINT ∧ op ≠ OP_VFP ∧ op ≠ OP_VXLANE) ∨ r ≠ wDst w) → t.v r = (s.tile k).v r) := by
  rcases hc with ⟨rfl, rfl⟩ | ⟨rfl, rfl⟩ | ⟨rfl, rfl⟩ | ⟨rfl, rfl⟩ | ⟨rfl, rfl⟩ | ⟨rfl, rfl⟩
  · exact ⟨_, exec_sop_issued h, (setS_sameMemories _ _ _).advance, fun n hn => setS_s_ne _ _ (by simpa using hn),
      fun r _ => setS_v _ _ _ _⟩
  · exact ⟨_, exec_vint_issued h, (setV_sameMemories _ _ _ _).advance, fun _ _ => rfl,
      fun r hr => setV_v_ne _ (by simp) (by simpa using hr)⟩
  · exact ⟨_, exec_vfp_issued h, (setV_sameMemories _ _ _ _).advance, fun _ _ => rfl,
      fun r hr => setV_v_ne _ (by simp) (by simpa using hr)⟩
  · exact ⟨_, exec_vxlane_issued h, (setV_sameMemories _ _ _ _).advance, fun _ _ => rfl,
      fun r hr => setV_v_ne _ (by simp) (by simpa using hr)⟩
  · refine ⟨_, exec_vsfu_issued h, ?_⟩
    split <;> exact ⟨⟨rfl, rfl, rfl, rfl⟩, fun _ _ => rfl, fun _ _ => rfl⟩
  · exact ⟨_, exec_repeatOp_issued h, ⟨rfl, rfl, rfl, rfl⟩, fun _ _ => rfl, fun _ _ => rfl⟩

/-- A conversion, whichever way and with or without a clash of its scalar destinations (log 60). -/
theorem exec_vcvt_leaves {k w : Nat} {s u : State} (h : issueGate OP_VCVT k s = .inr w) (hu : exec (.vcvt k) s = .next u) :
    ∃ t, LeavesTile k t s u ∧ SameMemories (s.tile k) t ∧ (∀ r, r ≠ wDst w → t.v r = (s.tile k).v r) ∧
      (bit (wImm w) 4 = true → ∀ n, t.s n = (s.tile k).s n) ∧
      (∀ n, n ≠ wB w → n ≠ bits (wImm w) 8 6 → n ≠ bits (wImm w) 14 6 → t.s n = (s.tile k).s n) ∧
      (∀ o, o ≠ CVT_SAT (podOf k) → o ≠ CVT_SPECIAL (podOf k) → u.word o = s.word o) := by
  cases hdir : bit (wImm w) 4 with
  | true =>
    rw [exec_vcvt_back h hdir] at hu
    obtain rfl := Host.Outcome.next.inj hu
    exact ⟨_, .setTile k _ s, (setV_sameMemories _ _ _ _).advance, fun r hr => setV_v_ne _ (by simp) hr, fun _ _ => rfl,
      fun _ _ _ _ => rfl, fun _ _ _ => rfl⟩
  | false =>
    generalize hc : cvtOf (s.rdB (SFU_COMPAT (podOf k))) (s.tile k) w = c
    cases hclash : cvtConflict c.scale.isSome (wB w) (bits (wImm w) 8 6) (bits (wImm w) 14 6) with
    | none =>
      rw [exec_vcvt_from h hdir hc.symm hclash] at hu
      obtain rfl := Host.Outcome.next.inj hu
      exact ⟨_, (LeavesTile.setTile k _ s).registers (cvtCount_registersOnly _ _ _), (cvtTile_sameMemories _ _ _).advance,
        fun r hr => cvtTile_v_ne _ _ hr, by simp, fun n => cvtTile_s_ne _ _, fun o => cvtCount_word_ne _ _⟩
    | some x =>
      rw [exec_vcvt_conflict h hdir hc.symm hclash] at hu
      obtain rfl := Host.Outcome.next.inj hu
      have hleaves := LeavesTile.setTile k ((advance (cvtTile (s.tile k) w c)).setS x s.fresh.1) s.fresh.2
      have hleaves : LeavesTile k _ s _ :=
        ⟨hleaves.tile, hleaves.others, hleaves.pods, hleaves.tier, hleaves.flash, hleaves.out⟩
      refine ⟨_, hleaves.registers (cvtCount_registersOnly _ _ _), (cvtTile_sameMemories _ _ _).advance.setS _ _,
        fun r hr => (setS_v _ _ _ _).trans (cvtTile_v_ne _ _ hr), by simp, fun n hB hmax htensor => ?_,
        fun o => cvtCount_word_ne _ _⟩
      have hx : n ≠ x := by
        rcases cvtConflict_names hclash with rfl | rfl
        · exact hmax
        · exact hB
      exact (setS_s_ne _ _ hx).trans (cvtTile_s_ne _ _ hB hmax htensor)

/-- A load writes one vector register and corrects error records, whatever its accesses waited for (R49). -/
theorem exec_vload_leaves {k w : Nat} {waits : BankWait} {s u : State} (h : issueGate OP_VLOAD k s = .inr w)
    (htrap : sramTrap (s.tile k) false (memOffset (s.tile k) w) 128 = none) (hu : exec (.vload ⟨k, waits⟩) s = .next u) :
    ∃ bad xs, xs.length = 32 ∧ LeavesTile k (advance ({ s.tile k with bad := bad }.setV (wDst w) 0 xs)) s u := by
  rw [exec_vload_issued h htrap] at hu
  obtain rfl := Host.Outcome.next.inj hu
  exact ⟨_, _, bytesWords_length _ 32,
    ((LeavesTile.setTile k _ s).registers (countCorrected_registersOnly _ _ _)).withWaits waits⟩

/-- A pop leaves its tile with one half of the destination written (R112). -/
theorem exec_vpop_leaves {k w n : Nat} {s u : State} {t t2 : Tile} {bs : List Byte} (h : issueGate OP_VPOP k s = .inr w)
    (hpop : popEntry (s.tile k) (bits (wImm w) 0 4) = .ok (bs, t2, n))
    (ht : t = advance (t2.setV (wDst w) (if bit (wImm w) 4 then 16 else 0) (bytesWords bs 16)))
    (hu : exec (.vpop k) s = .next u) : LeavesTile k t s u := by
  rw [exec_vpop_issued h hpop ht] at hu
  obtain rfl := Host.Outcome.next.inj hu
  have hran := (LeavesTile.setTile k t s).registers (countCorrected_registersOnly (podOf k) n _)
  split
  · exact hran
  · exact (hran.registers (owesAnew_registersOnly _ _)).registers (progress_registersOnly _ _)

/-- VPUSH leaves its tile as the one or two pushes of this event do (R112, log 58). -/
theorem exec_vpush_pushed {k w : Nat} {s u : State} {t1 t2 : Tile} (h : issueGate OP_VPUSH k s = .inr w)
    (hfirst : (if (s.tile k).seq.pushed then .ok (s.tile k) else pushEntry (routeOk s (podOf k)) (s.tile k) (bits (wImm w) 0 4)
      ((wordBytes ((s.tile k).v (wA w))).take 64)) = .ok t1)
    (hsecond : pushEntry (routeOk s (podOf k)) t1 (bits (wImm w) 0 4) ((wordBytes ((s.tile k).v (wA w))).drop 64) = .ok t2)
    (hu : exec (.vpush k) s = .next u) :
    u = s.setTile k (advance t2) ∧ ∃ n, n ≤ 2 ∧ Pushed (bits (wImm w) 0 4) n (s.tile k) t2 := by
  refine ⟨(Host.Outcome.next.inj ((exec_vpush_issued h hfirst hsecond).symm.trans hu)).symm, ?_⟩
  cases hpushed : (s.tile k).seq.pushed with
  | true =>
    rw [hpushed, if_pos rfl] at hfirst
    obtain rfl := QResult.ok.inj hfirst
    exact ⟨1, by decide, (Pushed.none _ _).push (by simp) hsecond⟩
  | false =>
    rw [hpushed, if_neg (by decide)] at hfirst
    exact ⟨2, by decide, ((Pushed.none _ _).push (by simp) hfirst).push (by simp) hsecond⟩

/-! ### PLANE_RUN (R168) -/

/-- What a run of the nest makes of the state: its tile, the corrected words, the bank waits, and the progress of a pop. -/
def afterNest (k : Nat) (waits : BankWait) (r : PRun) (s : State) : State :=
  let u := bankWaits k waits (countCorrected (podOf k) r.corrected (s.setTile k r.tile))
  if (List.range 16).any (fun q => (r.tile.chan q).owed ≠ ((s.tile k).chan q).owed) then progress (podOf k) (owesAnew (podOf k) u)
  else u

/-- The nest of tile `k` run from its present state as far as its channels allow. -/
def nestRun (k : Nat) (s : State) : PRun :=
  planeLoop (localOf k % 16) (nestLevels (s.tile k)) (routeOk s (podOf k)) (planeFuel (s.tile k) (nestLevels (s.tile k)))
    { s.tile k with seq := { (s.tile k).seq with phase := 2 }, waitPop := [], waitPush := [] } 0

theorem exec_planeRun_issued {k : Nat} {waits : BankWait} {s : State} {r : PRun} (hissuing : issuing k s = true)
    (hvalid : wordValid (s.tile k).seq.index (s.tile k).seq.reps.length (s.tile k).opCount (s.rd (STR_TABLE_LEN (podOf k)))
      (currentWord (s.tile k)) = true) (hop : wOp (currentWord (s.tile k)) = OP_PLANE_RUN) (hr : r = nestRun k s) :
    (r.trap = none → exec (.planeRun ⟨k, waits⟩) s = .next (afterNest k waits r s)) ∧
    (∀ f, r.trap = some f → exec (.planeRun ⟨k, waits⟩) s = .next (raiseFault k f none (afterNest k waits r s))) := by
  unfold nestRun at hr
  simp only [exec_planeRun, execPlaneRun, hissuing, hvalid, hop, ← hr, ne_eq, not_true_eq_false, Bool.not_true,
    Bool.and_false, Bool.false_eq_true, if_false]
  refine ⟨fun htrap => ?_, fun f htrap => ?_⟩ <;> simp only [htrap] <;> rfl

/-! ### The sequencer's own words (R162, R164, R221) -/

theorem exec_endOp_issued {k w : Nat} {s : State} (h : issueGate OP_END k s = .inr w) (hacc : (s.tile k).seq.accOpen = false) :
    exec (.endOp k) s = .next (s.setTile k { s.tile k with
      seq := { (s.tile k).seq with phase := 3 }, waitPop := [], waitPush := [], stalled := false }) := by
  have hrun : runEnd (s.tile k) w s = .done { s.tile k with
      seq := { (s.tile k).seq with phase := 3 }, waitPop := [], waitPush := [], stalled := false } 0 :=
    if_neg (by rw [hacc]; decide)
  rw [exec_endOp, execEndOp, tileOp_done h hrun]
  rfl

theorem exec_waitOp_issued {k w : Nat} {s : State} (h : issueGate OP_WAIT k s = .inr w)
    (hfree : ∀ j, j < 8 → bit (wImm w) j = true → ticketFree (s.tile k) j = true) :
    exec (.waitOp k) s = .next (s.setTile k (advance (s.tile k))) := by
  have hall : (List.range 8).all (fun j => !bit (wImm w) j || ticketFree (s.tile k) j) = true := by
    rw [List.all_eq_true]
    intro j hj
    cases hbit : bit (wImm w) j with
    | false => rfl
    | true => exact hfree j (List.mem_range.mp hj) hbit
  rw [exec_waitOp, execWaitOp, tileOp_done h (by simp only [runWait, hall, if_true]; rfl)]
  rfl

/-- Every descriptor of the tile is complete and, with scope 1, no entry is on its way to a remote route (R221). -/
theorem exec_inGraphFence_issued {k w : Nat} {s : State} (h : issueGate OP_FENCE k s = .inr w)
    (hfree : ∀ j, j < 8 → ticketFree (s.tile k) j = true)
    (hscope : bit (wImm w) 0 = false ∨ ((s.tile k).remoteOut = 0 ∧
      ∀ q, q < 16 → chMode ((s.tile k).chanEntry (s.tile k).active q) = MODE_OUTPUT →
        chHub ((s.tile k).chanEntry (s.tile k).active q) = true → 32 ≤ chHubIdx ((s.tile k).chanEntry (s.tile k).active q) →
        chHubIdx ((s.tile k).chanEntry (s.tile k).active q) < 48 → ((s.tile k).chan q).count = 0)) :
    exec (.inGraphFence k) s = .next (s.setTile k (advance (s.tile k))) := by
  have htickets : (List.range 8).all (ticketFree (s.tile k)) = true :=
    List.all_eq_true.mpr fun j hj => hfree j (List.mem_range.mp hj)
  have hrun : runFence (s.tile k) w s = .done (advance (s.tile k)) 0 := by
    refine if_pos ?_
    rw [htickets, Bool.true_and]
    rcases hscope with hlocal | ⟨hout, hremote⟩
    · rw [hlocal]
      rfl
    · simpa [hout] using Or.inr hremote
  rw [exec_inGraphFence, execInGraphFence, tileOp_done h hrun]
  rfl

/-! ### Steps (R68, R71, R72, R141–R143, R160, R164, R295) -/

/-- The tile at its boundary: the sequencer and what belongs to the step cleared, the next shell named where NEXT_EN names one. -/
def boundaryTile (t : Tile) : Tile :=
  { t with seq := {}, acc := [], left := {}, pend := if t.nextEn t.active then some (t.nextShell t.active) else t.pend }

theorem exec_stepBoundaryReached_at {k h : Nat} {s : State} (hruns : s.rd (POD_STATE (podOf k)) = POD_RUNNING)
    (hat : atBoundary (s.tile k) = true)
    (hnext : (s.tile k).nextEn (s.tile k).active = false ∨
      2 ≤ s.rd (SHL_SLOT (podOf k) ((s.tile k).nextShell (s.tile k).active)))
    (howner : (s.setTile k (boundaryTile (s.tile k))).podOwner (podOf k) = some h) :
    exec (.stepBoundaryReached k) s = .next (if (hullTiles (s.setTile k (boundaryTile (s.tile k))) h).all
        (fun j => ((s.setTile k (boundaryTile (s.tile k))).tile j).seq.phase = 0) = true
      then stepEnds h (s.setTile k (boundaryTile (s.tile k))) else s.setTile k (boundaryTile (s.tile k))) := by
  have hready : ((s.tile k).nextEn (s.tile k).active &&
      decide (s.rd (SHL_SLOT (podOf k) ((s.tile k).nextShell (s.tile k).active)) < 2)) = false := by
    rcases hnext with hoff | hslot
    · rw [hoff, Bool.false_and]
    · rw [decide_eq_false (Nat.not_lt.mpr hslot), Bool.and_false]
  unfold boundaryTile at howner ⊢
  simp only [exec_stepBoundaryReached, execStepBoundaryReached, hruns, hat, hready, howner, ne_eq, not_true_eq_false,
    decide_false, Bool.not_true, Bool.or_false, Bool.false_eq_true, if_false]
  exact (apply_ite Host.Outcome.next _ _ _).symm

/-- The fields of a record of STALL (R72, R75): the code, and a place that the array does not have. -/
theorem faultRecord_stall {d detail : Nat} (hd : d < 64) :
    bits (faultRecord 0xFF 0x7F 0 0 d 0x10 detail).toNat 32 8 = 0x10 ∧
    bits (faultRecord 0xFF 0x7F 0 0 d 0x10 detail).toNat 0 8 = 0xFF ∧
    bits (faultRecord 0xFF 0x7F 0 0 d 0x10 detail).toNat 8 7 = 0x7F := by
  simp only [bits_eq_div_mod, faultRecord, BitVec.toNat_ofNat]
  omega

/-- The record of a STALL in hull `h` (R72, R73, R75). -/
def stallRecord (s : State) (h : Nat) : DWord :=
  faultRecord 0xFF 0x7F 0 0 s.ownId 0x10 (min ((hullTiles s h).filter (fun k => (s.tile k).waitPop ≠ [])).length 4095
    + min ((hullTiles s h).filter (fun k => (s.tile k).waitPush ≠ [])).length 4095 * 2 ^ 12)

/-- The hull's pods take the fault of their watchdog (R72, R76). -/
theorem exec_stall_at {h p : Nat} {ps : List Nat} {s : State} {st : Step} (hstep : (s.hull h).step = some st)
    (hbegun : st.begun = true) (hopen : st.reported.contains (s.hull h).devIndex = false) (hlive : (s.hull h).live = true)
    (hfault : (s.hull h).fault = none) (hwait : placementWait s h = false)
    (hpods : sortBy (fun a b => a ≤ b) (s.hull h).pods = p :: ps) :
    exec (.stall h) s = .next (hullFault h p 160 (stallRecord s h) ((p :: ps).foldl (fun s' q =>
      notePodFault q 160 (stallRecord s h) true (s'.wr32 (POD_WDOG_COUNT q) (wdogLimit s' q))) s)) := by
  simp only [exec_stall, execStall, hstep, hpods, hlive, hbegun, hopen, hfault, hwait, Option.isSome_none, Bool.not_true,
    Bool.not_false, Bool.and_self, Bool.or_self, Bool.false_eq_true, if_false, stallRecord]

/-! ### Entries and credits that leave a tile (R57, R66, R67, R78) -/

/-- Nothing keeps the head of channel `q` of tile `k` from leaving: the queues work, the entry's place exists, and a credit
stands for it. -/
structure MayLeave (s : State) (k q : Nat) : Prop where
  live : queuesLive s k = true
  side : podSide s k = true
  hull : hullFaulted s (podOf k) = false
  inject : s.rdB (POD_INJECT_STOP (podOf k)) = false ∨ chHub ((s.tile k).chanEntry (s.tile k).active q) = true
  mode : chMode ((s.tile k).chanEntry (s.tile k).active q) = MODE_OUTPUT
  count : ((s.tile k).chan q).count ≠ 0
  credits : ((s.tile k).chan q).credits ≠ 0
  dest : destBad ((s.tile k).chanEntry (s.tile k).active q) = false

/-- Channel `q` of a tile once it has sent its head against a credit. -/
def sentChan (t : Tile) (q : Nat) : Chan :=
  { t.chan q with
    head := ((t.chan q).head + 1) % chDepth (t.chanEntry t.active q)
    count := (t.chan q).count - 1
    credits := (t.chan q).credits - 1 }

theorem MayLeave.not_held {s : State} {k q : Nat} (h : MayLeave s k q) :
    (!queuesLive s k || !podSide s k || hullFaulted s (podOf k)
      || (s.rdB (POD_INJECT_STOP (podOf k)) && !chHub ((s.tile k).chanEntry (s.tile k).active q))
      || decide (chMode ((s.tile k).chanEntry (s.tile k).active q) ≠ MODE_OUTPUT)
      || decide (((s.tile k).chan q).count = 0) || decide (((s.tile k).chan q).credits = 0)) = false := by
  have hinject : (s.rdB (POD_INJECT_STOP (podOf k)) && !chHub ((s.tile k).chanEntry (s.tile k).active q)) = false := by
    rcases h.inject with hin | hhub
    · rw [hin, Bool.false_and]
    · rw [hhub, Bool.not_true, Bool.and_false]
  rw [h.live, h.side, h.hull, hinject, decide_eq_false (not_not_intro h.mode), decide_eq_false h.count,
    decide_eq_false h.credits]
  rfl

theorem exec_queueEntrySend_mesh {k q n : Nat} {s : State} {t2 : Tile} {bs : List Byte} (h : MayLeave s k q)
    (hread : readEntry (s.tile k) q = .ok (bs, t2, n)) (hmesh : chHub ((s.tile k).chanEntry (s.tile k).active q) = false)
    (hroom : (s.tile k).toMesh.length < 8) : exec (.queueEntrySend k q) s =
    .next (localPump k ((progress (podOf k) (countCorrected (podOf k) n (s.setTile k { t2.setChan q (sentChan (s.tile k) q) with
      toMesh := t2.toMesh ++ [{
        destX := chX ((s.tile k).chanEntry (s.tile k).active q), destY := chY ((s.tile k).chanEntry (s.tile k).active q),
        destQ := chQ ((s.tile k).chanEntry (s.tile k).active q), credit := false, hull := s.rd (POD_HULL (podOf k)),
        payload := BitVec.ofNat 512 (leNat bs) }] }))).addWrap (POD_MESH_INJ (podOf k)) 1)) := by
  simp only [exec_queueEntrySend, execQueueEntrySend, h.not_held, h.dest, hread, Bool.false_eq_true, if_false]
  simp only [hmesh, Nat.not_le.mpr hroom, Bool.false_eq_true, if_false]
  rfl

theorem exec_queueEntrySend_hub {k q n : Nat} {s : State} {t2 : Tile} {bs : List Byte} (h : MayLeave s k q)
    (hread : readEntry (s.tile k) q = .ok (bs, t2, n)) (hhub : chHub ((s.tile k).chanEntry (s.tile k).active q) = true)
    (hroom : (s.tile k).riserUp.length < 8) : exec (.queueEntrySend k q) s =
    .next (riserPump k (refreshHubIdle (podOf k) (progress (podOf k) (countCorrected (podOf k) n (s.setTile k
      { t2.setChan q (sentChan (s.tile k) q) with
        riserUp := t2.riserUp ++ [(chHubIdx ((s.tile k).chanEntry (s.tile k).active q), q, BitVec.ofNat 512 (leNat bs))],
        remoteOut := if 32 ≤ chHubIdx ((s.tile k).chanEntry (s.tile k).active q) &&
          chHubIdx ((s.tile k).chanEntry (s.tile k).active q) < 48 then t2.remoteOut + 1 else t2.remoteOut }))))) := by
  simp only [exec_queueEntrySend, execQueueEntrySend, h.not_held, h.dest, hread, Bool.false_eq_true, if_false]
  simp only [hhub, Nat.not_le.mpr hroom, if_false, if_true]
  rfl

theorem exec_creditReturnSend_mesh {k q h k2 q2 : Nat} {s : State} (hlive : queuesLive s k = true)
    (hside : podSide s k = true) (howed : ((s.tile k).chan q).owed ≠ 0) (howner : s.podOwner (podOf k) = some h)
    (hproducer : producerOf s h k q = some (k2, q2)) (hroom : (s.tile k).toMesh.length < 8) :
    exec (.creditReturnSend k q) s = .next (localPump k (refreshInjectStopped (podOf k) ((s.setTile k
      { (s.tile k).setChan q { (s.tile k).chan q with owed := 0 } with
        toMesh := (s.tile k).toMesh ++ [{
          destX := tileX k2, destY := tileY k2, destQ := q2, credit := true, hull := h,
          payload := BitVec.ofNat 512 ((s.tile k).chan q).owed }] }).addWrap (POD_MESH_INJ (podOf k)) 1))) := by
  simp only [exec_creditReturnSend, execCreditReturnSend, hlive, hside, howner, hproducer, howed, Nat.not_le.mpr hroom,
    decide_false, Bool.not_true, Bool.or_self, Bool.false_eq_true, if_false]

/-! ### The routers (R58, R60, R63) -/

/-- VC 1 goes first, unless it had the output in the cycle before (R60). -/
theorem outputPick_both {s : State} {x y out : Nat} {a b : Nat × Flit} (next : Bool)
    (h1 : candidate s x y out 1 = some a) (h0 : candidate s x y out 0 = some b) : outputPick s x y out next =
    if next && tget (s.router (tileAt x y)).lastVc1 out false then some (0, b) else some (1, a) := by
  simp only [outputPick, h1, h0]

theorem outputPick_vc1 {s : State} {x y out : Nat} {a : Nat × Flit} (next : Bool)
    (h1 : candidate s x y out 1 = some a) (h0 : candidate s x y out 0 = none) :
    outputPick s x y out next = some (1, a) := by
  simp only [outputPick, h1, h0]

theorem outputPick_vc0 {s : State} {x y out : Nat} {a : Nat × Flit} (next : Bool)
    (h1 : candidate s x y out 1 = none) (h0 : candidate s x y out 0 = some a) :
    outputPick s x y out next = some (0, a) := by
  simp only [outputPick, h1, h0]

theorem checkFlit_clean {k i : Nat} {errs : List Nat} {f : Flit} {s : State} (h : ∀ e ∈ errs, e = 0) :
    checkFlit k i errs f s = (true, s) := by
  have hbad : ¬ errs.any (2 ≤ ·) = true := by
    rw [List.any_eq_true]
    rintro ⟨e, he, h2⟩
    rw [h e he] at h2
    cases h2
  have hone : ¬ errs.contains 1 = true := by
    rw [List.contains_iff_mem]
    intro h1
    cases h 1 h1
  rw [checkFlit, if_neg hbad, if_neg hone]

theorem checkFlit_corrected {k i : Nat} {errs : List Nat} {f : Flit} {s : State} (h : ∀ e ∈ errs, e < 2) (h1 : 1 ∈ errs) :
    checkFlit k i errs f s = (true, (s.raise (POD_FAULT_STATUS (podOf k)) 3).addSat (POD_LINK_CE (podOf k)) 1) := by
  have hbad : ¬ errs.any (2 ≤ ·) = true := by
    rw [List.any_eq_true]
    rintro ⟨e, he, h2⟩
    exact absurd (h e he) (Nat.not_lt.mpr (of_decide_eq_true h2))
  rw [checkFlit, if_neg hbad, if_pos (List.contains_iff_mem.mpr h1)]

theorem checkFlit_lost {k i : Nat} {errs : List Nat} {f : Flit} {s : State} (h : ∃ e ∈ errs, 2 ≤ e) :
    checkFlit k i errs f s = (false, raiseFault k ⟨0x0A, i, 0⟩ (some f.hull) s) := by
  obtain ⟨e, he, h2⟩ := h
  rw [checkFlit, if_pos (List.any_eq_true.mpr ⟨e, he, decide_eq_true h2⟩)]

/-- A flit that the router's own input finds good goes on to the check at the other end of the link. -/
theorem exec_meshFlitForward_sent {x y out vc i k j : Nat} {next : Bool} {s u : State} {f : Flit} (errs : List Nat)
    (hon : meshOn s (tileAt x y) = true) (hpick : outputPick s x y out next = some (vc, i, f))
    (hu : u = noteServed x y out vc i (dropHead (tileAt x y) i vc s))
    (hrecv : (k, j) = (downstream x y out).getD (tileAt x y, i)) : exec (.meshFlitForward x y ⟨out, next⟩ ⟨[], errs⟩) s =
    .next (if (checkFlit k j errs f u).1 then deliver x y out vc f (checkFlit k j errs f u).2
      else (checkFlit k j errs f u).2) := by
  have hhere : checkFlit (tileAt x y) i [] f u = (true, u) := checkFlit_clean (fun e he => by cases he)
  simp only [exec_meshFlitForward, execMeshFlitForward, hon, hpick, ← hrecv, ← hu, hhere, Bool.not_true, Bool.false_eq_true,
    if_false]

theorem exec_meshFlitForward_lostHere {x y out vc i : Nat} {next : Bool} {s u : State} {f : Flit} {errs : List Nat}
    (link : List Nat) (hon : meshOn s (tileAt x y) = true) (hpick : outputPick s x y out next = some (vc, i, f))
    (hu : u = noteServed x y out vc i (dropHead (tileAt x y) i vc s)) (h : ∃ e ∈ errs, 2 ≤ e) :
    exec (.meshFlitForward x y ⟨out, next⟩ ⟨errs, link⟩) s = .next (raiseFault (tileAt x y) ⟨0x0A, i, 0⟩ (some f.hull) u) := by
  simp only [exec_meshFlitForward, execMeshFlitForward, hon, hpick, ← hu, checkFlit_lost h, Bool.not_true, Bool.not_false,
    Bool.false_eq_true, if_false, if_true]

/-! ### Arrival at a tile (R54, R57, R67) -/

/-- A data flit's hull is tested against the one that holds the tile's pod (R54). -/
theorem exec_dataFlitArrive_head {k : Nat} {s : State} {f : Flit} {rest : List Flit} (hhead : (s.tile k).toTile = f :: rest)
    (hdata : f.credit = false) (hside : podSide s k = true) : exec (.dataFlitArrive k) s =
    .next (if s.rd (POD_STATE (podOf k)) = POD_OFF ∨ s.podOwner (podOf k) ≠ some f.hull
      then raiseFault k ⟨0x09, f.hull, f.destQ⟩ (some f.hull) (ejectFlit k s)
      else acceptEntry k f.destQ f.payload (ejectFlit k s)) := by
  simp only [exec_dataFlitArrive, execDataFlitArrive, hhead, hdata, hside, Bool.not_true, Bool.or_self, Bool.false_eq_true,
    if_false, Bool.or_eq_true, decide_eq_true_eq]
  exact (apply_ite Host.Outcome.next _ _ _).symm

theorem exec_creditFlitArrive_fits {k : Nat} {s : State} {f : Flit} {rest : List Flit} {t : Tile} {c : Chan}
    (hhead : (s.tile k).toTile = f :: rest) (hcredit : f.credit = true) (hside : podSide s k = true)
    (ht : t = (ejectFlit k s).tile k) (hc : c = t.chan f.destQ) (hmode : chMode (t.chanEntry t.active f.destQ) = MODE_OUTPUT)
    (hroom : c.credits + bits f.payload.toNat 0 16 ≤ chInit (t.chanEntry t.active f.destQ)) :
    exec (.creditFlitArrive k) s = .next ((ejectFlit k s).setTile k
      (t.setChan f.destQ { c with credits := c.credits + bits f.payload.toNat 0 16 })) := by
  simp only [exec_creditFlitArrive, execCreditFlitArrive, hhead, hcredit, hside, ← ht, ← hc, hmode, Nat.not_lt.mpr hroom,
    ne_eq, not_true_eq_false, Bool.not_true, Bool.or_self, Bool.false_eq_true, if_false]

/-! ### Drains and faults (R76, R78, R155) -/

/-- A drained hull that is quiescent goes on to its scan-out (R155 step 5). -/
theorem exec_quiescenceReached_drains {h : Nat} {s v u : State} (hv : v = beginQuiesce h s)
    (hu : u = (v.hull h).pods.foldl (fun (s : State) p => refreshInjectStopped p s) v) (hpods : (v.hull h).pods ≠ [])
    (hhalted : ∀ p ∈ (v.hull h).pods, u.rd (POD_STATE p) = POD_HALTED) (hquiet : quiescent u h = true)
    (hdrains : drains u h = true) (hopen : (v.hull h).drained = false)
    (hfault : (v.hull h).fault = none ∨ (v.hull h).faultDone = true) :
    exec (.quiescenceReached h) s = .next (startScan h 1 u) := by
  have hall : (v.hull h).pods.all (fun p => u.rd (POD_STATE p) = POD_HALTED) = true :=
    List.all_eq_true.mpr fun p hp => decide_eq_true (hhalted p hp)
  have hhandled : ((v.hull h).fault.isNone || (v.hull h).faultDone) = true := by
    rcases hfault with hnone | hdone
    · rw [hnone]
      rfl
    · rw [hdone, Bool.or_true]
  simp only [exec_quiescenceReached, execQuiescenceReached, ← hv, ← hu, hall, hquiet, hdrains, hopen, hhandled, hpods, ne_eq,
    not_false_eq_true, decide_true, Bool.not_false, Bool.and_self, if_true]

theorem exec_faultNotice_one {n : FaultNote} {s : State} {h : Nat} (hone : (tkeys s.srv.hulls).filter (fun h =>
      (s.hull h).live && (s.hull h).multi && (s.hull h).graph = n.graph) = [h]) :
    exec (.faultNotice n) s = .next (commandEpoch s (foreignFault h n.record s)) := by
  rw [exec_faultNotice, execFaultNotice, hone]
  rfl

/-! ### The end of a load (R145, R146, R148, R149) -/

section
variable {p h : Nat} {s : State} {ld : Load}

/-- What a load of pod `p` needs to end: its hull, a powered N-tier controller and a pod side that runs (R22, R55). -/
structure LoadEnds (s : State) (p h : Nat) (ld : Load) : Prop where
  load : (s.pod p).load = some ld
  owner : s.podOwner p = some h
  tier : ntOn s = true
  side : (s.pod p).changing = false

theorem exec_shellLoadDone_faulted (hends : LoadEnds s p h ld) (hfault : (s.hull h).fault.isSome = true) :
    exec (.shellLoadDone p) s = .next (abortLoads h s) := by
  simp only [exec_shellLoadDone, execShellLoadDone, hends.load, hends.owner, hends.tier, hends.side, hfault, Bool.not_true,
    Bool.or_self, Bool.false_eq_true, if_false, if_true]

theorem exec_shellLoadDone_bare (hends : LoadEnds s p h ld) (hfault : (s.hull h).fault = none) (hbare : ld.bare = true) :
    exec (.shellLoadDone p) s = .next (nextLoad h (bareDone h p ld s)) := by
  simp only [exec_shellLoadDone, execShellLoadDone, hends.load, hends.owner, hends.tier, hends.side, hfault, hbare,
    Option.isSome_none, Bool.not_true, Bool.or_self, Bool.false_eq_true, if_false, if_true]

variable {b : Bool} {u t : State} (hends : LoadEnds s p h ld) (hfault : (s.hull h).fault = none) (hbare : ld.bare = false)
  (hlook : look (loadRanges s h p ld) s = (none, b, u)) (ht : t = storeLoad h p ld (noteLoadRun h ld b u))
include hends hfault hbare hlook ht

/-- The other pods of a SHELL_LOAD are still loading. -/
theorem exec_shellLoadDone_busy {r : Running} (hrun : loadingOf t h ld.slot = some r) (hbusy : loadersBusy t h = true) :
    exec (.shellLoadDone p) s = .next t := by
  simp only [exec_shellLoadDone, execShellLoadDone, hends.load, hends.owner, hends.tier, hends.side, hfault, hbare, hlook, ← ht,
    hrun, hbusy, Option.isSome_none, Bool.not_true, Bool.or_self, Bool.false_eq_true, if_false, if_true]

/-- The last pod of a SHELL_LOAD: the checks. -/
theorem exec_shellLoadDone_last {r : Running} {b2 : Bool} {v : State} (hrun : loadingOf t h ld.slot = some r)
    (hbusy : loadersBusy t h = false) (htable : look (tableRanges t h) t = (none, b2, v)) : exec (.shellLoadDone p) s =
    .next (nextLoad h (loadChecks { r with unwritten := r.unwritten || b2 } h ld s v)) := by
  simp only [exec_shellLoadDone, execShellLoadDone, hends.load, hends.owner, hends.tier, hends.side, hfault, hbare, hlook, ← ht,
    hrun, hbusy, htable, Option.isSome_none, Bool.not_true, Bool.or_self, Bool.false_eq_true, if_false]

/-- A load that builds a hull goes on to the next configuration. -/
theorem exec_shellLoadDone_next (hrun : loadingOf t h ld.slot = none) (hmore : ld.cfg + 1 < (t.hull h).configs) :
    exec (.shellLoadDone p) s = .next (startLoad p ((t.hull h).pods.idxOf p) (ld.slot + 1) (ld.cfg + 1) ld.pkg t) := by
  simp only [exec_shellLoadDone, execShellLoadDone, hends.load, hends.owner, hends.tier, hends.side, hfault, hbare, hlook, ← ht,
    hrun, hmore, Option.isSome_none, Bool.not_true, Bool.or_self, Bool.false_eq_true, if_false, if_true]

theorem exec_shellLoadDone_built (hrun : loadingOf t h ld.slot = none) (hlast : (t.hull h).configs ≤ ld.cfg + 1) :
    exec (.shellLoadDone p) s = .next (commandEpoch s (advanceHull h t)) := by
  simp only [exec_shellLoadDone, execShellLoadDone, hends.load, hends.owner, hends.tier, hends.side, hfault, hbare, hlook, ← ht,
    hrun, Nat.not_lt.mpr hlast, Option.isSome_none, Bool.not_true, Bool.or_self, Bool.false_eq_true, if_false]

end

/-! ### Scans (R155–R157) -/

theorem exec_scanOutDone_ends {p h : Nat} {s t u v : State} {bad : Bool} (howner : s.podOwner p = some h)
    (hscan : (s.pod p).scan = 1) (htier : ntOn s = true) (hside : (s.pod p).changing = false)
    (hbad : bad = decide (saveErrors s (scanBase s p) ≠ [] ∨ storesBad s p = true))
    (ht : t = correctStores p ((saveErrors s (scanBase s p)).foldl (fun s g => uncorrectable false g 0 s) s))
    (hu : u = (if bad then t else scanOut h ((s.hull h).pods.idxOf p) p (scanBase s p) t))
    (hv : v = (endPodScan p bad u).wr (POD_STATE p) POD_HALTED) : exec (.scanOutDone p) s =
    .next (if drains v h = true ∧ (s.hull h).pods.all (fun p => (v.pod p).scan = 0) = true
      then commandEpoch s (drainDone h v) else v) := by
  have hbad' : (decide (saveErrors s (scanBase s p) ≠ []) || storesBad s p) = bad := by
    rw [hbad, Bool.decide_or, Bool.decide_eq_true]
  simp only [exec_scanOutDone, execScanOutDone, howner, hscan, htier, hside, hbad', ← ht, ← hu, ← hv, ne_eq,
    not_true_eq_false, decide_false, Bool.not_true, Bool.or_self, Bool.false_eq_true, if_false, Bool.and_eq_true]
  exact (apply_ite Host.Outcome.next _ _ _).symm

theorem exec_scanInDone_good {p h l : Nat} {s u : State} (howner : s.podOwner p = some h) (hscan : (s.pod p).scan = 2)
    (htier : ntOn s = true) (hside : (s.pod p).changing = false) (hsave : saveErrors s (scanBase s p) = [])
    (hclean : savePoisoned s (scanBase s p) = false) (hl : l = (s.hull h).pods.idxOf p)
    (hu : u = (writeTable (s.hull h) l p (scanIn h p (scanBase s p) (correctSave (scanBase s p) (endPodScan p false s)))).wr
      (POD_STATE p) POD_HALTED) : exec (.scanInDone p) s =
    .next (if (s.hull h).pods.all (fun p => u.rd (POD_STATE p) = POD_HALTED) = true ∧ restores u h = true
      then commandEpoch s (restoreDone h u) else u) := by
  simp only [exec_scanInDone, execScanInDone, howner, hscan, htier, hside, hsave, hclean, ← hl, ← hu, ne_eq,
    not_true_eq_false, decide_false, Bool.not_true, Bool.or_self, Bool.false_eq_true, if_false, Bool.and_eq_true]
  exact (apply_ite Host.Outcome.next _ _ _).symm

theorem exec_scanInDone_bad {p h : Nat} {s u : State} {es : List Nat} {r : Running} (howner : s.podOwner p = some h)
    (hscan : (s.pod p).scan = 2) (htier : ntOn s = true) (hside : (s.pod p).changing = false)
    (hes : es = saveErrors s (scanBase s p)) (hbad : es ≠ [] ∨ savePoisoned s (scanBase s p) = true)
    (hu : u = (es.foldl (fun s g => uncorrectable false g 0 s) (endPodScan p true s)).wr (POD_STATE p) POD_IDLE)
    (hrun : runOf u h = some r) :
    exec (.scanInDone p) s = .next (commandEpoch s (restoreFails r ((s.hull h).pods.idxOf p) u)) := by
  have hbad' : (decide (es ≠ []) || savePoisoned s (scanBase s p)) = true := by
    rcases hbad with hne | hpoison
    · rw [decide_eq_true hne, Bool.true_or]
    · rw [hpoison, Bool.or_true]
  simp only [exec_scanInDone, execScanInDone, howner, hscan, htier, hside, ← hes, hbad', ← hu, hrun]
  rfl

/-! ### The power inputs, the ramp governor and the domains (R420–R435) -/

theorem exec_inputUndervoltage_good {s : State} (hgood : s.pwr.good = true) : exec .inputUndervoltage s =
    .next (refreshThrottle (guardBreaches ((List.range 80).foldl (fun s p => limitPod 4 p 0 s) s))) := by
  simp only [exec_inputUndervoltage, execInputUndervoltage, hgood, Bool.not_true, Bool.false_eq_true, if_false]

/-- What lowered a pod is over for long enough, and no rise of it is asked for yet (R426). -/
structure MayRise (s : State) (p : Nat) : Prop where
  pod : p < 80
  good : s.pwr.good = true
  lowered : s.rd (POD_LIMIT_POINT p) < 9
  sensor : s.pwr.badSensors.contains p = false
  pace : 20 ≤ (s.pod p).sinceStep
  cool : (s.pod p).hot = false ∨ 100 ≤ (s.pod p).coolFor
  input : (s.pod p).drawn = false ∨ 100 ≤ s.pwr.underFor
  queued : s.pwr.ramp.contains (.restore p) = false

/-- A cause that is absent, or past for long enough, holds nothing back. -/
theorem not_held_of_cause_past {cause : Bool} {n limit : Nat} (h : cause = false ∨ limit ≤ n) :
    (cause && decide (n < limit)) = false := by
  rcases h with hnone | hlong
  · rw [hnone, Bool.false_and]
  · rw [decide_eq_false (Nat.not_lt.mpr hlong), Bool.and_false]

theorem exec_guardianRestore_due {s : State} {p : Nat} (h : MayRise s p) :
    exec (.guardianRestore p) s = .next (requestRamp (.restore p) s) := by
  simp only [exec_guardianRestore, execGuardianRestore, Nat.not_le.mpr h.pod, h.good, Nat.not_le.mpr h.lowered, h.sensor,
    Nat.not_lt.mpr h.pace, not_held_of_cause_past h.cool, not_held_of_cause_past h.input, h.queued, decide_false,
    Bool.not_true, Bool.or_self, Bool.false_eq_true, if_false]

/-- A grant is charged with the declared step of its action (R421, R429). -/
theorem exec_rampGrant_charged {s t : State} {a : RampAct} {as : List RampAct} (hgood : s.pwr.good = true)
    (hrun : s.pwr.tripped = false) (hin : s.pwr.present = true) (ht : t = accrue s) (hhead : rampHead t = some (a, as))
    (hmesh : waitsMesh t a = false) (hbudget : (min (rampStep a * 100000) (rampDepth t) : Nat) ≤ t.pwr.budget) :
    exec .rampGrant s = .next (rampStart a { t with
      pwr := { t.pwr with ramp := as, budget := t.pwr.budget - (rampStep a * 100000 : Nat) } }) := by
  simp only [exec_rampGrant, execRampGrant, hgood, hrun, hin, ← ht, hhead, hmesh, Int.not_lt.mpr hbudget, Bool.not_true,
    Bool.or_self, Bool.false_eq_true, if_false]

/-- A pod comes on wiped and IDLE (R402, R421). -/
theorem exec_domainPowerUpDone_pod {s t : State} {d : Nat} (hrising : s.pwr.rising.contains d = true) (hpod : d < 80)
    (ht : t = { s with pwr := { s.pwr with rising := s.pwr.rising.filter (· ≠ d) } }.wr (PWR_DOMAIN d) 1) :
    exec (.domainPowerUpDone d) s =
      .next (formAll (advanceMirrored (refreshHeat ((resetPodWindow d (wipeTiles d t)).wr (POD_STATE d) POD_IDLE)))) := by
  have hnotTier : ¬ 84 ≤ d := by omega
  simp only [exec_domainPowerUpDone, execDomainPowerUpDone, hrising, hpod, hnotTier, ← ht, decide_false, Bool.false_and,
    Bool.not_true, Bool.false_eq_true, if_false, if_true]

theorem exec_podPointChangeDone_changing {s t : State} {p e g : Nat} (hpod : p < 80) (hchanging : (s.pod p).changing = true)
    (he : e = s.rd (POD_EFF_POINT p)) (hg : g = targetPoint s p)
    (ht : t = s.setPod p { s.pod p with changing := false }) : exec (.podPointChangeDone p) s =
    .next (retarget p (risersResume p
      ((t.wr (POD_EFF_POINT p) (if e < g then e + 1 else if g < e then e - 1 else e)).wr (POD_RELOCK p) 0))) := by
  simp only [exec_podPointChangeDone, execPodPointChangeDone, Nat.not_le.mpr hpod, hchanging, ← he, ← hg, ← ht, decide_false,
    Bool.not_true, Bool.or_self, Bool.false_eq_true, if_false]

theorem exec_podIdleTimeout_idle {s : State} {p : Nat} (hpod : p < 80) (hpolicy : s.rdB PWR_POD_IDLE = true)
    (hidle : s.rd (POD_STATE p) = POD_IDLE) (hfree : podFree s p = true) (hneeded : domainNeeded s p = false)
    (hqueued : s.pwr.ramp.contains (.domainOff p) = false) :
    exec (.podIdleTimeout p) s = .next (requestRamp (.domainOff p) s) := by
  simp only [exec_podIdleTimeout, execPodIdleTimeout, Nat.not_le.mpr hpod, hpolicy, hidle, hfree, hneeded, hqueued, ne_eq,
    not_true_eq_false, decide_false, Bool.not_true, Bool.or_self, Bool.false_eq_true, if_false]

theorem exec_prsntBreak_good {s : State} (hgood : s.pwr.good = true) : exec .prsntBreak s =
    .next (domainsOff allDomains { s with pwr := { s.pwr with present := false, ramp := [], rising := [] } }) := by
  simp only [exec_prsntBreak, execPrsntBreak, hgood, Bool.not_true, Bool.false_eq_true, if_false]

section
variable {s : State} (hgood : s.pwr.good = true) (hheader : s.pwr.reversed = false)
include hgood hheader

theorem exec_storageLowAssert_high (hhigh : s.rdB PWR_STORAGE_LOW = false) : exec .storageLowAssert s =
    .next ((changeCeiling (fun s => (s.wr PWR_STORAGE_LOW 1).wr PWR_LOW_ACTIVE 1) s).raise PWR_SB_STATUS 3) := by
  simp only [exec_storageLowAssert, execStorageLowAssert, hgood, hheader, hhigh, Bool.not_true, Bool.or_self,
    Bool.false_eq_true, if_false]

theorem exec_storageLowRelease_low (hlow : s.rdB PWR_STORAGE_LOW = true) : exec .storageLowRelease s =
    .next (changeCeiling (fun s => (s.wr PWR_STORAGE_LOW 0).wr PWR_LOW_ACTIVE 0) s) := by
  simp only [exec_storageLowRelease, execStorageLowRelease, hgood, hheader, hlow, Bool.not_true, Bool.or_self,
    Bool.false_eq_true, if_false]

theorem exec_sidebandReversed_first : exec .sidebandReversed s =
    .next ({ s with pwr := { s.pwr with reversed := true } }.raise PWR_SB_STATUS 1) := by
  simp only [exec_sidebandReversed, execSidebandReversed, hgood, hheader, Bool.not_true, Bool.or_self, Bool.false_eq_true,
    if_false]

end

/-! ### The statements settled -/

/-- Settles O54: each word by its frame; the entries of VPUSH by `Pushed.push`, one after the other. -/
theorem registerWordsFrame : Obligations.RegisterWordsFrame := by
  refine ⟨fun t v => ⟨rfl, setS_zero t v⟩, ?_, ?_, ?_, ?_, ?_⟩
  · rintro c k w s u t op rfl h hc hu
    obtain ⟨t, hexec, hmem, hs, hv⟩ := exec_registerWord h hc
    obtain rfl := Host.Outcome.next.inj (hexec.symm.trans hu)
    rw [setTile_tile]
    exact ⟨hs, hv, hmem.sram, hmem.queues, hmem.shell, hmem.chans, fun j hj => setTile_tile_ne s k j _ hj, rfl, rfl, rfl, rfl,
      rfl⟩
  · rintro k w s u t rfl h hu
    obtain ⟨t, hleaves, hmem, hv, hback, hs, hword⟩ := exec_vcvt_leaves h hu
    have hmem := hmem.trans hleaves.memories
    exact ⟨fun r hr => (hleaves.v_eq r).trans (hv r hr), fun hdir n => (hleaves.s_eq n).trans (hback hdir n),
      fun n hB hmax htensor => (hleaves.s_eq n).trans (hs n hB hmax htensor), hmem.sram, hmem.queues, hmem.shell, hmem.chans,
      hleaves.others, hleaves.pods, hword, hleaves.tier, hleaves.flash, hleaves.out⟩
  · rintro k waits w s u t rfl h htrap hu
    obtain ⟨bad, xs, hlen, hleaves⟩ := exec_vload_leaves h htrap hu
    have hmem := hleaves.memories
    refine ⟨fun r hr => ?_, hleaves.s_eq, hmem.sram, hmem.queues, hmem.shell, hmem.chans, hleaves.others, hleaves.pods,
      hleaves.tier, hleaves.flash, hleaves.out⟩
    rw [hleaves.v_eq, advance_v, setV_v_ne _ (by omega) hr]
    rfl
  · rintro k w s u t q bs t2 n rfl h rfl hpop hu
    obtain ⟨bad, c, rfl⟩ := popEntry_ok hpop
    have hleaves := exec_vpop_leaves h hpop rfl hu
    have hmem := hleaves.memories
    refine ⟨fun r hr => ?_, fun l hl => ?_, hleaves.s_eq, hmem.sram, hmem.queues, hmem.shell, fun p hp => ?_, hleaves.others,
      hleaves.pods, hleaves.tier, hleaves.flash, hleaves.out⟩
    · rw [hleaves.v_eq, advance_v, setV_v_ne _ (by rw [bytesWords_length]; split <;> decide) hr]
      rfl
    · rw [hleaves.v_eq, advance_v, setV_lane_ne _ (by rw [bytesWords_length]; split <;> omega)]
      rfl
    · rw [Tile.chan, hmem.chans]
      exact chan_setChan_ne { s.tile k with bad := bad } c hp
  · intro k w s u t q e c t1 t2 ht h hq he hc hfirst hsecond hu
    subst c e q t
    obtain ⟨rfl, n, hn, hpushed⟩ := exec_vpush_pushed h hfirst hsecond hu
    rw [setTile_tile]
    exact ⟨hpushed.v, hpushed.s, hpushed.sram, hpushed.shell, hpushed.chan,
      fun a ha => hpushed.queues a fun i hi => ha i (by omega), fun j hj => setTile_tile_ne s k j _ hj, rfl, rfl, rfl, rfl,
      rfl⟩

/-- Settles O18: each event by its law above. -/
theorem powerEventsComplete : Obligations.PowerEventsComplete := by
  refine ⟨fun s => exec_inputUndervoltage_good, ?_, ?_, ?_, ?_, ?_, fun s => exec_prsntBreak_good,
    fun s => exec_storageLowAssert_high, fun s => exec_storageLowRelease_low, ?_⟩
  · intro s p hpod hgood hlowered hsensor hpace hcool hinput hqueued
    exact exec_guardianRestore_due ⟨hpod, hgood, hlowered, hsensor, hpace, hcool, hinput, hqueued⟩
  · intro s a as hgood hrun hin hhead hmesh hbudget
    exact exec_rampGrant_charged hgood hrun hin rfl hhead hmesh hbudget
  · intro s d t hrising hpod ht
    exact exec_domainPowerUpDone_pod hrising hpod ht
  · intro s p t e g hpod hchanging he hg ht
    exact exec_podPointChangeDone_changing hpod hchanging he hg ht
  · intro s p hpod hpolicy hidle hfree hneeded hqueued
    exact exec_podIdleTimeout_idle hpod hpolicy hidle hfree hneeded hqueued
  · intro s hgood hheader
    exact ⟨_, exec_sidebandReversed_first hgood hheader, rfl, rfl⟩

/-- Settles O34: each word by what it comes to once it has issued. -/
theorem vectorOperationsComplete : Obligations.VectorOperationsComplete := by
  refine ⟨?_, ?_, ?_, ?_, fun a b => ⟨xlaneFn_max_toInt a b, xlaneFn_min_toInt a b⟩, ?_, ?_, ?_, ?_, fun _ _ _ => rfl, ?_, ?_⟩
  · rintro k w s t h rfl
    exact exec_sop_issued h
  · rintro k w s t h rfl
    exact exec_vint_issued h
  · rintro k w s t h rfl
    exact exec_vfp_issued h
  · rintro k w s t h rfl
    exact exec_vxlane_issued h
  · rintro k w s t h rfl hback
    exact exec_vcvt_back h hback
  · rintro k w s t c h rfl hfrom hc hapart
    exact exec_vcvt_from h hfrom hc hapart
  · rintro k waits w s t r h rfl htrap rfl
    exact exec_vload_issued h htrap
  · rintro k waits w s t r h rfl htrap rfl
    exact exec_vstore_issued h htrap
  · rintro k w s t t1 t2 h rfl hfirst hsecond
    exact exec_vpush_issued h hfirst hsecond
  · rintro k w s t bs t2 n u h rfl hpop rfl hmoved
    rw [exec_vpop_issued h hpop rfl, if_neg hmoved]

/-- Settles O36: the nest is run where the word stands, and its end is `afterNest` with or without a trap. -/
theorem planeRunCompletes : Obligations.PlaneRunCompletes := by
  intro k waits s t r u ht hissuing _ hvalid hop hr hu
  subst u t
  exact exec_planeRun_issued hissuing hvalid hop hr

/-- Settles O37: the words by what they come to once issued; the boundary, the start of a step and the watchdog each where
nothing holds the event back. -/
theorem sequencerWordsComplete : Obligations.SequencerWordsComplete := by
  refine ⟨?_, ?_, ?_, ?_, ?_, ?_, ?_⟩
  · rintro k w s t h rfl hacc
    exact exec_endOp_issued h hacc
  · rintro k w s t h rfl
    exact exec_repeatOp_issued h
  · rintro k w s t h rfl hfree
    exact exec_waitOp_issued h hfree
  · rintro k w s t h rfl hfree hscope
    exact exec_inGraphFence_issued h hfree hscope
  · intro k s t u h ht hruns hat hnext hu howner
    subst u t
    exact exec_stepBoundaryReached_at hruns hat hnext howner
  · intro h s st t u v w x hstep hbegun hstaging hfault hlive hloaded ht hu hv hw hx
    subst x w v u t
    simp only [exec_stepStart, execStepStart, hstep, hbegun, hstaging, hfault, hlive, hloaded, ne_eq, not_true_eq_false,
      decide_false, Option.isSome_none, Bool.not_true, Bool.or_self, Bool.false_eq_true, if_false]
    exact (apply_ite Host.Outcome.next _ _ _).symm
  · intro h s st p ps hstep hbegun hopen hlive hfault hwait hpods
    exact ⟨stallRecord s h, exec_stall_at hstep hbegun hopen hlive hfault hwait hpods, faultRecord_stall (ownId_lt s)⟩

/-- Settles O39: a flit's way from its channel to the next tile, event by event. -/
theorem meshEventsComplete : Obligations.MeshEventsComplete := by
  refine ⟨?_, ?_, fun x y out next s a b => outputPick_both next,
    fun x y out next s a => ⟨outputPick_vc1 next, outputPick_vc0 next⟩, ?_, ?_, ?_⟩
  · intro k q s t e c bs t2 n ht he hc hlive hside hhull hinject hmode hcount hcredits hdest hread
    subst c e t
    have hleave : MayLeave s k q := ⟨hlive, hside, hhull, hinject, hmode, hcount, hcredits, hdest⟩
    refine ⟨fun hmesh hroom => ?_, fun t3 hhub hroom ht3 => ?_⟩
    · rw [exec_queueEntrySend_mesh hleave hread hmesh hroom, sentChan]
    · subst t3
      rw [exec_queueEntrySend_hub hleave hread hhub hroom, sentChan]
      rfl
  · intro k q s t c h k2 q2 ht hc hlive hside howed howner hproducer hroom
    subst c t
    exact exec_creditReturnSend_mesh hlive hside howed howner hproducer hroom
  · intro x y out next s vc i f u k j hon hpick hu hrecv
    have hsent := fun errs => exec_meshFlitForward_sent errs hon hpick hu hrecv
    refine ⟨fun errs h => ?_, fun errs h h1 => ?_, fun errs h => ?_, fun errs link h => ?_⟩
    · rw [hsent, checkFlit_clean h, if_pos rfl]
    · rw [hsent, checkFlit_corrected h h1, if_pos rfl]
    · rw [hsent, checkFlit_lost h, if_neg Bool.false_ne_true]
    · exact exec_meshFlitForward_lostHere link hon hpick hu h
  · intro k s f rest hhead hdata hside
    rw [exec_dataFlitArrive_head hhead hdata hside]
    refine ⟨fun hon hown => if_neg ?_ ▸ rfl, fun h => ?_⟩
    · rintro (hoff | hforeign)
      · exact hon hoff
      · exact hforeign hown
    · rw [if_pos h]
  · intro k s f rest t c hhead hcredit hside ht hc hmode hroom
    exact exec_creditFlitArrive_fits hhead hcredit hside ht hc hmode hroom

/-- Settles O40: each event by its law above; a fault is handled once by what HULL_FAULT_HANDLING is. -/
theorem hullEventsComplete : Obligations.HullEventsComplete := by
  refine ⟨?_, fun _ _ _ _ _ => rfl, fun n s h hone => exec_faultNotice_one hone, ?_, ?_, ?_, ?_, ?_⟩
  · intro h s v hl u hv hhl hu hpods hhalted hquiet hdrains hopen hfault
    subst hl
    exact exec_quiescenceReached_drains hv hu hpods hhalted hquiet hdrains hopen hfault
  · intro p s h ld hload howner htier hside
    exact ⟨exec_shellLoadDone_faulted ⟨hload, howner, htier, hside⟩, exec_shellLoadDone_bare ⟨hload, howner, htier, hside⟩⟩
  · intro p s h ld b u t hload howner htier hside hfault hbare hlook ht
    have hends : LoadEnds s p h ld := ⟨hload, howner, htier, hside⟩
    exact ⟨fun r => exec_shellLoadDone_busy hends hfault hbare hlook ht,
      fun r b2 v => exec_shellLoadDone_last hends hfault hbare hlook ht,
      exec_shellLoadDone_next hends hfault hbare hlook ht, exec_shellLoadDone_built hends hfault hbare hlook ht⟩
  · intro p s h t u v bad howner hscan htier hside hbad ht hu hv
    exact exec_scanOutDone_ends howner hscan htier hside hbad ht hu hv
  · intro p s h u l howner hscan htier hside hsave hclean hl hu
    exact exec_scanInDone_good howner hscan htier hside hsave hclean hl hu
  · intro p s h es u r howner hscan htier hside hes hbad hu hrun
    exact exec_scanInDone_bad howner hscan htier hside hes hbad hu hrun

end Sys2Proof.Machine
end

section
/-! PROOFS. Number formats (R89, R97): the value of a normal FP32 pattern, what packs and rounds to FP32 without loss, and
the range of a two's complement element; then the statement they settle. -/

namespace Sys2Proof.Machine

/-! ### FP32 values that packing represents exactly (R89, R90) -/

/-- A normal pattern denotes its significand with the hidden bit, scaled by its exponent. -/
theorem fpVal_normal (neg : Bool) {e f : Nat} (he : 0 < e) (htop : e < 255) (hf : f < 2 ^ 23) :
    fpVal (BitVec.ofNat 32 (b2n neg * 2 ^ 31 + e * 2 ^ 23 + f)) =
      .fin neg (if neg then -(((f + 2 ^ 23) * 2 ^ (e - 1) : Nat) : Int) else ((f + 2 ^ 23) * 2 ^ (e - 1) : Nat)) := by
  have hs : b2n neg < 2 := by cases neg <;> decide
  generalize hn : b2n neg * 2 ^ 31 + e * 2 ^ 23 + f = n
  have hword : (BitVec.ofNat 32 n).toNat = n := (BitVec.toNat_ofNat ..).trans (Nat.mod_eq_of_lt (by omega))
  have hsign : bits n 31 1 = b2n neg := by rw [bits_eq_div_mod]; omega
  have hexp : bits n 23 8 = e := by rw [bits_eq_div_mod]; omega
  have hfrac : bits n 0 23 = f := by rw [bits_eq_div_mod]; omega
  have hneg : decide (b2n neg = 1) = neg := by cases neg <;> rfl
  simp only [fpVal, hword, bit, hsign, hexp, hfrac, hneg, if_neg (Nat.ne_of_lt htop), if_neg (Nat.ne_of_gt he)]

/-- A number shifted left until it fills the 24 bits of a significand. -/
theorem shifted_significand_bounds {m : Nat} (h0 : m ≠ 0) (hm : m < 2 ^ 24) :
    m.log2 ≤ 23 ∧ 2 ^ 23 ≤ m * 2 ^ (23 - m.log2) ∧ m * 2 ^ (23 - m.log2) < 2 ^ 24 := by
  have hlog : m.log2 < 24 := (Nat.log2_lt h0).mpr hm
  have hlo : 2 ^ 23 = 2 ^ m.log2 * 2 ^ (23 - m.log2) := by rw [← Nat.pow_add]; congr 1; omega
  have hhi : 2 ^ 24 = 2 ^ (m.log2 + 1) * 2 ^ (23 - m.log2) := by rw [← Nat.pow_add]; congr 1; omega
  refine ⟨by omega, ?_, ?_⟩
  · rw [hlo]
    exact Nat.mul_le_mul_right _ (Nat.log2_self_le h0)
  · rw [hhi]
    exact Nat.mul_lt_mul_of_pos_right Nat.lt_log2_self (Nat.two_pow_pos _)

/-- A magnitude of at most 24 bits that needs no subnormal and does not overflow is packed with nothing rounded away. -/
theorem fpPack_exact (rz neg : Bool) {m k : Nat} (h0 : m ≠ 0) (hm : m < 2 ^ 24) (hk : 23 ≤ k) (hk2 : k ≤ 253) :
    fpPack rz neg m k =
      BitVec.ofNat 32 (b2n neg * 2 ^ 31 + (k + m.log2 - 22) * 2 ^ 23 + (m * 2 ^ (23 - m.log2) - 2 ^ 23)) := by
  obtain ⟨hlog, hlo, hhi⟩ := shifted_significand_bounds h0 hm
  have hq : max ((k : Int) + ((m.log2 : Int) + 1) - 24) 0 = ((k + m.log2 - 23 : Nat) : Int) := by omega
  have hsh : ((k + m.log2 - 23 : Nat) : Int) - k ≤ 0 := by omega
  have hshift : (-(((k + m.log2 - 23 : Nat) : Int) - k)).toNat = 23 - m.log2 := by omega
  have hq2 : ¬ (254 : Int) ≤ ((k + m.log2 - 23 : Nat) : Int) := by omega
  have hexp : k + m.log2 - 23 + 1 = k + m.log2 - 22 := by omega
  have hup : ((!rz && (decide (1 < 0) || ((0 : Nat) == 1 && m * 2 ^ (23 - m.log2) % 2 == 1))) : Bool) = false :=
    Bool.and_false _
  simp only [fpPack, hq, if_pos hsh, hshift, hup, show b2n false = 0 from rfl, Nat.add_zero, if_neg (Nat.ne_of_lt hhi), if_neg hq2,
    if_neg (Nat.not_lt.mpr hlo), Int.toNat_natCast, hexp]

/-- What packs exactly reads back as the value packed. -/
theorem fpVal_fpPack (rz neg : Bool) {m k : Nat} (h0 : m ≠ 0) (hm : m < 2 ^ 24) (hk : 23 ≤ k) (hk2 : k ≤ 253) :
    fpVal (fpPack rz neg m k) = .fin neg (if neg then -((m * 2 ^ k : Nat) : Int) else (m * 2 ^ k : Nat)) := by
  obtain ⟨hlog, hlo, hhi⟩ := shifted_significand_bounds h0 hm
  have hvalue : (m * 2 ^ (23 - m.log2) - 2 ^ 23 + 2 ^ 23) * 2 ^ (k + m.log2 - 22 - 1) = m * 2 ^ k := by
    rw [Nat.sub_add_cancel hlo, Nat.mul_assoc, ← Nat.pow_add]
    congr 2
    omega
  rw [fpPack_exact rz neg h0 hm hk hk2, fpVal_normal neg (by omega) (by omega) (by omega), hvalue]

/-- An integer of at most 24 bits becomes the FP32 value that it is; zero becomes +0. -/
theorem fpVal_fpOfInt {v : Int} (hv : v.natAbs < 2 ^ 24) : fpVal (fpOfInt v) = .fin (decide (v < 0)) (v * 2 ^ 149) := by
  rw [fpOfInt, fpRound]
  split
  next hzero =>
    subst hzero
    decide
  next hne =>
    rw [show (149 : Int) = (149 : Nat) from rfl,
      fpVal_fpPack false (decide (v < 0)) (Int.natAbs_ne_zero.mpr hne) hv (by decide) (by decide)]
    obtain hneg | hpos := Int.lt_or_gt_of_ne hne
    · rw [decide_eq_true hneg, if_pos rfl]
      congr 1
      omega
    · rw [decide_eq_false (Int.not_lt.mpr (Int.le_of_lt hpos)), if_neg Bool.false_ne_true]
      congr 1
      omega

/-! ### Two's complement elements (R97) -/

/-- A two's complement number of `n + 1` bits lies from −2^n to 2^n − 1. -/
theorem signed_bounds (v n : Nat) : -2 ^ n ≤ signed v (n + 1) ∧ signed v (n + 1) < 2 ^ n := by
  have hlow : v % 2 ^ n < 2 ^ n := Nat.mod_lt _ (Nat.two_pow_pos n)
  have hsplit : v % 2 ^ (n + 1) = v % 2 ^ n + 2 ^ n * (v / 2 ^ n % 2) := Nat.mod_pow_succ
  have htop : bit v n = decide (v / 2 ^ n % 2 = 1) := by rw [bit, bits_eq_div_mod, Nat.pow_one]
  have hcast : ((2 ^ n : Nat) : Int) = 2 ^ n := Int.natCast_pow 2 n
  rw [signed, Nat.add_sub_cancel, htop, hsplit, Nat.pow_succ]
  obtain hclear | hset := Nat.mod_two_eq_zero_or_one (v / 2 ^ n)
  · rw [hclear, if_neg (by decide)]
    omega
  · rw [hset, if_pos (by decide)]
    omega

theorem signed_int8_bounds (v : Nat) : -128 ≤ signed v 8 ∧ signed v 8 ≤ 127 := by
  have hbounds : -2 ^ 7 ≤ signed v 8 ∧ signed v 8 < 2 ^ 7 := signed_bounds v 7
  omega

/-- The product of two INT8 elements, with its extremes at −128 × 127 and −128 × −128: each bound is a
weighted sum of products of the elements' distances from the ends of their range. -/
theorem int8_product_bounds (a b : Nat) :
    -16256 ≤ signed a 8 * signed b 8 ∧ signed a 8 * signed b 8 ≤ 16384 := by
  obtain ⟨ha, ha2⟩ := signed_int8_bounds a
  obtain ⟨hb, hb2⟩ := signed_int8_bounds b
  have hlow : 0 ≤ (signed a 8 + 128) * (signed b 8 + 128) := Int.mul_nonneg (by omega) (by omega)
  have hhigh : 0 ≤ (127 - signed a 8) * (127 - signed b 8) := Int.mul_nonneg (by omega) (by omega)
  have hlowhigh : 0 ≤ (signed a 8 + 128) * (127 - signed b 8) := Int.mul_nonneg (by omega) (by omega)
  have hhighlow : 0 ≤ (127 - signed a 8) * (signed b 8 + 128) := Int.mul_nonneg (by omega) (by omega)
  simp only [Int.add_mul, Int.mul_add, Int.sub_mul, Int.mul_sub] at hlow hhigh hlowhigh hhighlow
  omega

/-- In format 3 the plane multiplies INT8 elements as integers, and the block scales play no part. -/
theorem planeProduct_int8 (a sa b sb : Nat) : planeProduct 3 a sa b sb = fpOfInt (signed a 8 * signed b 8) := rfl

/-! ### The statement settled -/

/-- Settles O47: the product of two elements fits 15 bits (`int8_product_bounds`), so that FP32 holds it exactly. -/
theorem int8ProductExact : Obligations.Int8ProductExact := by
  intro a b sa sb _ _
  have hbounds := int8_product_bounds a b
  refine ⟨hbounds, ?_⟩
  rw [planeProduct_int8]
  exact fpVal_fpOfInt (by omega)

end Sys2Proof.Machine
end

section
/-! PROOFS. The cross-lane tree and the special-function units (R111, R113, R114, R116): what a reduction's levels come to,
a vector register read back, what a grant and an answer come to; then the statements they settle. -/

namespace Sys2Proof.Machine

/-! ### The levels of the cross-lane tree (R111) -/

/-- Half of the lanes are left after a level: lane `i` combined with lane `i + h`. -/
theorem foldLevel_map_range (f : Word → Word → Word) (g : Nat → Word) (h : Nat) :
    foldLevel f ((List.range (h + h)).map g) = (List.range h).map fun i => f (g i) (g (i + h)) := by
  have hhalf : (h + h) / 2 = h := by omega
  refine List.ext_getElem (by simp [foldLevel, hhalf]) fun i _ _ => ?_
  simp [foldLevel, hhalf, Nat.add_comm]

/-- The last `m` of five levels leave lane 0 of the fifth. -/
theorem iterate_foldLevel_tree {f : Word → Word → Word} {l : Nat → Nat → Word}
    (hlevel : ∀ n i, l (n + 1) i = f (l n i) (l n (i + 16 / 2 ^ n))) {m n : Nat} (hm : n + m = 5) :
    iterate (foldLevel f) m ((List.range (2 ^ m)).map (l n)) = [l 5 0] := by
  induction m generalizing n with
  | zero => rw [show n = 5 from hm]; rfl
  | succ m ih =>
    have hspan : 16 / 2 ^ n = 2 ^ m := calc
      16 / 2 ^ n = 2 ^ 4 / 2 ^ n := rfl
      _ = 2 ^ (4 - n) := Nat.pow_div (by omega) (by decide)
      _ = 2 ^ m := by rw [show 4 - n = m by omega]
    have hnext : foldLevel f ((List.range (2 ^ (m + 1))).map (l n)) = (List.range (2 ^ m)).map (l (n + 1)) := by
      rw [Nat.pow_succ, Nat.mul_two, foldLevel_map_range]
      exact List.map_congr_left fun i _ => by rw [hlevel, hspan]
    rw [iterate, hnext]
    exact ih (by omega)

theorem crossLane_tree {f : Word → Word → Word} {xs : List Word} {l : Nat → Nat → Word} (hlen : xs.length = 32)
    (hfirst : ∀ i, l 0 i = xs.getD i 0#32) (hlevel : ∀ n i, l (n + 1) i = f (l n i) (l n (i + 16 / 2 ^ n))) :
    crossLane f xs = l 5 0 := by
  have hlanes : xs = (List.range (2 ^ 5)).map (l 0) := by
    refine List.ext_getElem (by simp [hlen]) fun i hi _ => ?_
    simp [hfirst, hi]
  rw [crossLane, hlanes, iterate_foldLevel_tree hlevel rfl]
  rfl

theorem xlaneResult_reduction {t : Tile} {w : Nat} (h : wFn w < 3) :
    xlaneResult t w = List.replicate 32 (crossLane (xlaneFn (wFn w) (bit (wImm w) 8)) (t.v (wA w))) := by
  rw [xlaneResult, if_neg (by omega), if_neg (by omega)]

/-! ### A vector register read after a write (R46) -/

/-- Of a run of puts to indexes that differ, each is read back. -/
theorem tget_foldl_tput_mem {β : Type} {l : List β} {at_ : β → Nat} {val : β → Word} {e : β} (m : Tab Word)
    (hdiffer : l.Pairwise fun a b => at_ a ≠ at_ b) (he : e ∈ l) :
    tget (l.foldl (fun m e => tput m (at_ e) (val e) 0#32) m) (at_ e) 0#32 = val e := by
  induction l generalizing m with
  | nil => cases he
  | cons a l ih =>
    obtain ⟨hhead, htail⟩ := List.pairwise_cons.mp hdiffer
    rw [List.foldl_cons]
    rcases List.mem_cons.mp he with rfl | hmem
    · rw [tget_foldl_tput_ne _ _ _ _ _ fun b hb => (hhead b hb).symm, tget_tput_same]
    · exact ih _ htail hmem

theorem tget_setV_same (t : Tile) (r lo : Nat) {xs : List Word} {j : Nat} (hj : j < xs.length) :
    tget (t.setV r lo xs).vreg (32 * r + lo + j) 0#32 = xs[j] := by
  have hmem : (xs[j], j) ∈ xs.zip (List.range xs.length) := List.mem_iff_getElem.mpr ⟨j, by simpa using hj, by simp⟩
  have hdiffer : (xs.zip (List.range xs.length)).Pairwise fun a b => 32 * r + lo + a.2 ≠ 32 * r + lo + b.2 := by
    have hlanes : ((xs.zip (List.range xs.length)).map Prod.snd).Nodup := by
      rw [List.map_snd_zip (by simp)]
      exact List.nodup_range
    exact (List.pairwise_map.mp hlanes).imp fun hne h => hne (Nat.add_left_cancel h)
  exact tget_foldl_tput_mem t.vreg hdiffer hmem

/-- A register written in full is read back. -/
theorem setV_v_same (t : Tile) (r : Nat) {xs : List Word} (hlen : xs.length = 32) : (t.setV r 0 xs).v r = xs := by
  refine List.ext_getElem (by rw [v_length, hlen]) fun i _ hi => ?_
  simp only [Tile.v, List.getElem_map, List.getElem_range]
  exact tget_setV_same t r 0 hi

/-! ### Special-function requests (R113, R114, R116) -/

theorem exec_sfuGrant_first {p k u : Nat} {s : State} (hruns : s.rd (POD_STATE p) = POD_RUNNING)
    (hfirst : (rrOrder (tget (s.pod p).sfus k {}).lastCol).find? (fun u => sfuWaits s (stripeTile p k u)) = some u) :
    exec (.sfuGrant p k) s = .next (sfuGranted p k u s) := by
  rw [exec_sfuGrant, execSfuGrant, if_neg (not_not_intro hruns), hfirst]

theorem exec_sfuResultWrite_granted {k : Nat} {s u : State} {r : SfuReq} (hreq : (s.tile k).sfu = some r)
    (hgranted : r.granted = true) (hu : u = s.setTile k (({ s.tile k with sfu := none } : Tile).setV r.dst 0
      (r.lanes.map (sfuLane (s.rdB (SFU_COMPAT (podOf k))) r.fn)))) :
    exec (.sfuResultWrite k) s = .next (u.setPod (podOf k) { u.pod (podOf k) with
      sfus := tput (u.pod (podOf k)).sfus (localOf k / 16)
        { tget (u.pod (podOf k)).sfus (localOf k / 16) {} with
          granted := (tget (u.pod (podOf k)).sfus (localOf k / 16) {}).granted.erase (localOf k % 16) } {} }) := by
  simp only [exec_sfuResultWrite, execSfuResultWrite, hreq, hgranted, ← hu, Bool.not_true, Bool.false_eq_true, if_false]

/-! ### The statements settled -/

/-- Settles O48: the five levels leave lane 0 of the last (`crossLane_tree`), and the register is read back in full. -/
theorem crossLaneTree : Obligations.CrossLaneTree := by
  refine ⟨?_, fun _ _ => ⟨rfl, rfl, rfl⟩, BitVec.add_def, ?_⟩
  · rintro t w f l hfn rfl hfirst hlevel
    rw [xlaneResult_reduction hfn, crossLane_tree (v_length t _) hfirst hlevel]
  · intro k w s u h hu _
    obtain rfl := Host.Outcome.next.inj ((exec_vxlane_issued h).symm.trans hu)
    rw [setTile_tile, advance_v, setV_v_same _ _ (xlaneResult_length _ w)]

/-- Settles O35: the request presented, granted and answered, each by its law. -/
theorem specialFunctionsComplete : Obligations.SpecialFunctionsComplete := by
  refine ⟨?_, fun p k s u => exec_sfuGrant_first, ?_⟩
  · rintro k w s t h rfl hfree
    rw [exec_vsfu_issued h, hfree, Option.isSome_none, if_neg Bool.false_ne_true]
  · rintro k s t r u rfl hreq hgranted hu
    exact exec_sfuResultWrite_granted hreq hgranted hu

end Sys2Proof.Machine
end

section
/-! PROOFS. Stream descriptors (R178, R182–R188, R218): the chunk numbers as mixed-radix numbers of their index vectors, and
what each event of a descriptor's life comes to; then what VSTORE leaves of its tile (R162), and the statements settled. -/

namespace Sys2Proof.Machine

/-! ### Mixed-radix numbers, place 0 the lowest (R178) -/

/-- The value of place `k` where place `j` runs through `c j` digits. -/
def placeValue (c : Nat → Nat) (k : Nat) : Nat := (List.range k).foldl (fun p j => p * c j) 1

/-- The number that the first `m` digits of `i` write. -/
def radixNumber (c i : Nat → Nat) (m : Nat) : Nat := (List.range m).foldl (fun n k => n + i k * placeValue c k) 0

theorem placeValue_succ (c : Nat → Nat) (k : Nat) : placeValue c (k + 1) = placeValue c k * c k := by
  simp [placeValue, List.range_succ]

theorem radixNumber_succ (c i : Nat → Nat) (m : Nat) :
    radixNumber c i (m + 1) = radixNumber c i m + i m * placeValue c m := by
  simp [radixNumber, List.range_succ]

theorem placeValue_dvd (c : Nat → Nat) {k m : Nat} (h : k ≤ m) : placeValue c k ∣ placeValue c m := by
  induction h with
  | refl => exact Nat.dvd_refl _
  | step _ ih => rw [placeValue_succ]; exact Nat.dvd_mul_right_of_dvd ih _

/-- The digits of a number write what the number is below the next place. -/
theorem radixNumber_digits (c : Nat → Nat) (n m : Nat) :
    radixNumber c (fun k => n / placeValue c k % c k) m = n % placeValue c m := by
  induction m with
  | zero => exact (Nat.mod_one n).symm
  | succ m ih => rw [radixNumber_succ, placeValue_succ, ih, Nat.mod_mul, Nat.mul_comm]

theorem radixNumber_lt {c i : Nat → Nat} {m : Nat} (h : ∀ k, k < m → i k < c k) : radixNumber c i m < placeValue c m := by
  induction m with
  | zero => exact Nat.one_pos
  | succ m ih =>
    have hlow := ih fun k hk => h k (Nat.lt_succ_of_lt hk)
    calc radixNumber c i (m + 1)
        = radixNumber c i m + i m * placeValue c m := radixNumber_succ c i m
      _ < (i m + 1) * placeValue c m := by rw [Nat.succ_mul]; omega
      _ ≤ c m * placeValue c m := Nat.mul_le_mul_right _ (h m (Nat.lt_succ_self m))
      _ = placeValue c (m + 1) := by rw [placeValue_succ, Nat.mul_comm]

/-- The digits from place `k` on are multiples of that place's value. -/
theorem radixNumber_mod {c i : Nat → Nat} {k m : Nat} (h : ∀ j, j < k → i j < c j) (hkm : k ≤ m) :
    radixNumber c i m % placeValue c k = radixNumber c i k := by
  induction hkm with
  | refl => exact Nat.mod_eq_of_lt (radixNumber_lt h)
  | step hle ih =>
    obtain ⟨r, hr⟩ := placeValue_dvd c hle
    rw [radixNumber_succ, hr, Nat.mul_left_comm, Nat.add_mul_mod_self_left, ih]

/-- A digit below its count is read back from the number. -/
theorem digit_radixNumber {c i : Nat → Nat} {k m : Nat} (h : ∀ j, j < m → i j < c j) (hk : k < m) :
    radixNumber c i m / placeValue c k % c k = i k := by
  have hlow : ∀ j, j < k → i j < c j := fun j hj => h j (Nat.lt_trans hj hk)
  have hlt := radixNumber_lt hlow
  calc radixNumber c i m / placeValue c k % c k
      = radixNumber c i m % placeValue c (k + 1) / placeValue c k := by rw [placeValue_succ, Nat.mod_mul_right_div_self]
    _ = radixNumber c i (k + 1) / placeValue c k := by
        rw [radixNumber_mod (fun j hj => h j (Nat.lt_of_lt_of_le hj hk)) hk]
    _ = i k := by
        rw [radixNumber_succ, Nat.add_mul_div_right _ _ (Nat.zero_lt_of_lt hlt), Nat.div_eq_of_lt hlt, Nat.zero_add]

/-! ### The chunks of a descriptor (R177, R178) -/

theorem dimList_eq {d : Desc} (h : d.dims ≤ 6) : d.dimList = List.range d.dims := by rw [Desc.dimList, Nat.min_eq_left h]

theorem chunks_eq {d : Desc} (h : d.dims ≤ 6) : d.chunks = placeValue d.count d.dims := by
  rw [Desc.chunks, dimList_eq h, placeValue]

theorem indexAt_eq (d : Desc) (n k : Nat) : d.indexAt n k = n / placeValue d.count k % d.count k := rfl

theorem chunk_eq_radixNumber {d : Desc} {n : Nat} (hdims : d.dims ≤ 6) (hn : n < d.chunks) :
    n = radixNumber d.count (d.indexAt n) d.dims := by
  rw [chunks_eq hdims] at hn
  exact ((radixNumber_digits d.count n d.dims).trans (Nat.mod_eq_of_lt hn)).symm

theorem target_addr {d : Desc} (n : Nat) (h : d.tkind ≠ 0) :
    d.target n = some (.addr (BitVec.ofNat 64 (wrap ((d.tierStart : Int) + d.offsetAt n d.tierStride) 64))) := by
  simp only [Desc.target, h, if_false]

theorem target_handle {d : Desc} {n : Nat} (h : d.tkind = 0)
    (hpos : 0 ≤ (bits d.tierStart 20 44 : Int) + d.offsetAt n d.tierStride) :
    d.target n = some (.handle d.handle d.scale ((bits d.tierStart 20 44 : Int) + d.offsetAt n d.tierStride).toNat) := by
  simp only [Desc.target, h, if_true, Int.not_lt.mpr hpos, if_false]

/-! ### STREAM (R182) -/

/-- The read of the descriptor that the STREAM word `w` of tile `k` names. -/
def descriptorRead (k w : Nat) (s : State) : Ans :=
  access true (.hullPort ((s.podOwner (podOf k)).getD 128))
    (.addr (BitVec.ofNat 64 (s.rd64 (STR_TABLE (podOf k)) + 64 * bits (wImm w) 0 10))) (.read 64) s

/-- The descriptor that the STREAM word `w` of tile `k` queues. -/
def streamDesc (k w : Nat) (s : State) : Desc :=
  { job := (s.pod (podOf k)).nextJob + 1, index := bits (wImm w) 0 10,
    raw := BitVec.ofNat 512 (leNat (descriptorRead k w s).data), tile := k, ticket := bits (wImm w) 10 3 }

/-- The block after that read, the tile past its word and the ticket of `d` in use. -/
def streamTicketed (k w : Nat) (d : Desc) (s : State) : State :=
  (descriptorRead k w s).s.setTile k (advance { s.tile k with
    tickets := tput (s.tile k).tickets d.ticket { busy := true, desc := d.index, job := d.job } {} })

theorem exec_streamOp_queued {k w : Nat} {s x : State} {d : Desc} (h : issueGate OP_STREAM k s = .inr w)
    (hticket : (tget (s.tile k).tickets (bits (wImm w) 10 3) {}).busy = false) (hon : ntOn s = true)
    (hd : d = streamDesc k w s) (hread : rspFails (descriptorRead k w s).code = false)
    (hroom : (s.engine (podOf k) (rawEngine d.raw)).queue.length < 32)
    (hx : x = (streamTicketed k w d s).setPod (podOf k) { (streamTicketed k w d s).pod (podOf k) with nextJob := d.job }) :
    exec (.streamOp k) s = .next (noteUnwritten (podOf k) (descriptorRead k w s).code
      (setQueue (podOf k) (rawEngine d.raw) ((x.engine (podOf k) (rawEngine d.raw)).queue ++ [d]) x)) := by
  subst hd hx
  rw [exec_streamOp, execStreamOp, h]
  simp only [hticket, hon, Bool.not_true, Bool.or_self, Bool.false_eq_true, if_false]
  exact (if_neg (Nat.not_le.mpr hroom)).trans (congrArg Host.Outcome.next (if_neg (ne_true_of_eq_false hread)))

/-! ### CHUNK_ISSUE (R183, R184, R186, R188) -/

/-- Engine `e` of pod `p` may issue a chunk, and it is the turn of `d`. -/
structure IssueTurn (s : State) (p e : Nat) (d : Desc) : Prop where
  going : s.rdB (STR_STOP p e) = false
  runs : s.rd (POD_STATE p) = POD_RUNNING
  on : ntOn s = true
  room : inFlight (s.engine p e) < 32
  turn : (issueOrder (s.engine p e)).find? (canIssue s p) = some d

theorem IssueTurn.not_held {s : State} {p e : Nat} {d : Desc} (h : IssueTurn s p e d) :
    ¬(s.rdB (STR_STOP p e) || s.rd (POD_STATE p) ≠ POD_RUNNING || !ntOn s || 32 ≤ inFlight (s.engine p e)) = true := by
  simp [h.going, h.runs, h.on, h.room]

theorem exec_chunkIssue_bad {s : State} {p e : Nat} {d : Desc} (h : IssueTurn s p e d) (hbad : chunkOk s p d d.next = false) :
    exec (.chunkIssue p e) s = .next (raiseFault d.tile ⟨0x0C, d.levelAt d.next, 0⟩ none (s.raise (STR_STATUS p e) 3)) := by
  simp only [exec_chunkIssue, execChunkIssue, if_neg h.not_held, h.turn, hbad, Bool.not_false, if_true]

/-- The chunk that `d` issues next passes its test and has the target `tg`. -/
structure ChunkTurn (s : State) (p e : Nat) (d : Desc) (tg : Target) : Prop extends IssueTurn s p e d where
  good : chunkOk s p d d.next = true
  target : d.target d.next = some tg

/-- The tensor of `d` moves or stands outside the N-tier, and `d` holds no direct grant that serves meanwhile (R188, R218). -/
def mustHalt (s : State) (d : Desc) : Bool :=
  d.tkind = 0 && halts s d.handle && !(d.direct && (s.tensor d.handle).move = 0)

theorem mustHalt_eq_true {s : State} {d : Desc} (hkind : d.tkind = 0) (hhalts : halts s d.handle = true)
    (hgrant : d.direct = false ∨ (s.tensor d.handle).move ≠ 0) : mustHalt s d = true := by
  rcases hgrant with h | h <;> simp [mustHalt, hkind, hhalts, h]

theorem mustHalt_eq_false {s : State} {d : Desc}
    (h : d.tkind ≠ 0 ∨ halts s d.handle = false ∨ (d.direct = true ∧ (s.tensor d.handle).move = 0)) :
    mustHalt s d = false := by
  rcases h with h | h | ⟨hdirect, hmove⟩
  · simp [mustHalt, h]
  · simp [mustHalt, h]
  · simp [mustHalt, hdirect, hmove]

/-- The chunk of a WRITE descriptor whose data comes from its hub port. -/
def issueFromHub (p e : Nat) (d : Desc) (tg : Target) (s : State) : Result :=
  let r := takeHub p e 16 d s
  match r.1.kept.find? (fun k => k.1 = d.next) with
  | some k => if d.chunkBytes ≤ k.2.length then .next (sendChunk p e r.1 tg (.write k.2) (setDesc p e r.1 r.2))
    else .next (setDesc p e r.1 r.2)
  | none => .next (setDesc p e r.1 r.2)

/-- What a WRITE chunk reads of its tile's SRAM. -/
def chunkRead (p : Nat) (d : Desc) (s : State) : Ans :=
  let k := p * 160 + (d.sramAt d.next).1
  let off := (d.sramAt d.next).2
  tileRead { space := 3, off := tsOffset k 0 off, room := 0x30000 - off } d.chunkBytes s

/-- The chunk of a WRITE descriptor whose data comes from a tile's SRAM. -/
def issueFromSram (p e : Nat) (d : Desc) (tg : Target) (s : State) : Result :=
  let a := chunkRead p d s
  if rspFails a.code then .next (failDesc p e d a.code
    (globalAddr s 3 (tsOffset (p * 160 + (d.sramAt d.next).1) 0 ((d.sramAt d.next).2 + a.at_))) a.s)
  else .next (sendChunk p e d tg (.write a.data) a.s)

section
variable {s : State} {p e : Nat} {d : Desc} {tg : Target}

/-- What a chunk that passes its test comes to: its descriptor halts, or it goes to its tier. -/
theorem exec_chunkIssue_good (h : ChunkTurn s p e d tg) : exec (.chunkIssue p e) s =
    if mustHalt s d then .next (haltDesc p e d s)
    else if !d.write then .next (sendChunk p e d tg (.read d.chunkBytes) s)
    else if d.tside = 2 then issueFromHub p e d tg s
    else issueFromSram p e d tg s := by
  simp only [exec_chunkIssue, execChunkIssue, if_neg h.not_held, h.turn, h.good, h.target, Bool.not_true, Bool.false_eq_true,
    if_false]
  rfl

theorem exec_chunkIssue_halts (h : ChunkTurn s p e d tg) (hhalt : mustHalt s d = true) :
    exec (.chunkIssue p e) s = .next (haltDesc p e d s) := by
  rw [exec_chunkIssue_good h, if_pos hhalt]

theorem exec_chunkIssue_read (h : ChunkTurn s p e d tg) (hgo : mustHalt s d = false) (hread : d.write = false) :
    exec (.chunkIssue p e) s = .next (sendChunk p e d tg (.read d.chunkBytes) s) := by
  simp only [exec_chunkIssue_good h, hgo, hread, Bool.false_eq_true, if_false, Bool.not_false, if_true]

theorem exec_chunkIssue_sram (h : ChunkTurn s p e d tg) (hgo : mustHalt s d = false) (hwrite : d.write = true)
    (hside : d.tside ≠ 2) (hcode : rspFails (chunkRead p d s).code = false) :
    exec (.chunkIssue p e) s = .next (sendChunk p e d tg (.write (chunkRead p d s).data) (chunkRead p d s).s) := by
  simp only [exec_chunkIssue_good h, hgo, hwrite, hside, issueFromSram, hcode, Bool.false_eq_true, if_false, Bool.not_true]

theorem exec_chunkIssue_hub {r : Desc} {u : State} {n : Nat} {data : List Byte} (h : ChunkTurn s p e d tg)
    (hgo : mustHalt s d = false) (hwrite : d.write = true) (hside : d.tside = 2) (htake : takeHub p e 16 d s = (r, u))
    (hkept : r.kept.find? (fun x => x.1 = d.next) = some (n, data)) (hfull : d.chunkBytes ≤ data.length) :
    exec (.chunkIssue p e) s = .next (sendChunk p e r tg (.write data) (setDesc p e r u)) := by
  simp only [exec_chunkIssue_good h, hgo, hwrite, hside, issueFromHub, htake, hkept, hfull, Bool.false_eq_true, if_false,
    Bool.not_true, if_true]

end

/-! ### The end of a halt, of a chunk and of a descriptor (R182, R184, R187, R188, R218) -/

/-- A halted descriptor whose tensor now stands in the N-tier, or that holds a direct grant, goes on. -/
theorem exec_streamResume_goesOn {p e n : Nat} {s u : State} {d : Desc}
    (hready : (s.engine p e).queue.find? (fun d => d.halted.isSome && (s.tensor d.handle).move = 0
      && (d.direct || !halts s d.handle || placementOn s)) = some d)
    (hu : u = s.addSat (STR_PLACE_CYCLES p e) n) (hgoes : d.direct = true ∨ halts u d.handle = false) :
    exec (.streamResume ⟨p, e⟩ n) s = .next (setDesc p e { d with halted := none } u) := by
  subst hu
  rw [exec_streamResume, execStreamResume]
  simp only [hready]
  exact if_pos (by simpa using hgoes)

theorem exec_chunkResponse_awaited {p e n : Nat} {s : State} {x : Ended} {d : Desc}
    (hnext : nextEnded s p e = some (x, some (d, n)))
    (hopen : (s.rd (POD_STATE p) = POD_RUNNING ∧ (s.pod p).changing = false) ∨ d.write = true) :
    exec (.chunkResponse p e) s = .next (applyChunk p e d n x s) := by
  rw [exec_chunkResponse, execChunkResponse, hnext]
  rcases hopen with ⟨hruns, hsteady⟩ | hwrite
  · simp [hruns, hsteady]
  · simp [hwrite]

theorem exec_descriptorComplete_done {p e : Nat} {s : State} {d : Desc} (hdone : (s.engine p e).queue.find?
      (fun d => d.chunks ≤ d.next && d.flying = [] && d.halted.isNone && d.wellFormed) = some d) :
    exec (.descriptorComplete p e) s = .next (endDesc p e d 2 s) := by
  rw [exec_descriptorComplete, execDescriptorComplete, hdone]

/-! ### VSTORE (R48, R50, R162) -/

/-- A store writes its bytes and otherwise changes error records alone. -/
theorem sramWrite_tile (t : Tile) (off : Nat) (data : List Byte) :
    ∃ bad, (sramWrite t off data).1 = { t with bad := bad, sram := mwrite t.sram off data } := ⟨_, rfl⟩

/-- VSTORE leaves its tile with the source register's bytes stored, whatever its accesses waited for (R49). -/
theorem exec_vstore_leaves {k w : Nat} {waits : BankWait} {s u : State} (h : issueGate OP_VSTORE k s = .inr w)
    (htrap : sramTrap (s.tile k) true (memOffset (s.tile k) w) 128 = none) (hu : exec (.vstore ⟨k, waits⟩) s = .next u) :
    ∃ bad, LeavesTile k (advance { s.tile k with
      bad := bad, sram := mwrite (s.tile k).sram (memOffset (s.tile k) w) (wordBytes ((s.tile k).v (wB w))) }) s u := by
  rw [exec_vstore_issued h htrap] at hu
  obtain rfl := Host.Outcome.next.inj hu
  obtain ⟨bad, htile⟩ := sramWrite_tile (s.tile k) (memOffset (s.tile k) w) (wordBytes ((s.tile k).v (wB w)))
  refine ⟨bad, ?_⟩
  rw [← htile]
  exact ((LeavesTile.setTile k _ s).registers (countCorrected_registersOnly _ _ _)).withWaits waits

/-! ### The statements settled -/

/-- Settles O49: the indexes are the digits of the chunk number (`radixNumber_digits`), and digits within their counts are
read back from the number they write (`digit_radixNumber`). -/
theorem chunkOrderAndAddresses : Obligations.ChunkOrderAndAddresses := by
  refine ⟨?_, ?_, fun _ _ => rfl, fun _ n => target_addr n, ?_⟩
  · intro d n _ hdims hcount hn
    exact ⟨fun k hk => Nat.mod_lt _ (hcount k hk),
      (chunk_eq_radixNumber hdims hn).trans (by rw [dimList_eq hdims]; rfl)⟩
  · intro d i _ hdims hi
    refine ⟨radixNumber d.count i d.dims, ?_, fun k hk => ?_⟩
    · rw [chunks_eq hdims]
      exact radixNumber_lt hi
    · rw [indexAt_eq, digit_radixNumber hi hk]
  · rintro d n o hkind rfl hpos
    exact target_handle hkind hpos

/-- Settles O53: the bytes of the tile's SRAM by `tget_mwrite`, the rest by what the store leaves (`exec_vstore_leaves`). -/
theorem vectorStoreFrame : Obligations.VectorStoreFrame := by
  rintro k waits w s u t rfl hissue htrap hu
  obtain ⟨bad, hleaves⟩ := exec_vstore_leaves hissue htrap hu
  have hmem := hleaves.memories
  have hlen : (wordBytes ((s.tile k).v (wB w))).length = 128 := by simp
  have hbyte : ∀ a, tget (u.tile k).sram a 0#8 = if memOffset (s.tile k) w ≤ a ∧ a < memOffset (s.tile k) w + 128
      then (wordBytes ((s.tile k).v (wB w))).getD (a - memOffset (s.tile k) w) 0#8
      else tget (s.tile k).sram a 0#8 := fun a => by
    rw [hmem.sram, ← hlen]
    exact tget_mwrite _ _ _ a
  refine ⟨fun a hlo hhi => ?_, fun a hout => ?_, hleaves.s_eq, hleaves.v_eq, hmem.queues, hmem.shell, hmem.chans,
    hleaves.others, hleaves.tier, hleaves.flash⟩
  · rw [hbyte, if_pos ⟨hlo, hhi⟩]
  · rw [hbyte, if_neg (by omega)]

/-- Settles O38: the events of a descriptor's life, each by its law above. -/
theorem streamEventsComplete : Obligations.StreamEventsComplete := by
  refine ⟨?_, ?_, ?_, ?_, ?_, ?_, ?_, fun _ _ _ => rfl⟩
  · rintro k w s t p g r d u x hissue rfl rfl hticket hon rfl rfl hread rfl hroom rfl rfl
    exact exec_streamOp_queued hissue hticket hon rfl hread hroom rfl
  · intro p e s d tg hgoing hruns hon hroom hturn hgood htarget hstays
    have h : ChunkTurn s p e d tg := ⟨⟨hgoing, hruns, hon, hroom, hturn⟩, hgood, htarget⟩
    have hgo := mustHalt_eq_false hstays
    refine ⟨exec_chunkIssue_read h hgo, ?_, fun r u n data => exec_chunkIssue_hub h hgo⟩
    rintro k off a hwrite hside rfl rfl rfl hcode
    exact exec_chunkIssue_sram h hgo hwrite hside hcode
  · intro p e s d tg hgoing hruns hon hroom hturn hgood htarget hkind hhalts hgrant
    exact exec_chunkIssue_halts ⟨⟨hgoing, hruns, hon, hroom, hturn⟩, hgood, htarget⟩
      (mustHalt_eq_true hkind hhalts hgrant)
  · intro p e s d hgoing hruns hon hroom hturn
    exact exec_chunkIssue_bad ⟨hgoing, hruns, hon, hroom, hturn⟩
  · exact fun p e n s d u => exec_streamResume_goesOn
  · exact fun p e s x d n => exec_chunkResponse_awaited
  · exact fun p e s d => exec_descriptorComplete_done

end Sys2Proof.Machine
end

section
/-! PROOFS. The bytes of the DRAM tiers as every write stores them (R199, R211, R212; log entry 5), the frame boundary and the
moves of the placement engine (R213–R225, R257–R268), the arbiters, slots and calibration windows (R205, R257, R265, R266, R368)
and the traffic between devices (R200, R367–R379): the laws that carry them, then the statements they settle. -/

namespace Sys2Proof.Machine

/-! ### The marks of written pages (R211) -/

theorem setMem_written (d e : Bool) (m : Tab Byte) (pg : Nat) (s : State) : (s.setMem d m).written e pg = s.written e pg := by
  cases d <;> cases e <;> rfl

theorem setWritten_written (d : Bool) (pg q : Nat) (s : State) :
    (s.setWritten d pg).written d q = (decide (q = pg) || s.written d q) := by
  have hmark : (s.setWritten d pg).written d q = if q = pg then true else s.written d q := by
    cases d
    · exact tget_tput s.tier.nWritten pg q true false
    · exact tget_tput s.tier.dWritten pg q true false
  rw [hmark]
  by_cases h : q = pg <;> simp [h]

theorem setWritten_mem (d e : Bool) (pg : Nat) (s : State) : (s.setWritten d pg).mem e = s.mem e := by
  cases d <;> cases e <;> rfl

/-! ### What a store leaves of the block -/

/-- From `s` to `t`, which a store in the tier `d` reaches, the other DRAM tier, the F-tier, the tiles and the registers stand. -/
structure StoreLeaves (d : Bool) (s t : State) : Prop where
  other : t.mem (!d) = s.mem (!d)
  flash : t.flash = s.flash
  tiles : t.tiles = s.tiles
  bar : t.bar = s.bar

theorem StoreLeaves.refl (d : Bool) (s : State) : StoreLeaves d s s := ⟨rfl, rfl, rfl, rfl⟩

theorem StoreLeaves.trans {d : Bool} {s t u : State} (h : StoreLeaves d s t) (h2 : StoreLeaves d t u) : StoreLeaves d s u :=
  ⟨h2.other.trans h.other, h2.flash.trans h.flash, h2.tiles.trans h.tiles, h2.bar.trans h.bar⟩

theorem StoreLeaves.foldl {β : Type} {d : Bool} {f : State → β → State} (h : ∀ s x, StoreLeaves d s (f s x)) (l : List β)
    (s : State) : StoreLeaves d s (l.foldl f s) := by
  induction l generalizing s with
  | nil => exact .refl d s
  | cons x l ih => exact (h s x).trans (ih _)

theorem storeLeaves_setMem (d : Bool) (m : Tab Byte) (s : State) : StoreLeaves d s (s.setMem d m) :=
  ⟨setMem_other s d m, setMem_flash s d m, setMem_tiles s d m, setMem_bar s d m⟩

theorem storeLeaves_setWritten (d : Bool) (pg : Nat) (s : State) : StoreLeaves d s (s.setWritten d pg) := by
  cases d <;> exact ⟨rfl, rfl, rfl, rfl⟩

/-- From `s` to `t` the bytes of both DRAM tiers and the marks of their written pages stand too: what a change of a granule's
errors or poison is. -/
structure SameBytes (s t : State) : Prop where
  mem : ∀ d, t.mem d = s.mem d
  written : ∀ d pg, t.written d pg = s.written d pg
  leaves : ∀ d, StoreLeaves d s t

theorem SameBytes.refl (s : State) : SameBytes s s := ⟨fun _ => rfl, fun _ _ => rfl, fun d => .refl d s⟩

theorem SameBytes.trans {s t u : State} (h : SameBytes s t) (h2 : SameBytes t u) : SameBytes s u :=
  ⟨fun d => (h2.mem d).trans (h.mem d), fun d pg => (h2.written d pg).trans (h.written d pg),
    fun d => (h.leaves d).trans (h2.leaves d)⟩

theorem SameBytes.foldl {β : Type} {f : State → β → State} (h : ∀ s x, SameBytes s (f s x)) (l : List β) (s : State) :
    SameBytes s (l.foldl f s) := by
  induction l generalizing s with
  | nil => exact .refl s
  | cons x l ih => exact (h s x).trans (ih _)

/-- An update of the tiers' record that leaves both memories and both tables of written pages. -/
theorem sameBytes_tier {s : State} {x : TierState} (hn : x.nmem = s.tier.nmem) (hd : x.dmem = s.tier.dmem)
    (hnw : x.nWritten = s.tier.nWritten) (hdw : x.dWritten = s.tier.dWritten) : SameBytes s { s with tier := x } := by
  have hmem : ∀ d, State.mem { s with tier := x } d = s.mem d := fun d => by simp only [State.mem, hn, hd]
  exact ⟨hmem, fun d pg => by simp only [State.written, hnw, hdw], fun d => ⟨hmem _, rfl, rfl, rfl⟩⟩

theorem sameBytes_setBadSyms (d : Bool) (g n : Nat) (s : State) : SameBytes s (s.setBadSyms d g n) := by
  cases d <;> exact sameBytes_tier rfl rfl rfl rfl

theorem sameBytes_setPoison (d : Bool) (g : Nat) (b : Bool) (s : State) : SameBytes s (s.setPoison d g b) := by
  cases d <;> exact sameBytes_tier rfl rfl rfl rfl

theorem sameBytes_cleanGranules (d : Bool) (off len : Nat) (s : State) : SameBytes s (cleanGranules d off len s) := by
  cases d <;> exact sameBytes_tier rfl rfl rfl rfl

/-! ### Pages that a store opens (R212) -/

theorem openPage_of_written {d : Bool} {pg : Nat} {s : State} (h : s.written d pg = true) : openPage d pg s = s := by
  rw [openPage, if_pos h]

theorem openPage_of_unwritten {d : Bool} {pg : Nat} {s : State} (h : s.written d pg = false) : openPage d pg s =
    (cleanGranules d (pg * PAGE) PAGE (s.setMem d (tclear (s.mem d) (pg * PAGE) (pg * PAGE + PAGE)))).setWritten d pg := by
  rw [openPage, if_neg (by simp [h])]

theorem openPage_written (d : Bool) (pg q : Nat) (s : State) :
    (openPage d pg s).written d q = (decide (q = pg) || s.written d q) := by
  cases h : s.written d pg
  · rw [openPage_of_unwritten h, setWritten_written, (sameBytes_cleanGranules _ _ _ _).written, setMem_written]
  · rw [openPage_of_written h]
    by_cases hq : q = pg <;> simp [hq, h]

/-- Opening a page clears bytes of that page alone, and none where the page had been written. -/
theorem tget_openPage {d : Bool} {pg a : Nat} {s : State} (h : s.written d (a / PAGE) = true ∨ a / PAGE ≠ pg) :
    tget ((openPage d pg s).mem d) a 0#8 = tget (s.mem d) a 0#8 := by
  cases hpg : s.written d pg
  · have hne : a / PAGE ≠ pg := by
      rintro rfl
      simp [hpg] at h
    rw [openPage_of_unwritten hpg, setWritten_mem, (sameBytes_cleanGranules _ _ _ _).mem, setMem_mem, tget_tclear, if_neg]
    unfold PAGE at hne ⊢
    omega
  · rw [openPage_of_written hpg]

theorem storeLeaves_openPage (d : Bool) (pg : Nat) (s : State) : StoreLeaves d s (openPage d pg s) := by
  cases h : s.written d pg
  · rw [openPage_of_unwritten h]
    exact ((storeLeaves_setMem d _ s).trans ((sameBytes_cleanGranules d _ _ _).leaves d)).trans (storeLeaves_setWritten d pg _)
  · rw [openPage_of_written h]
    exact .refl d s

/-- The pages of a list, opened one after the other. -/
def openPages (d : Bool) (pgs : List Nat) (s : State) : State := pgs.foldl (fun s pg => openPage d pg s) s

theorem openPages_written (d : Bool) (pgs : List Nat) (q : Nat) (s : State) :
    (openPages d pgs s).written d q = (decide (q ∈ pgs) || s.written d q) := by
  induction pgs generalizing s with
  | nil => simp [openPages]
  | cons pg pgs ih =>
    have hcons : openPages d (pg :: pgs) s = openPages d pgs (openPage d pg s) := rfl
    rw [hcons, ih, openPage_written]
    by_cases hq : q = pg <;> simp [hq]

theorem tget_openPages {d : Bool} {pgs : List Nat} {a : Nat} {s : State}
    (h : s.written d (a / PAGE) = true ∨ a / PAGE ∉ pgs) :
    tget ((openPages d pgs s).mem d) a 0#8 = tget (s.mem d) a 0#8 := by
  induction pgs generalizing s with
  | nil => rfl
  | cons pg pgs ih =>
    have hrest : (openPage d pg s).written d (a / PAGE) = true ∨ a / PAGE ∉ pgs := by
      rw [openPage_written, Bool.or_eq_true]
      exact h.imp .inr fun hn hm => hn (List.mem_cons_of_mem _ hm)
    have hfirst : s.written d (a / PAGE) = true ∨ a / PAGE ≠ pg :=
      h.imp_right fun hn he => hn (he ▸ List.mem_cons_self)
    exact (ih hrest).trans (tget_openPage hfirst)

/-! ### The store of bytes (R199, R202, R212) -/

/-- The pages opened and the bytes in place; what is left of the store heals granules. -/
def storedBytes (d : Bool) (off : Nat) (data : List Byte) (s : State) : State :=
  (openPages d (pagesOf off data.length) s).setMem d (mwrite ((openPages d (pagesOf off data.length) s).mem d) off data)

theorem storeBytes_sameBytes (d : Bool) (off : Nat) (data : List Byte) (s : State) :
    SameBytes (storedBytes d off data s) (storeBytes d off data s) :=
  SameBytes.foldl (fun s g => (sameBytes_setBadSyms d g 0 s).trans (sameBytes_setPoison d g false _)) _ _

/-- A byte of the tier after a store. -/
theorem tget_storeBytes (d : Bool) (off : Nat) (data : List Byte) (s : State) (a : Nat) :
    tget ((storeBytes d off data s).mem d) a 0#8 = if off ≤ a ∧ a < off + data.length then data.getD (a - off) 0#8
      else tget ((openPages d (pagesOf off data.length) s).mem d) a 0#8 := by
  rw [(storeBytes_sameBytes d off data s).mem, storedBytes, setMem_mem, tget_mwrite]

theorem storeBytes_written (d : Bool) (off : Nat) (data : List Byte) (s : State) (pg : Nat) :
    (storeBytes d off data s).written d pg = (decide (pg ∈ pagesOf off data.length) || s.written d pg) := by
  rw [(storeBytes_sameBytes d off data s).written, storedBytes, setMem_written, openPages_written]

theorem storeBytes_leaves (d : Bool) (off : Nat) (data : List Byte) (s : State) : StoreLeaves d s (storeBytes d off data s) :=
  ((StoreLeaves.foldl (fun s pg => storeLeaves_openPage d pg s) _ s).trans (storeLeaves_setMem d _ _)).trans
    ((storeBytes_sameBytes d off data s).leaves d)

/-! ### The frame boundary (R213, R257, R262, R267, R268) -/

theorem nextFrame_next {s : State} (h : s.sched.due = 0) :
    nextFrame s = (s.sched.frame + 1, enterFrame (s.sched.frame + 1) (rollMeters s)) := by
  rw [nextFrame, if_pos h]

/-- A boundary that the counter has passed already moves neither the counter nor the frame (R257, log 117). -/
theorem nextFrame_due {s : State} (h : s.sched.due ≠ 0) : nextFrame s =
    (s.sched.frame + 1 - s.sched.due, rollMeters { s with sched := { s.sched with due := s.sched.due - 1 } }) := by
  rw [nextFrame, if_neg h]

/-- What a boundary does once frame `f` has begun in `v`, in its order (R257, log 117). -/
theorem exec_frameBoundary_begun {s t u v : State} {f : Nat} (hnext : nextFrame s = (f, v)) (ht : t = clearFrameCounts f v)
    (hu : u = refill (floorTests f (switchAt f t))) : exec .frameBoundary s =
    .next (formAll (advanceMirrored (settleSlices (if placementOn u then planMoves (evaluateHeat u) else u)))) := by
  simp only [exec_frameBoundary, execFrameBoundary, hnext, ← ht, ← hu]

/-! ### The ends of moves and the start of promotions (R213, R215, R225) -/

section
variable {h : Nat} {s : State} {m : Move}

theorem exec_moveComplete_done {n : Nat} (hmove : findMove s h = some m) (hstarted : m.started = true)
    (hon : placementOn s = true) (hgranted : moveGranted s m = true) :
    exec (.moveComplete (.done h n)) s = .next (afterMove h (finishMove m (chargeMove m n s))) := by
  simp only [exec_moveComplete, execMoveComplete, hmove, hstarted, hon, hgranted, Bool.not_true, Bool.or_self,
    Bool.false_eq_true, if_false, if_true]

/-- A background move that met a late access is given up alone; a raised one takes with it what waits for it (R225). -/
theorem exec_moveComplete_late {off : Nat} (hmove : findMove s h = some m) (hstarted : m.started = true)
    (hon : placementOn s = true) : exec (.moveComplete (.late h off)) s = .next (afterMove h
      (if m.bg then abandonMove m off s else failWaiting h (lateAddr s m off) (abandonMove m off s))) := by
  simp only [exec_moveComplete, execMoveComplete, hmove, hstarted, hon, Bool.not_true, Bool.or_self, Bool.false_eq_true,
    if_false]

/-- An admitted promotion of tensor `h` may take its space: it has not started, the engine serves, and its victims have left
the N-tier (R213). -/
structure MayPromote (s : State) (h : Nat) (m : Move) : Prop where
  move : findMove s h = some m
  waits : m.started = false
  serves : placementOn s = true
  gone : m.victims.any (fun v => (s.tensor v).inN) = false

theorem exec_promotionStart_starts {t : State} (hmay : MayPromote s h m) (hspace : moveSpace h m.kind s = some t) :
    exec (.promotionStart h) s = .next (refreshHeat (setMoves (t.tier.moves.map (fun x =>
      if x.handle = h then { x with started := true, victims := [] } else x)) t)) := by
  simp only [exec_promotionStart, execPromotionStart, hmay.move, hmay.waits, hmay.serves, hmay.gone, hspace, Bool.not_true,
    Bool.or_self, Bool.false_eq_true, if_false]

theorem exec_promotionStart_dropped (hmay : MayPromote s h m) (hspace : moveSpace h m.kind s = none) :
    exec (.promotionStart h) s = .next (afterMove h (dropMove h s)) := by
  simp only [exec_promotionStart, execPromotionStart, hmay.move, hmay.waits, hmay.serves, hmay.gone, hspace, Bool.not_true,
    Bool.or_self, Bool.false_eq_true, if_false]

end

/-! ### Grants (R257, R264–R266, R368) -/

/-- The requests that wait at an arbiter: at a port those of its virtual channels, else those of a tier (R258). -/
def arbiterCands (s : State) (r unit : Nat) : List Cand := if r = 3 then portCands s unit else tierCands s r unit

/-- The request of class `c` that an arbiter grants, by its own round-robin (R265, R368). -/
def arbiterPick (s : State) (r unit c : Nat) (cs : List Cand) : Option Cand :=
  if r = 3 then grantVc (tget s.sched.lastHull ((r * 4096 + unit) * 4 + c) 0) c cs
  else grantWithin (tget s.sched.lastHull ((r * 4096 + unit) * 4 + c) 0) c cs

/-- A class-1 grant notes its wait (R266), and its hull as what a shortfall of each tenant of another hull comes from whose
class-2 request waits there (R270). -/
def noteClassOne (r waited : Nat) (cause : BlockCause) (c : Nat) (x : Cand) (cs : List Cand) (u : State) : State :=
  if c = 1 then observeWait r x.hull waited cause (((cs.filter (fun y => y.cls = 2 && y.hull < NO_HULL
    && y.hull ≠ x.hull)).flatMap (fun y => tenantsIn u y.hull)).foldl (fun s t => noteCause t 3 x.hull s) u) else u

/-- What a grant of the request `x` comes to: at a port a flit leaves, at a tier the access is granted. -/
def grantTo (r unit c : Nat) (x : Cand) (v : State) : State :=
  if r = 3 then sendFlit unit x.id c v else { v with tier := { v.tier with
    queue := v.tier.queue.map (fun a => if a.id = x.id then { a with granted := true } else a) } }

theorem exec_arbiterGrant_picked {res : Resource} {unit waited service r c : Nat} {cause : BlockCause} {s u : State}
    {cs : List Cand} {x : Cand} (hr : r = resourceNo res) (hcs : cs = arbiterCands s r unit)
    (hclass : grantClass s r unit cs = some c) (hpick : arbiterPick s r unit c cs = some x)
    (hu : u = noteGrant r unit service x (cs.any (fun y => y.cls = 1)) (endBlocks r unit s)) :
    exec (.arbiterGrant res unit waited service cause) s =
      .next (grantTo r unit c x (noteClassOne r waited cause c x cs u)) := by
  subst hr
  rw [arbiterCands] at hcs
  rw [arbiterPick] at hpick
  simp only [exec_arbiterGrant, execArbiterGrant, ← hcs, hclass, hpick, ← hu]
  exact (apply_ite Host.Outcome.next _ _ _).symm

/-! ### Slots and calibration windows (R205, R257) -/

theorem exec_slotBoundary_next {s : State} (h : s.sched.slot < 511) : exec .slotBoundary s =
    .next (settleSlices ((advanceTo (slotStart s.sched.frame (s.sched.slot + 1))
      { s with sched := { s.sched with slot := s.sched.slot + 1 } }).wr CYC_SLOT (s.sched.slot + 1))) := by
  rw [exec_slotBoundary, execSlotBoundary, if_neg (Nat.not_le.mpr h)]

/-- Whether a window of unit `u` at the tier `r` would come within `gap` frames of its last one (R205). -/
def windowEarly (s : State) (r u gap : Nat) : Bool := match s.sched.calLast.find? (fun e => e.1 = r * 16 + u) with
  | some e => s.sched.frame < e.2 + gap
  | none => false

theorem windowEarly_eq_false {s : State} {r u gap : Nat}
    (h : ∀ e, s.sched.calLast.find? (fun e => e.1 = r * 16 + u) = some e → e.2 + gap ≤ s.sched.frame) :
    windowEarly s r u gap = false := by
  unfold windowEarly
  split
  · next e hlast => exact decide_eq_false (Nat.not_lt.mpr (h e hlast))
  · rfl

theorem exec_calibrationWindow_opens {d : Bool} {u n r : Nat} {s t : State} (hunit : u < (if d then 2 else 12))
    (hr : r = (if d then 1 else 0)) (hslot : cycKind (slotEntry s r) ≠ 1)
    (hlast : ∀ e, s.sched.calLast.find? (fun e => e.1 = r * 16 + u) = some e → e.2 + (if d then 100 else 50) ≤ s.sched.frame)
    (hpowered : bit (s.rd32 (unitBlock d u)) 1 = true)
    (ht : t = noteMaint r u (meterArbiters r * 10 * min n (if d then 2000 else 1500)) { s with
      sched := { s.sched with calLast := tput s.sched.calLast (r * 16 + u) s.sched.frame (2 ^ 64) },
      tier := { s.tier with blocked := s.tier.blocked ++ [(d, u, 1000)] } }) :
    exec (.calibrationWindow ⟨d, u⟩ n) s =
      .next ((t.wr ⟨unitBlock d u, 2, 1⟩ 1).addSat (unitBlock d u + 0x20) 1) := by
  have hopen : ¬ (decide (cycKind (slotEntry s r) = 1) || windowEarly s r u (if d then 100 else 50) ||
      !bit (s.rd32 (unitBlock d u)) 1 || decide ((if d then 2 else 12) ≤ u)) = true := by
    simp [windowEarly_eq_false hlast, hpowered, hslot, hunit]
  subst hr ht
  rw [exec_calibrationWindow]
  exact if_neg hopen

theorem exec_calOverdue_flags {d : Bool} {u : Nat} {s : State} (h : u < (if d then 2 else 12)) :
    exec (.calOverdue d u) s = .next (s.raise (unitBlock d u) 6) := by
  rw [exec_calOverdue, execCalOverdue, if_neg (Nat.not_le.mpr h)]

/-! ### Packets for another device of the slice (R367, R372, R379) -/

/-- A packet that may go on: it is for another device of this slice, which is reached, and a hop is left. -/
structure GoesOn (s : State) (hd : PktHdr) : Prop where
  away : isOurs s hd.dst = false
  slice : hd.slice = s.rd FAB_SLICE
  reached : reachable s hd.dst = true
  hop : hd.hop < 2

theorem GoesOn.forward_eq {s : State} {hd : PktHdr} (h : GoesOn s hd) (mk : PktHdr → Packet) :
    forward hd mk s = sendPacket hd.dst none (mk (onward hd)) s := by
  rw [forward, if_neg (not_not_intro h.slice), if_pos (by simp [h.reached, h.hop])]

theorem exec_remoteRequest_forwarded {hd : PktHdr} {s : State} (who : RemoteWho) (g : DWord) (op : TierOp) (h : GoesOn s hd) :
    exec (.remoteRequest hd who g op) s = .next (sendPacket hd.dst none (.request (onward hd) who g op) s) := by
  rw [exec_remoteRequest, execRemoteRequest, if_pos (by simp [h.away]), h.forward_eq]

theorem exec_remoteResponse_forwarded {hd : PktHdr} {s : State} (r : Rsp) (h : GoesOn s hd) :
    exec (.remoteResponse hd r) s = .next (sendPacket hd.dst none (.response (onward hd) r) s) := by
  rw [exec_remoteResponse, execRemoteResponse, if_pos (by simp [h.away]), h.forward_eq]

/-! ### Requests of other devices (R38, R200, R369, R376, R379) -/

/-- A request for this device that the response space has room for (R369, log 220). -/
structure Answerable (s : State) (hd : PktHdr) : Prop where
  ours : isOurs s hd.dst = true
  room : canAnswer s hd = true

theorem exec_remoteRequest_served {hd : PktHdr} {s : State} (who : RemoteWho) (g : DWord) (op : TierOp)
    (h : Answerable s hd) (hslice : hd.slice = s.rd FAB_SLICE) : exec (.remoteRequest hd who g op) s =
    .next (present (.remote hd) { who := remoteRequester hd.src who, target := .addr g, op, cls := 2 } s) := by
  simp only [exec_remoteRequest, execRemoteRequest, h.ours, h.room, hslice, ne_eq, not_true_eq_false, Bool.not_true,
    Bool.false_eq_true, if_false]

theorem exec_remoteRequest_denied {hd : PktHdr} {s : State} (who : RemoteWho) (g : DWord) (op : TierOp)
    (h : Answerable s hd) (hslice : hd.slice ≠ s.rd FAB_SLICE) : exec (.remoteRequest hd who g op) s =
    .next (respondCode hd RSP_DENIED (sliceDrop s)) := by
  simp only [exec_remoteRequest, execRemoteRequest, h.ours, h.room, hslice, ne_eq, not_false_eq_true, Bool.not_true,
    Bool.false_eq_true, if_false, if_true, denySlice]

/-! ### Requests of this device (R372, R373, R376) -/

theorem exec_remoteResponse_ends {hd : PktHdr} {r : Rsp} {s : State} {p : PendingReq} (hours : isOurs s hd.dst = true)
    (hpend : findPending s hd.tag = some p) : exec (.remoteResponse hd r) s =
    .next (pumpFences (endRemote p r.code r.data (dropPending hd.tag s))) := by
  simp only [exec_remoteResponse, execRemoteResponse, hours, hpend, Bool.not_true, Bool.false_eq_true, if_false]

theorem exec_remoteResponse_discarded {hd : PktHdr} {r : Rsp} {s : State} (hours : isOurs s hd.dst = true)
    (hnone : findPending s hd.tag = none) : exec (.remoteResponse hd r) s = .next s := by
  simp only [exec_remoteResponse, execRemoteResponse, hours, hnone, Bool.not_true, Bool.false_eq_true, if_false]

theorem exec_fabricTimeout_ends {tag : Nat} {s : State} {p : PendingReq} (hpend : findPending s tag = some p) :
    exec (.fabricTimeout tag) s = .next (pumpFences (endRemote p RSP_FABRIC []
      (((dropPending tag s).addSat FAB_TIMEOUTS 1).raise FAB_STATUS 5))) := by
  simp only [exec_fabricTimeout, execFabricTimeout, hpend]

/-- The path to `d` no longer holds packets back. -/
def releasePath (d : Nat) (s : State) : State := { s with fab := { s.fab with
  heldOut := s.fab.heldOut.filter (fun x => x.1 ≠ d),
  routes := tput s.fab.routes d { s.route d with held := false } {} } }

/-- A request whose destination has become unreachable ends, if it still waits. -/
def endUnreachable (s : State) (tag : Nat) : State := match findPending s tag with
  | some p => endRemote p RSP_UNREACHABLE [] (dropPending tag s)
  | none => s

/-- With the old path drained, what it held goes on or ends (R372, R373). -/
theorem exec_pathChangeRelease_drained {d : Nat} {s : State} (hheld : (s.route d).held = true)
    (hdrained : owesResponse s d = false) : exec (.pathChangeRelease d) s =
    .next (if reachable (releasePath d s) d = true
      then (s.fab.heldOut.filter (fun x => x.1 = d)).foldl (fun s x => sendPacket d x.2.1 x.2.2 s) (releasePath d s)
      else pumpFences ((heldTags s d).foldl endUnreachable (releasePath d s))) := by
  have hgo : ¬ (!(s.route d).held || owesResponse s d) = true := by simp [hheld, hdrained]
  rw [exec_pathChangeRelease, execPathChangeRelease]
  exact (if_neg hgo).trans (apply_ite Host.Outcome.next _ _ _).symm

/-! ### Remote queue routes (R377) -/

/-- A place of the array, as the packets of queue routes name it, whose pod belongs to a hull that spans devices. -/
structure SpannedPlace (s : State) (x y : Nat) : Prop where
  col : x ≤ 159
  row : y ≤ 79
  spans : spansDevices s (podOf (tileAt x y)) = true

theorem SpannedPlace.on_array {s : State} {x y : Nat} (h : SpannedPlace s x y) : ¬ (159 < x || 79 < y) = true := by
  have hcol := h.col
  have hrow := h.row
  simp only [Bool.or_eq_true, decide_eq_true_eq]
  omega

theorem exec_queueOpen_granted {hd : PktHdr} {x y q k e : Nat} {s : State} (h : Answerable s hd)
    (hslice : hd.slice = s.rd FAB_SLICE) (hplace : SpannedPlace s x y) (hk : k = tileAt x y)
    (he : e = (s.tile k).chanEntry (s.tile k).active q)
    (hfree : (s.pod (podOf k)).inbound.find? (fun i => i.1 = inboundKey k q) = none) (hmode : chMode e = MODE_INPUT) :
    exec (.queueOpen hd x y q) s = .next (respond hd (fun a => .queueGrant a (chDepth e))
      (s.setPod (podOf k) { s.pod (podOf k) with
        inbound := tput (s.pod (podOf k)).inbound (inboundKey k q) (64 + hd.src % 64) 0 })) := by
  subst hk
  rw [exec_queueOpen, execQueueOpen]
  simp only [h.ours, h.room, hslice, hplace.on_array, hplace.spans, hfree, ← he, hmode, Option.isSome_none, ne_eq,
    not_true_eq_false, Bool.not_true, Bool.false_eq_true, if_false]

theorem exec_queueGrant_opens {hd : PktHdr} {credits d pod route : Nat} {g : DWord} {s t : State}
    (hours : isOurs s hd.dst = true) (hpend : findPending s hd.tag = some ⟨hd.tag, d, .queueOpen pod route, g⟩)
    (ht : t = dropPending hd.tag s) : exec (.queueGrant hd credits) s =
    .next (routePump pod route (t.setPod pod { t.pod pod with
      routes := tput (t.pod pod).routes route { tget (t.pod pod).routes route {} with
        granted := true, credits := credits, depth := credits } {} })) := by
  subst ht
  simp only [exec_queueGrant, execQueueGrant, hours, hpend, Bool.not_true, Bool.false_eq_true, if_false]

theorem exec_queueEntry_delivered {hd : PktHdr} {x y q k : Nat} {d : BitVec 512} {s : State} (h : Answerable s hd)
    (hslice : hd.slice = s.rd FAB_SLICE) (hplace : SpannedPlace s x y) (hk : k = tileAt x y)
    (hfits : arrivalTrap (s.tile k) q = none) : exec (.queueEntry hd x y q d) s =
    .next (respond hd (fun a => .queueAck a) (acceptEntry k q d s)) := by
  subst hk
  rw [exec_queueEntry, execQueueEntry]
  simp only [h.ours, h.room, hslice, hplace.on_array, hplace.spans, hfits, ne_eq, not_true_eq_false, Bool.not_true,
    Bool.false_eq_true, if_false]

theorem exec_queueCredit_returned {hd : PktHdr} {pod route n : Nat} {s : State} {rc : RouteCredit} (h : Answerable s hd)
    (hslice : hd.slice = s.rd FAB_SLICE) (hrc : rc = tget (s.pod pod).routes route {}) (hgranted : rc.granted = true) :
    exec (.queueCredit hd pod route n) s = .next (routePump pod route (respondCode hd RSP_OK
      (s.setPod pod { s.pod pod with routes := tput (s.pod pod).routes route { rc with credits := rc.credits + n } {} }))) := by
  rw [exec_queueCredit, execQueueCredit]
  simp only [h.ours, h.room, hslice, ← hrc, hgranted, ne_eq, not_true_eq_false, Bool.not_true, Bool.false_eq_true, if_false]

/-! ### The statements settled -/

/-- Settles O52: a byte within the store is `data`'s (`tget_storeBytes`), and opening pages clears none of a written page
(`tget_openPages`). -/
theorem tierBytesLaw : Obligations.TierBytesLaw := by
  refine ⟨?_, ?_, ?_, ?_⟩
  · intro d off data s a hlo hhi
    rw [tget_storeBytes, if_pos ⟨hlo, hhi⟩]
  · intro d off data s a hout hpage
    rw [tget_storeBytes, if_neg (by omega), tget_openPages hpage]
  · intro d off data s
    have h := storeBytes_leaves d off data s
    exact ⟨h.other, h.flash, h.tiles, h.bar⟩
  · intro d off data s pg hpg
    rw [storeBytes_written, decide_eq_true hpg, Bool.true_or]

/-- Settles O30: the boundary's frame by `nextFrame`, each move's fate by its law above. -/
theorem frameAndPlacementComplete : Obligations.FrameAndPlacementComplete := by
  refine ⟨?_, ?_, ?_, ?_, ?_, ?_⟩
  · rintro s t u f hdue rfl ht hu
    exact exec_frameBoundary_begun (nextFrame_next hdue) ht hu
  · rintro s t u f hdue rfl ht hu
    exact exec_frameBoundary_begun (nextFrame_due hdue) ht hu
  · exact fun h n s m => exec_moveComplete_done
  · exact fun h off s m => exec_moveComplete_late
  · exact fun h s m t hmove hwaits hon hgone => exec_promotionStart_starts ⟨hmove, hwaits, hon, hgone⟩
  · exact fun h s m hmove hwaits hon hgone => exec_promotionStart_dropped ⟨hmove, hwaits, hon, hgone⟩

/-- Settles O32: of a grant, what `exec_arbiterGrant_picked` gives at a tier and at a port; slots and windows by their laws. -/
theorem scheduleEventsComplete : Obligations.ScheduleEventsComplete := by
  refine ⟨?_, ?_, ?_, fun d u s => exec_calOverdue_flags⟩
  · intro res unit waited service cause s cs c x r u v hr hcs hclass hpick hu hv
    obtain rfl : v = noteClassOne r waited cause c x cs u := hv
    rw [exec_arbiterGrant_picked hr hcs hclass hpick hu, grantTo]
    exact ⟨fun htier => by rw [if_neg htier], fun hport => by rw [if_pos hport]⟩
  · rintro s n hslot rfl
    exact exec_slotBoundary_next hslot
  · exact fun d u n s t r => exec_calibrationWindow_opens

/-- Settles O44: a packet is answered here or goes on, a request of this device ends, and queue routes take their grants,
entries and credits, each by its law above. -/
theorem remoteTrafficCompletes : Obligations.RemoteTrafficCompletes := by
  refine ⟨?_, ?_, ?_, ?_, ?_, ?_, fun tag s p => exec_fabricTimeout_ends, ?_, ?_, ?_, ?_, ?_, ?_⟩
  · exact fun hd who g op s hours hroom => exec_remoteRequest_served who g op ⟨hours, hroom⟩
  · exact fun hd who g op s hours hroom => exec_remoteRequest_denied who g op ⟨hours, hroom⟩
  · exact fun hd who g op s haway hslice hreach hhop => exec_remoteRequest_forwarded who g op ⟨haway, hslice, hreach, hhop⟩
  · exact fun hd r s p => exec_remoteResponse_ends
  · exact fun hd r s => exec_remoteResponse_discarded
  · exact fun hd r s haway hslice hreach hhop => exec_remoteResponse_forwarded r ⟨haway, hslice, hreach, hhop⟩
  · rintro d s t hheld hdrained rfl hreach
    exact (exec_pathChangeRelease_drained hheld hdrained).trans (congrArg Host.Outcome.next (if_pos hreach))
  · rintro d s t hheld hdrained rfl hreach
    exact (exec_pathChangeRelease_drained hheld hdrained).trans
      (congrArg Host.Outcome.next (if_neg (Bool.eq_false_iff.mp hreach)))
  · rintro hd x y q s k e rfl he hours hroom hslice hcol hrow hspans
    exact exec_queueOpen_granted ⟨hours, hroom⟩ hslice ⟨hcol, hrow, hspans⟩ rfl he
  · exact fun hd credits s d pod route g t => exec_queueGrant_opens
  · rintro hd x y q d s k rfl hours hroom hslice hcol hrow hspans
    exact exec_queueEntry_delivered ⟨hours, hroom⟩ hslice ⟨hcol, hrow, hspans⟩ rfl
  · exact fun hd pod route n s rc hours hroom hslice => exec_queueCredit_returned ⟨hours, hroom⟩ hslice

/-- Settles O58: at reset each memory is the empty table. -/
theorem resetMemoriesCanonical : Obligations.ResetMemoriesCanonical := by
  refine ⟨?_, rfl, rfl⟩
  have hn : Memory.wf State.reset.tier.nmem = true := wf_nil
  have hd : Memory.wf State.reset.tier.dmem = true := wf_nil
  have hf : Memory.wf State.reset.flash.fmem = true := wf_nil
  rw [memoriesWf, hn, hd, hf]
  rfl

end Sys2Proof.Machine
end

section
/-! PROOFS. The media's events (R236, R237, R241–R244, R246): reads of sound chunks, programs, erases, scrubs, relocations,
levelling, compaction and channel failures, each by its law, then the statement they settle. -/

namespace Sys2Proof.Machine

/-! ### Codewords that decode at the first attempt (R236, R242) -/

/-- Every codeword decoded without read-retry, with fewer corrected bits than raise a band (R242). -/
def DecodesClean (ws : List Codeword) : Prop := ∀ w ∈ ws, ∃ n, w = .hard n ∧ n < 72

section
variable {ws : List Codeword} (hclean : DecodesClean ws)
include hclean

/-- On a channel that has not failed, a chunk without lost units yields its codewords as the medium made them. -/
theorem DecodesClean.reads_as_made {s : State} {k : Nat} (mates : Bool) (hlen : ws.length = 16)
    (hlost : ∀ i, i < 16 → tget s.flash.lost (16 * k + i) false = false) :
    ((List.range 16).zip ws).map (fun x => if tget s.flash.lost (16 * k + x.1) false then .lost
      else onChannel false mates (checkMeta s (16 * k + x.1) x.2)) = ws := by
  have hsame : ∀ x ∈ (List.range 16).zip ws, (if tget s.flash.lost (16 * k + x.1) false then .lost
      else onChannel false mates (checkMeta s (16 * k + x.1) x.2)) = x.2 := by
    rintro ⟨i, w⟩ hx
    obtain ⟨hi, hw⟩ := List.of_mem_zip hx
    obtain ⟨n, rfl, -⟩ := hclean w hw
    rw [hlost i (List.mem_range.mp hi)]
    cases mates <;> rfl
  rw [List.map_congr_left hsame]
  exact List.map_snd_zip (Nat.le_of_eq (hlen.trans List.length_range.symm))

theorem DecodesClean.most_bits_lt : ws.foldl (fun m w => max m (cwBits w)) 0 < 72 := by
  refine List.foldlRecOn ws _ (motive := (· < 72)) (by omega) fun m hm w hw => ?_
  obtain ⟨n, rfl, hn⟩ := hclean w hw
  exact Nat.max_lt.mpr ⟨hm, hn⟩

theorem DecodesClean.no_steps : ws.foldl (fun n w => n + cwStep w) 0 = 0 := by
  refine List.foldlRecOn ws _ (motive := (· = 0)) rfl fun m hm w hw => ?_
  obtain ⟨n, rfl, -⟩ := hclean w hw
  exact hm

theorem DecodesClean.not_deep : ws.any (fun w => cwSoft w || cwOuter w) = false := by
  rw [List.any_eq_false]
  intro w hw
  obtain ⟨n, rfl, -⟩ := hclean w hw
  exact Bool.false_ne_true

theorem DecodesClean.not_retried : ws.any cwRetry = false := by
  rw [List.any_eq_false]
  intro w hw
  obtain ⟨n, rfl, -⟩ := hclean w hw
  exact Bool.false_ne_true

theorem DecodesClean.none_lost : ((List.range 16).zip ws).find? (fun x => cwLost x.2) = none := by
  rw [List.find?_eq_none]
  rintro ⟨i, w⟩ hx
  obtain ⟨n, rfl, -⟩ := hclean w (List.of_mem_zip hx).2
  exact Bool.false_ne_true

end

/-! ### Bands (R242) -/

/-- A block enters no band that is not above its own. -/
theorem raiseBand_of_le {c b band : Nat} {signal : Bool} {s : State} (h : band ≤ (s.block c b).band) :
    raiseBand c b band signal s = s := if_pos h

theorem readBand_zero {most : Nat} (h : most < 72) : readBand most 0 false = 0 := by
  have hthree : ¬ (false || decide (100 ≤ most)) = true := by simp; omega
  have htwo : ¬ (decide (16 ≤ 0) || decide (72 ≤ most)) = true := by simp; omega
  rw [readBand, if_neg hthree, if_neg htwo]

/-! ### Reads (R236, R237, R246) -/

/-- A chunk that is read here: its extent is in use, the F-tier has power, its channel works and none of its units is lost. -/
structure ChunkReadable (s : State) (k : Nat) : Prop where
  onMedium : (ftPlace k).extent < EXTENTS
  used : extUse s (ftPlace k).extent ≠ 0
  powered : bit (s.rd32 FT_STATUS) 0 = true
  works : s.rdB (FT_FAILED (ftPlace k).channel) = false
  kept : ∀ i, i < 16 → tget s.flash.lost (16 * k + i) false = false

theorem exec_ftChunkRead_clean {k c b : Nat} {ws : List Codeword} {s u : State} (h : ChunkReadable s k)
    (hlen : ws.length = 16) (hclean : DecodesClean ws) (hc : c = (ftPlace k).channel)
    (hb : b = blockOf s c (ftPlace k).extent) (hu : u = markLost k ws (countReads ws s)) :
    exec (.ftChunkRead k ws) s = .next (u.setBlock c b { u.block c b with reads := (u.block c b).reads + 4 }) := by
  subst hc
  have hgo : ¬ (decide (ws.length ≠ 16) || decide (EXTENTS ≤ (ftPlace k).extent) ||
      decide (extUse s (ftPlace k).extent = 0) || !bit (s.rd32 FT_STATUS) 0) = true := by
    simp [hlen, h.used, h.powered, Nat.not_le.mpr h.onMedium]
  rw [exec_ftChunkRead, execFtChunkRead]
  simp only [hgo, h.works, hclean.reads_as_made _ hlen h.kept, ← hb, ← hu, hclean.none_lost, hclean.not_deep,
    hclean.not_retried, hclean.no_steps, readBand_zero hclean.most_bits_lt, raiseBand_of_le (Nat.zero_le _),
    Bool.or_self, Bool.false_eq_true, if_false]

/-! ### Programs (R240, R243) -/

/-- The channels of a program that failed, each once. -/
def failedChannels (failed : List Nat) : List Nat := (failed.filter (· < 256)).eraseDups

/-- The blocks of extent `e` on the channels given are retired: a program of theirs failed (R243). -/
def retireFailed (bad : List Nat) (e : Nat) (s : State) : State :=
  bad.foldl (fun s c => retireBlock c (blockOf s c e) 2 s) s

/-- The waiting row `w` stands on the medium, `rest` wait still. -/
def storeRow (w : FtRow) (rest : List FtRow) (s : State) : State := { s with flash := { s.flash with
  rows := rest
  fmem := w.data.foldl (fun m x => tput m (w.row * ROW + x.1) x.2 0#8) (tclear s.flash.fmem (w.row * ROW) (w.row * ROW + ROW))
  lost := tclear s.flash.lost (w.row * ROW / 4096) ((w.row * ROW + ROW) / 4096) } }

theorem exec_ftProgramDone_row {failed bad : List Nat} {s v : State} {w : FtRow} {rest : List FtRow} {r : Running}
    (hrows : s.flash.rows = w :: rest) (hpowered : bit (s.rd32 FT_STATUS) 0 = true)
    (herased : awaitsErase s w.row 1 = false) (hbad : bad = failedChannels failed)
    (hv : v = programmed w.row 1 (storeRow w rest (retireFailed bad (w.row / 512) s)))
    (hrun : v.host.running.find? (fun r => r.seqNo = w.seqNo) = some r) : exec (.ftProgramDone failed) s =
    .next (rowDone w.bytes r ((v.add64 0x220048 w.bytes).add64 0x220050 (256 * 65536 + 65536 * bad.length))) := by
  subst hbad hv
  have hgo : ¬ (!bit (s.rd32 FT_STATUS) 0 || awaitsErase s w.row 1) = true := by simp [hpowered, herased]
  rw [exec_ftProgramDone, execFtProgramDone, hrows]
  refine (if_neg hgo).trans ?_
  simp only [storeRow, retireFailed, failedChannels, add64_host] at hrun ⊢
  rw [hrun]

/-! ### The wear and winnow engines (R242–R244) -/

/-- The band that a scrub's mean retry step, in 1/32 steps, and its most corrected bits give (R242). -/
def scrubBand (r m : Nat) : Nat := if 100 ≤ m then 3 else if 32 ≤ r ∨ 72 ≤ m then 2 else if 8 ≤ r then 1 else 0

/-- A block that the winnow engine scrubs now: one of the medium, in service, and due (R244). -/
structure ScrubsNow (s : State) (c b : Nat) : Prop where
  channel : c < 256
  block : b < GOOD_BLOCKS
  serves : (s.block c b).retired = false
  granted : wearGranted s = true
  due : scrubDue s c b = true

section
variable {c b n : Nat} {s u : State}

theorem exec_ftEraseDone_granted (ok : Bool) (hgrant : wearGranted s = true)
    (herasing : s.flash.erasing.contains (c, b) = true)
    (hu : u = noteWear n { s with flash := { s.flash with erasing := s.flash.erasing.filter (· ≠ (c, b)) } }) :
    exec (.ftEraseDone ⟨c, b⟩ ok n) s = .next (if ok then
      refreshChannel c (raiseBand c b (eraseBand ((u.block c b).erases + 1)) false
        (u.setBlock c b { u.block c b with erases := (u.block c b).erases + 1, reads := 0 }))
      else retireBlock c b 2 u) := by
  subst hu
  cases ok <;> simp only [exec_ftEraseDone, execFtEraseDone, hgrant, herasing, Bool.not_true, Bool.not_false, Bool.or_self,
    Bool.false_eq_true, if_false, if_true]

theorem exec_ftScrub_due {r m : Nat} (h : ScrubsNow s c b) (hu : u = (noteWear n s).setBlock c b
      { s.block c b with reads := 0, since := s.counter.toNat, retry := min 255 r, bits := min 255 m }) :
    exec (.ftScrub ⟨c, b⟩ r m n) s = .next (if 64 ≤ r ∨ 72 ≤ m then
      relocateBlock c b (raiseBand c b (scrubBand r m) true u) else raiseBand c b (scrubBand r m) true u) := by
  subst hu
  have hgo : ¬ (decide (256 ≤ c) || decide (GOOD_BLOCKS ≤ b) || (s.block c b).retired || !wearGranted s ||
      !scrubDue s c b) = true := by
    simp [h.serves, h.granted, h.due, Nat.not_le.mpr h.channel, Nat.not_le.mpr h.block]
  rw [exec_ftScrub, execFtScrub]
  simp only [hgo, scrubBand, Bool.or_eq_true, decide_eq_true_eq]
  rfl

theorem exec_blockRelocationDone_switches {old new e : Nat} {named : Option Nat} (hgrant : wearGranted s = true)
    (holdest : s.flash.relocs.find? (fun r => r.1 = c) = some (c, old, named)) (hext : extOf s c old = some e)
    (hgoal : relocGoal s c named = some new) (hlive : extUse s e ≠ 0)
    (hu : u = mapExtent c e new old (dropReloc (c, old, named) (noteWear n s))) :
    exec (.blockRelocationDone ⟨c, n⟩) s = .next (refreshChannel c (freeBlock c old
      ((u.setBlock c new { u.block c new with reads := 0, since := u.counter.toNat }).add64 0x220050 (2 ^ 25)))) := by
  subst hu
  simp only [exec_blockRelocationDone, execBlockRelocationDone, hgrant, holdest, hext, hgoal, hlive, Bool.not_true,
    Bool.false_eq_true, if_false]

theorem exec_staticLevelling_begins (hlow : levelLow s c = some b) :
    exec (.staticLevelling c) s = .next (beginRelocation c b (levelHigh s c) s) := by
  simp only [exec_staticLevelling, execStaticLevelling, hlow]

end

/-! ### Compaction (R241, R245) -/

/-- Extent `e` is the one that compaction empties now: free extents are few, the wear engine is granted, no read and no row
holds it back, and programming is allowed or not needed (R241, R245). -/
structure CompactsNow (s : State) (e : Nat) : Prop where
  emptiest : emptiest s = some e
  few : s.rd32 0x220014 < 8
  granted : wearGranted s = true
  noRead : flashReadOut s = false
  noRow : rowsWait s e (membersIn s e) = false
  mayProgram : s.rdB FT_RESTRICTED = false ∨ s.rd32 0x220014 = 0 ∨ membersIn s e = []

theorem CompactsNow.not_held {s : State} {e : Nat} (h : CompactsNow s e) :
    ¬ (decide (8 ≤ s.rd32 0x220014) || !wearGranted s || flashReadOut s || rowsWait s e (membersIn s e) ||
      (s.rdB FT_RESTRICTED && decide (s.rd32 0x220014 ≠ 0) && decide (membersIn s e ≠ []))) = true := by
  have hmay : (s.rdB FT_RESTRICTED && decide (s.rd32 0x220014 ≠ 0) && decide (membersIn s e ≠ [])) = false := by
    obtain hfree | hnone | hempty := h.mayProgram
    · simp [hfree]
    · simp [hnone]
    · simp [hempty]
  have hfew : ¬ 8 ≤ s.rd32 0x220014 := Nat.not_le.mpr h.few
  simp only [h.granted, h.noRead, h.noRow, hmay, hfew, decide_false, Bool.not_true, Bool.or_self, Bool.false_eq_true,
    not_false_eq_true]

theorem exec_compaction_empties {s t : State} {e : Nat} {rs : List Nat} (h : CompactsNow s e)
    (hroom : takeAll ((membersIn s e).map (rowsOfMember s)) s = some (rs, t))
    (herased : ∀ x ∈ (membersIn s e).zip rs, awaitsErase t x.2 (rowsOfMember s x.1) = false) :
    exec .compaction s = .next (freeExtent e (((membersIn s e).zip rs).foldl (fun s x => moveMember x.1.1 x.1.2 x.2 s)
      (traceIn 768 832 [0, 0, e] (noteWear t.fresh.1.toNat t.fresh.2)))) := by
  have hready : ((membersIn s e).zip rs).any (fun x => awaitsErase t x.2 (rowsOfMember s x.1)) = false :=
    List.any_eq_false.mpr fun x hx => Bool.eq_false_iff.mp (herased x hx)
  simp only [exec_compaction, execCompaction, h.emptiest, h.not_held, hroom, hready, Bool.false_eq_true, if_false]

/-! ### Channel failures (R246) -/

theorem exec_ftChannelFailure_fails {c : Nat} {s : State} (hc : c < 256) (hworks : s.rdB (FT_FAILED c) = false) :
    exec (.ftChannelFailure c) s = .next (restrict 2 (recordEvent 0x0305 none none (payload [(40, 1, c)])
      ((s.wr (FT_FAILED c) 1).raise FT_STATUS 10))) := by
  have hnew : ¬ (decide (256 ≤ c) || s.rdB (FT_FAILED c)) = true := by simp [hworks, hc]
  rw [exec_ftChannelFailure, execFtChannelFailure, if_neg hnew]

/-! ### The statement settled -/

/-- Settles O31: each event by its law above. -/
theorem flashEventsComplete : Obligations.FlashEventsComplete := by
  refine ⟨?_, ?_, ?_, ?_, ?_, ?_, fun c s => exec_ftChannelFailure_fails, fun c b s => exec_staticLevelling_begins⟩
  · rintro k ws s p b v u rfl hb hlen hmedium hused hpowered hworks hkept hclean hu rfl
    exact exec_ftChunkRead_clean ⟨hmedium, hused, hpowered, hworks, hkept⟩ hlen hclean rfl hb hu
  · rintro failed s w rest r bad t u v hrows hpowered herased hbad rfl rfl hv
    exact exec_ftProgramDone_row hrows hpowered herased hbad hv
  · intro c b n s u hgrant herasing hu
    exact ⟨(exec_ftEraseDone_granted true hgrant herasing hu).trans (congrArg Host.Outcome.next (if_pos rfl)),
      (exec_ftEraseDone_granted false hgrant herasing hu).trans (congrArg Host.Outcome.next (if_neg Bool.false_ne_true))⟩
  · rintro c b r m n s u band hc hb hserves hgrant hdue hu rfl
    exact exec_ftScrub_due ⟨hc, hb, hserves, hgrant, hdue⟩ hu
  · exact fun c n old named new e s u => exec_blockRelocationDone_switches
  · intro s e rs t hmost hfew hgrant hread hrow hmay
    exact exec_compaction_empties ⟨hmost, hfew, hgrant, hread, hrow, hmay⟩

end Sys2Proof.Machine
end

section
/-! PROOFS. How Husk takes host commands (R250, R332, R336, R337): one law for every host command's row, and what the row
does where its command is not carried out; then the statement they settle. -/

namespace Sys2Proof.Machine

/-! ### The shape of a host command's row (R336, R337) -/

/-- Every host command's row is a command of its opcode on its ring, whatever its body. -/
theorem exec_of_hostOp {i : Instr} {op ring : Nat} (h : hostOp i = some (op, ring)) :
    ∃ body, ∀ s, exec i s = hostCommand op ring body s := by
  unfold hostOp at h
  split at h <;> cases h
  all_goals exact ⟨_, fun _ => rfl⟩

section
variable {op ring : Nat} {s : State} (hheld : startHeld op ring (rejectUndefined s) = none)
include hheld

/-- With no such command held or next, the row only answers the undefined opcodes (R337). -/
theorem hostCommand_not_next (body : Cmd → State → State) (htake : takeCmd op ring (rejectUndefined s) = none) :
    hostCommand op ring body s = .next (rejectUndefined s) := by
  simp only [hostCommand, hheld, htake]

/-- The command next in line is held while its group is busy (R250, log 102). -/
theorem hostCommand_waits {f : Fetched} {t : State} (body : Cmd → State → State)
    (htake : takeCmd op ring (rejectUndefined s) = some (f, t)) (hwaits : groupWaits t op = true) :
    hostCommand op ring body s = .next { t with host := { t.host with held := t.host.held ++ [f] } } := by
  simp only [hostCommand, hheld, htake, hwaits, if_true]

end

/-! ### Undefined opcodes (R336 order 1) -/

theorem rejectNext_undefined {s : State} {f : Fetched} (hnext : huskNext s = some f)
    (hop : opSpec (entryOpcode f.entry) = none) :
    rejectNext s = (cmdOf s f).done ST_BAD_OPCODE 0 (entryOpcode f.entry) (takeFetched f s) := by
  simp only [rejectNext, hnext, hop, Option.isSome_none, Bool.false_eq_true, if_false]

theorem rejectNext_defined {s : State} (h : ∀ f, huskNext s = some f → (opSpec (entryOpcode f.entry)).isSome = true) :
    rejectNext s = s := by
  rw [rejectNext]
  split
  next => rfl
  next f hnext => exact if_pos (h f hnext)

theorem iterate_of_fixed {α : Type} {f : α → α} {a : α} (h : f a = a) (n : Nat) : iterate f n a = a := by
  induction n with
  | zero => rfl
  | succ n ih => rw [iterate, h, ih]

/-! ### The statement settled -/

/-- Settles O4: each row by the shape that all rows share; a defined opcode next is where the rejections stop. -/
theorem hostCommandWaitsItsTurn : Obligations.HostCommandWaitsItsTurn := by
  refine ⟨?_, ?_, fun _ _ => rejectNext_undefined, fun s h => iterate_of_fixed (rejectNext_defined h) _⟩
  · intro i op ring s hi hheld htake
    obtain ⟨body, hexec⟩ := exec_of_hostOp hi
    rw [hexec, hostCommand_not_next hheld body htake]
  · intro i op ring s t f hi hheld htake hwaits
    obtain ⟨body, hexec⟩ := exec_of_hostOp hi
    rw [hexec, hostCommand_waits hheld body htake hwaits]

end Sys2Proof.Machine
end

section
/-! PROOFS. The hull and shell commands (R135, R141, R148, R155–R157, R253–R256, R343–R345) and the cyclic-schedule commands with
PRIORITY_SET (R260–R262, R354, R355): each accepted command by its law, then the statements they settle. -/

namespace Sys2Proof.Machine

section
variable {ring : Nat} {s t u : State} {c : Cmd} {un : Bool} {pkg : Nat}

/-! ### Hulls made, resized and destroyed (R253, R254, R256) -/

theorem exec_hullCreate_creates (h : ready 0x10 ring s c t) (hrefs : createRefs c t = none)
    (hpkg : pkg = hrefHandle (c.p 12 8))
    (hlook : look (frontRanges (pkgRead t pkg) pkg ++ [(hrefHandle (c.p 20 8), 0, 8 * c.p 28 4)]) t = (none, un, u))
    (hlist : createBad c u = none) : exec (.hullCreate ring) s =
    .next (commandEpoch t (advanceAll (createHull { c.run (.creating 0 0) with unwritten := un } pkg u))) := by
  subst hpkg
  rw [exec_hullCreate, execHullCreate, hostCommand_ready h]
  simp only [hrefs, hlook, hlist]

theorem exec_hullResize_resizes (h : ready 0x11 ring s c t) (hhull : hullBad t c.hull false false true = none)
    (hidle : (runOf t c.hull).isSome = false) (href : hrefBad t (c.p 12 8) 12 = none) (hpkg : pkg = hrefHandle (c.p 12 8))
    (hlook : look (frontRanges (pkgRead t pkg) pkg) t = (none, un, u)) : exec (.hullResize ring) s =
    .next (commandEpoch t (if pkGraph (pkgRead u pkg) = (u.hull c.hull).graph.toNat && !(u.hull c.hull).awaiting
      then startRelocation c c.hull (pkgRead u pkg) un u else startRepackaging c c.hull pkg un u)) := by
  subst hpkg
  rw [exec_hullResize, execHullResize, hostCommand_ready h]
  simp only [hhull, hidle, href, hlook, Bool.false_eq_true, if_false]
  rw [apply_ite (commandEpoch t)]

/-- A drain or restore of the hull that still runs ends first: it finds the hull gone (R256). -/
theorem exec_hullDestroy_destroys (h : ready 0x12 ring s c t) (hhull : hullBad t c.hull true true true = none)
    (hu : u = finishRuns (drainRun c.hull) ST_NO_SUCH_HULL 0 t) : exec (.hullDestroy ring) s =
    .next (commandEpoch t (advanceHull c.hull (discardHalted c.hull (beginHalt c.hull
      (startRun (c.run (.destroying c.hull)) (u.setHull c.hull { u.hull c.hull with destroying := true })))))) := by
  subst hu
  rw [exec_hullDestroy, execHullDestroy, hostCommand_ready h]
  simp only [hhull]

/-! ### Hulls saved and restored (R155, R157) -/

theorem exec_hullDrain_drains (h : ready 0x13 ring s c t) (hhull : hullBad t c.hull true true false = none)
    (hidle : (runOf t c.hull).isSome = false) : exec (.hullDrain ring) s =
    .next (advanceHull c.hull (beginHalt c.hull (startRun (c.run (.draining c.hull))
      (t.setHull c.hull { t.hull c.hull with drained := false })))) := by
  rw [exec_hullDrain, execHullDrain, hostCommand_ready h]
  simp only [hhull, hidle, Bool.false_eq_true, if_false]

theorem exec_hullRestore_begins (h : ready 0x14 ring s c t) (hhull : hullBad t c.hull false true false = none)
    (hdrained : (t.hull c.hull).drained = true) (hidle : (runOf t c.hull).isSome = false)
    (hhalted : (t.hull c.hull).pods.any (fun p => t.rd (POD_STATE p) ≠ POD_HALTED) = false)
    (hrecords : beginRestore c.hull (startRun (c.run (.restoring c.hull)) t) = .inr u) :
    exec (.hullRestore ring) s = .next u := by
  rw [exec_hullRestore, execHullRestore, hostCommand_ready h]
  simp only [hhull, hdrained, hidle, hhalted, hrecords, Bool.not_true, Bool.or_self, Bool.false_eq_true, if_false]

/-! ### Shells loaded and selected (R135, R141, R148) -/

/-- The slot that SHELL_LOAD names can be filled: no command runs on the hull, the slot is not busy, and package `pkg` is one
of the hull's graph, pod count and kind that has the configuration named (R135, R148, R345). -/
structure ShellFits (c : Cmd) (pkg : Nat) (u : State) : Prop where
  idle : (runOf u c.hull).isSome = false
  slotFree : slotBusy u c.hull (c.p 21 1) = false
  graph : pkGraph (pkgRead u pkg) = (u.hull c.hull).graph.toNat
  pods : pkPods (pkgRead u pkg) = (u.hull c.hull).pods.length
  multi : pkMulti (pkgRead u pkg) = (u.hull c.hull).multi
  config : c.p 20 1 < pkConfigs (pkgRead u pkg)

theorem exec_shellLoad_loads (h : ready 0x15 ring s c t) (hhull : hullBad t c.hull false false false = none)
    (href : hrefBad t (c.p 12 8) 12 = none) (hpkg : pkg = hrefHandle (c.p 12 8))
    (hlook : look [(pkg, 0, 64)] t = (none, un, u)) (hfits : ShellFits c pkg u) : exec (.shellLoad ring) s =
    .next (nextLoad c.hull (startRun { c.run (.loading c.hull (c.p 21 1) (c.p 20 1) pkg) with unwritten := un } u)) := by
  subst hpkg
  rw [exec_shellLoad, execShellLoad, hostCommand_ready h]
  simp only [hhull, href, hlook, hfits.idle, hfits.slotFree, hfits.graph, hfits.pods, hfits.multi,
    Nat.not_le.mpr hfits.config, ne_eq, not_true_eq_false, decide_false, Bool.or_self, Bool.false_eq_true, if_false]

/-- The shells of a hull may be switched to the slot that SHELL_SELECT names: its pods stand LOADED, nothing of it runs, its
active shells keep no channel, and every slot that the switch can reach is ready (R141, R345). -/
structure ShellsSwitchable (c : Cmd) (t : State) : Prop where
  loaded : (t.hull c.hull).pods.any (fun p => t.rd (POD_STATE p) ≠ POD_LOADED) = false
  idle : hullRuns t c.hull = false
  keepsNone : activePersists t c.hull = false
  slotsReady : (t.hull c.hull).pods.any
    (fun p => (reachableSlots t c.hull (c.p 12 1)).any (fun n => t.rd (SHL_SLOT p n) < 2)) = false

/-- A switch to `slot` is pending in every tile of the pods (R141). -/
def pendSwitch (pods : List Nat) (slot : Nat) (s : State) : State :=
  pods.foldl (fun s p => (List.range 160).foldl (fun s i =>
    s.setTile (p * 160 + i) { s.tile (p * 160 + i) with pend := some slot }) s) s

theorem exec_shellSelect_selects (h : ready 0x16 ring s c t) (hhull : hullBad t c.hull false false false = none)
    (hswitch : ShellsSwitchable c t) : exec (.shellSelect ring) s =
    .next (commandEpoch t (c.done ST_OK 0 (c.p 12 1) (pendSwitch (t.hull c.hull).pods (c.p 12 1)
      (t.setHull c.hull { t.hull c.hull with select := some (c.p 12 1) })))) := by
  rw [exec_shellSelect, execShellSelect, hostCommand_ready h]
  simp only [hhull, hswitch.loaded, hswitch.idle, hswitch.keepsNone, hswitch.slotsReady, Bool.or_self, Bool.false_eq_true,
    if_false, pendSwitch]

/-! ### The cyclic schedule and priorities (R260–R262, R355) -/

theorem exec_cycleTableWrite_reads (h : ready 0x40 ring s c t) (harm : armPending t = false) :
    exec (.cycleTableWrite ring) s = .next (dmaIn c.fn (c.p 24 8) (16 * c.p 14 2) (.command c.seqNo)
      (startRun (c.run (.cycleSource (c.p 12 2) (c.p 14 2) (c.p 16 1))) t)) := by
  rw [exec_cycleTableWrite, execCycleTableWrite, hostCommand_ready h]
  simp only [harm, Bool.false_eq_true, if_false]

/-- A valid shadow bank: the hulls that it introduces are pinned with their declared sets (R261, R262). -/
theorem exec_cycleTableArm_pins {hulls hs : List Nat} (h : ready 0x41 ring s c t) (harm : armPending t = false)
    (hvalid : shadowBad t = none)
    (hhulls : hulls = (namedOnly t (shadowBank t) (activeBank t)).filter (fun h => (t.hull h).pinned = []))
    (hhs : hs = (hulls.flatMap (declaredSet t)).eraseDups) (hpin : canPin hs t = true)
    (hu : u = hulls.foldl (fun s h => s.setHull h { s.hull h with pinned := declaredSet s h }) t) :
    exec (.cycleTableArm ring) s = .next (pumpCycle (c.run (.cyclePinning (c.p 16 8) hulls hs))
      (startRun (c.run (.cyclePinning (c.p 16 8) hulls hs)) u)) := by
  rw [exec_cycleTableArm, execCycleTableArm, hostCommand_ready h]
  simp only [harm, hvalid, ← hhulls, ← hhs, hpin, ← hu, Bool.not_true, Bool.false_eq_true, if_false]

theorem exec_prioritySet_sets (h : ready 0x42 ring s c t) : exec (.prioritySet ring) s =
    .next (c.done ST_OK 0 0 (t.setRingAux (c.p 12 2) { t.ringAux (c.p 12 2) with priority := c.p 14 1 })) := by
  rw [exec_prioritySet, execPrioritySet, hostCommand_ready h]

end

/-! ### The statements settled -/

/-- Settles O11: each accepted command by its law above. -/
theorem hullCommandsComplete : Obligations.HullCommandsComplete := by
  refine ⟨fun _ _ _ _ _ _ _ => exec_hullCreate_creates, fun _ _ _ _ _ _ _ => exec_hullResize_resizes,
    fun _ _ _ _ _ => exec_hullDestroy_destroys, fun _ _ _ _ => exec_hullDrain_drains,
    fun _ _ _ _ _ => exec_hullRestore_begins, ?_, ?_⟩
  · intro ring s c t u un pkg h hhull href hpkg hlook hidle hslot hgraph hpods hmulti hconfig
    exact exec_shellLoad_loads h hhull href hpkg hlook ⟨hidle, hslot, hgraph, hpods, hmulti, hconfig⟩
  · intro ring s c t h hhull hloaded hidle hpersists hready
    exact exec_shellSelect_selects h hhull ⟨hloaded, hidle, hpersists, hready⟩

/-- Settles O12: each accepted command by its law above. -/
theorem scheduleCommandsComplete : Obligations.ScheduleCommandsComplete :=
  ⟨fun _ _ _ _ => exec_cycleTableWrite_reads, fun _ _ _ _ _ _ _ => exec_cycleTableArm_pins,
    fun _ _ _ _ => exec_prioritySet_sets⟩

end Sys2Proof.Machine
end

section
/-! PROOFS. The request commands (R289, R301, R350, R351, R222): each accepted command by its law; the admission of a queued
request (R290) with the trace point that it fires (R453, R454); then the statements they settle. -/

namespace Sys2Proof.Machine

section
variable {ring i : Nat} {s t : State} {c : Cmd}

/-! ### RUN_GRAPH and GENERATE (R289, R350) -/

/-- A request that passes checks 1 to 4 of R289 enters at the free entry. -/
theorem submitRequest_enters (hadmit : admitBad c t = none) (hfree : freeEntry t = some i) :
    submitRequest c t = commandEpoch t (enterRequest c i t) := by
  simp only [submitRequest, hadmit, hfree]

theorem exec_runGraph_enters (h : ready 0x30 ring s c t) (hadmit : admitBad c t = none) (hfree : freeEntry t = some i) :
    exec (.runGraph ring) s = .next (commandEpoch t (enterRequest c i t)) := by
  rw [exec_runGraph, execRunGraph, hostCommand_ready h, submitRequest_enters hadmit hfree]

theorem exec_generate_enters (h : ready 0x31 ring s c t) (hadmit : admitBad c t = none) (hfree : freeEntry t = some i) :
    exec (.generate ring) s = .next (commandEpoch t (enterRequest c i t)) := by
  rw [exec_generate, execGenerate, hostCommand_ready h, submitRequest_enters hadmit hfree]

/-! ### CANCEL (R301, R351) -/

/-- A request that another device leads is not this device's to cancel (R276, log 115). -/
theorem exec_cancel_elsewhere (h : ready 0x32 ring s c t)
    (helse : t.srv.elsewhere.contains (c.p 12 2, c.p 14 2) = true) :
    exec (.cancel ring) s = .next (c.done ST_HULL_NOT_LEAD 0 0 t) := by
  rw [exec_cancel, execCancel, hostCommand_ready h]
  simp only [helse, if_true]

section
variable (h : ready 0x32 ring s c t) (hhere : t.srv.elsewhere.contains (c.p 12 2, c.p 14 2) = false)
  (hfind : findRequest t (c.p 12 2) (c.p 14 2) = some i) (hlive : isLive (t.request i) = true)
include h hhere hfind hlive

theorem exec_cancel_between_steps (hstep : inStep t i = false) : exec (.cancel ring) s =
    .next (commandEpoch t (formStep (t.request i).hull (admitAll (t.request i).hull
      (c.done ST_OK 0 0 (cancelRequest i t))))) := by
  rw [exec_cancel, execCancel, hostCommand_ready h]
  simp only [hhere, hfind, hlive, hstep, Bool.not_true, Bool.false_eq_true, if_false]

theorem exec_cancel_in_step (hstep : inStep t i = true) : exec (.cancel ring) s =
    .next (startRun (c.run (.cancelling i)) (t.setRequest i { t.request i with cancel := true })) := by
  rw [exec_cancel, execCancel, hostCommand_ready h]
  simp only [hhere, hfind, hlive, hstep, Bool.not_true, Bool.false_eq_true, if_false, if_true]

end

/-! ### FENCE (R222) -/

theorem exec_fence_runs (h : ready 0x33 ring s c t) : exec (.fence ring) s =
    .next (pumpFence (c.run (.fencing c.seqNo (c.p 12 1 = 1))) (startRun (c.run (.fencing c.seqNo (c.p 12 1 = 1))) t)) := by
  rw [exec_fence, execFence, hostCommand_ready h]

end

/-! ### Admission (R290) and its trace point (R453, R454) -/

/-- Request `i` is admitted with `n` bytes of its hull's N-tier pool and `d` of its D-tier pool (R290). -/
def reserveKv (h i n d : Nat) (s : State) : State :=
  (s.setHull h { s.hull h with kvNUsed := (s.hull h).kvNUsed + n, kvDUsed := (s.hull h).kvDUsed + d }).setRequest i
    { s.request i with state := REQ_ADMITTED, kvN := n, kvD := d }

/-- The oldest queued request of a live hull is admitted where its reservation fits, and the admission reaches a trace point
of the serving engine (log 216). -/
theorem exec_kvAdmission_admits {h i n d : Nat} {s : State} (hlive : (s.hull h).live = true)
    (hfault : (s.hull h).fault = none)
    (holdest : (hullRequests s h).find? (fun i => (s.request i).state = REQ_QUEUED) = some i)
    (hfit : kvFit s (s.hull h) (kvFootprint (s.hull h) (s.request i)) = some (n, d)) :
    exec (.kvAdmission h) s = .next (formStep h (requestTrace (s.request i) (reserveKv h i n d s))) := by
  simp only [exec_kvAdmission, execKvAdmission, admitOne, reserveKv, hlive, hfault, holdest, hfit, Option.isNone_none,
    Bool.and_self, if_true]

@[simp] theorem logGenerate_srv (kind id len : Nat) (body : BitVec 384) (s : State) :
    (logGenerate kind id len body s).srv = s.srv := by
  simp only [logGenerate]
  split <;> rfl

@[simp] theorem trace_srv (p : Nat) (args : List Nat) (s : State) : (trace p args s).srv = s.srv := by
  simp only [trace]
  split
  · split
    · rfl
    · rw [logGenerate_srv]
      rfl
  · rfl

@[simp] theorem requestTrace_srv (q : Request) (s : State) : (requestTrace q s).srv = s.srv := by
  simp only [requestTrace, traceIn]
  split
  · rfl
  · rw [trace_srv]
    rfl

theorem logGenerate_log_length {kind id len : Nat} {body : BitVec 384} {s : State} (hroom : s.obs.log.length < 256) :
    (logGenerate kind id len body s).obs.log.length = s.obs.log.length + 1 := by
  simp only [logGenerate, Nat.not_le.mpr hroom, if_false, List.length_append, List.length_singleton]

/-- TRACE entries can be written: their rate is below the limit, and Husk's buffer has room (R450, R453). -/
structure TraceRoom (s : State) : Prop where
  rate : s.obs.traceRate < 65536
  buffer : s.obs.log.length < 256

/-- An enabled trace point writes a TRACE entry (R453). -/
theorem trace_log_length {p : Nat} {args : List Nat} {s : State} (hon : s.rdB (TRC_ENABLE p) = true) (hroom : TraceRoom s) :
    (trace p args s).obs.log.length = s.obs.log.length + 1 := by
  have hrate : ¬ 65536 ≤ (s.addSat (TRC_COUNT p) 1).obs.traceRate := Nat.not_le.mpr hroom.rate
  simp only [trace, hon, hrate, if_true, if_false]
  exact logGenerate_log_length hroom.buffer

/-- With every point of the serving engine enabled, whichever the device takes writes a TRACE entry (R454, log 216). -/
theorem requestTrace_log_length {q : Request} {s : State} (hon : ∀ i < 64, s.rdB (TRC_ENABLE (640 + i)) = true)
    (hword : s.word (0x603000 + 4 * 20) ≠ 0) (hroom : TraceRoom s) :
    (requestTrace q s).obs.log.length = s.obs.log.length + 1 := by
  have hsome : ¬ ((List.range 2).all (fun i => s.word (0x603000 + 4 * (20 + i)) = 0)) = true := fun hzero =>
    hword (of_decide_eq_true (List.all_eq_true.mp hzero 0 (by decide)))
  rw [requestTrace, traceIn, if_neg hsome]
  exact trace_log_length (s := s.fresh.2) (hon _ (Nat.mod_lt _ (by decide))) ⟨hroom.rate, hroom.buffer⟩

/-- A hull that is to halt forms no step (R277). -/
theorem formStep_of_stopping {h : Nat} {s : State} (hstop : (s.hull h).stopping = true) : formStep h s = s := by
  simp only [formStep, canForm, hstop, Bool.not_true, Bool.and_false, Bool.false_and, Bool.not_false, if_true]

/-- Hull 0 is to halt at its next boundary, its request 0 is QUEUED and needs no KV space, and TRACE_MASK has enabled the
serving engine's trace points 640 to 703. -/
def tracedQueue : State :=
  (((State.reset.setHull 0 { live := true, pods := [0], stopping := true }).setRequest 0
    { used := true, state := REQ_QUEUED }).wr32 (0x603000 + 4 * 20) 0xFFFFFFFF).wr32 (0x603000 + 4 * 21) 0xFFFFFFFF

theorem tracedQueue_admissible : (tracedQueue.hull 0).live = true ∧ (tracedQueue.hull 0).fault = none ∧
    (hullRequests tracedQueue 0).find? (fun i => (tracedQueue.request i).state = REQ_QUEUED) = some 0 ∧
    kvFit tracedQueue (tracedQueue.hull 0) (kvFootprint (tracedQueue.hull 0) (tracedQueue.request 0)) = some (0, 0) := by
  decide +kernel

/-- The state that O41's clause names for the admission of `tracedQueue`'s request. -/
def untracedAdmission : State := reserveKv 0 0 0 0 tracedQueue

theorem untracedAdmission_stopping : (untracedAdmission.hull 0).stopping = true := by decide +kernel

theorem untracedAdmission_log : untracedAdmission.obs.log = [] := rfl

theorem untracedAdmission_traced (q : Request) : (requestTrace q untracedAdmission).obs.log.length = 1 :=
  requestTrace_log_length (by decide +kernel) (by decide +kernel) ⟨by decide +kernel, by decide +kernel⟩

/-! ### The statements settled -/

/-- Settles O10: each accepted command by its law above. -/
theorem requestCommandsComplete : Obligations.RequestCommandsComplete :=
  ⟨fun _ _ _ _ _ => exec_runGraph_enters, fun _ _ _ _ _ => exec_generate_enters,
    fun _ _ _ _ _ => exec_cancel_between_steps, fun _ _ _ _ _ => exec_cancel_in_step,
    fun _ _ _ _ => exec_cancel_elsewhere, fun _ _ _ _ => exec_fence_runs⟩

/-- Refutes O41: its clause on KV_ADMISSION leaves out the trace point that the admission fires (R453, R454, log 216). Where
the serving engine's points are enabled, the state after it holds a TRACE entry, and the state that the clause names does
not. -/
theorem not_stepEventsComplete : ¬ Obligations.StepEventsComplete := by
  rintro ⟨-, -, -, -, -, hadmission, -⟩
  obtain ⟨hlive, hfault, holdest, hfit⟩ := tracedQueue_admissible
  have hstop := untracedAdmission_stopping
  have htracedStop : ((requestTrace (tracedQueue.request 0) untracedAdmission).hull 0).stopping = true := by
    rw [State.hull, requestTrace_srv]
    exact hstop
  have hmodel : exec (.kvAdmission 0) tracedQueue = .next (requestTrace (tracedQueue.request 0) untracedAdmission) := by
    rw [exec_kvAdmission_admits hlive hfault holdest hfit, ← untracedAdmission, formStep_of_stopping htracedStop]
  have hstated : exec (.kvAdmission 0) tracedQueue = .next (formStep 0 untracedAdmission) :=
    hadmission 0 tracedQueue 0 0 0 hlive hfault holdest hfit
  rw [hmodel, formStep_of_stopping hstop] at hstated
  have hlogged := untracedAdmission_traced (tracedQueue.request 0)
  rw [Host.Outcome.next.inj hstated, untracedAdmission_log] at hlogged
  exact absurd hlogged (by decide)

end Sys2Proof.Machine
end

section
/-! PROOFS. The order of commands and of what leaves the block (R398; log entries 7, 8, 222), and what the data of a host read
does when it returns (R305, R335, R353). -/

namespace Sys2Proof.Machine

/-! ### The return of a host read (R305, R335, R353) -/

section
variable {s t : State} {d : DmaRead} {x : Running} {tag n h req row rows : Nat}
  (hread : s.host.dma.find? (fun d => d.tag = tag && d.issued) = some d)
include hread

section
variable {b : List Byte} (hfits : b.length = d.piece)
include hfits

theorem exec_hostDmaCompletion_next_piece (hmore : d.got.length + b.length < d.len) :
    exec (.hostDmaCompletion tag (.data b)) s = .next (nextPiece d b s) := by
  simp only [exec_hostDmaCompletion, execHostDmaCompletion, hread, decide_eq_true hfits, decide_eq_true hmore,
    Bool.not_true, Bool.false_eq_true, if_false, if_true]

variable (hlast : d.len ≤ d.got.length + b.length) (ht : t = dropReads (fun d => d.tag = tag) s)
include hlast ht

theorem exec_hostDmaCompletion_command (huse : d.use = .command n) (hrun : findRun t (fun x => x.seqNo = n) = some x) :
    exec (.hostDmaCompletion tag (.data b)) s = .next (advanceAll (pumpFences (arriveCommand x (d.got ++ b) t))) := by
  simp only [exec_hostDmaCompletion, execHostDmaCompletion, hread, decide_eq_true hfits,
    decide_eq_false (Nat.not_lt.mpr hlast), ← ht, huse, hrun, Bool.not_true, Bool.false_eq_true, if_false]

theorem exec_hostDmaCompletion_staging (huse : d.use = .staging h req row rows) :
    exec (.hostDmaCompletion tag (.data b)) s =
      .next (advanceAll (pumpFences (stagedOne h (stageData h req row rows (d.got ++ b) t)))) := by
  simp only [exec_hostDmaCompletion, execHostDmaCompletion, hread, decide_eq_true hfits,
    decide_eq_false (Nat.not_lt.mpr hlast), ← ht, huse, Bool.not_true, Bool.false_eq_true, if_false]

end

section
variable {a : Nat} (ht : t = dropReads (fun d => d.tag = tag) s)
include ht

theorem exec_hostDmaCompletion_command_failed (huse : d.use = .command n)
    (hrun : findRun t (fun x => x.seqNo = n) = some x) :
    exec (.hostDmaCompletion tag (.failed a)) s =
      .next (advanceAll (pumpFences (failCommand x a d.got.length t))) := by
  simp only [exec_hostDmaCompletion, execHostDmaCompletion, hread, ← ht, huse, hrun, Bool.not_true, Bool.false_eq_true,
    if_false]

theorem exec_hostDmaCompletion_staging_failed (huse : d.use = .staging h req row rows) :
    exec (.hostDmaCompletion tag (.failed a)) s = .next (advanceAll (pumpFences (dropStaged h req a d.fn t))) := by
  simp only [exec_hostDmaCompletion, execHostDmaCompletion, hread, ← ht, huse, Bool.not_true, Bool.false_eq_true, if_false]

end

end

/-! ### The statements settled -/

/-- Settles O59: of what every step keeps (`step_of_exec`), the part about the queue, what has left and the counts. -/
theorem stepKeepsOrder : Obligations.StepKeepsOrder := by
  intro s t hstep
  obtain ⟨hpending, hout, hfree, _, hcounter⟩ :=
    step_of_exec (fun _ _ _ hne h => Keeps.exec_next hne h) (fun _ _ h => Keeps.powerGood_next h) hstep
  exact ⟨hpending, hout, hfree, hcounter⟩

/-- Settles O21: a piece that is not the last, the last one and a failed one, for a command and for a step, each by its law. -/
theorem dmaCompletionCompletes : Obligations.DmaCompletionCompletes := by
  refine ⟨?_, ?_, ?_, ?_, ?_⟩
  · exact fun s t d x n tag b hread hfits hlast huse ht hrun => exec_hostDmaCompletion_command hread hfits hlast ht huse hrun
  · exact fun s d tag b hread hfits hmore => exec_hostDmaCompletion_next_piece hread hfits hmore
  · exact fun s t d x n tag a hread huse ht hrun => exec_hostDmaCompletion_command_failed hread ht huse hrun
  · exact fun s t d h req row rows tag b hread hfits hlast huse ht =>
      exec_hostDmaCompletion_staging hread hfits hlast ht huse
  · exact fun s t d h req row rows tag a hread huse ht => exec_hostDmaCompletion_staging_failed hread ht huse

end Sys2Proof.Machine
end

section
/-! PROOFS. The registers with rows of their own (R228, R247, R320, R330, R371), doorbells (R315), ring switches and fetches
(R313, R314, R316), the coalescing timer (R320) and completion entries (R318, R319, R338). -/

namespace Sys2Proof.Machine

/-! ### The counter and install registers, vectors (R320, R330, R371) -/

section
variable {fn : Nat} {s : State} (hlink : linkLive s = true)
include hlink

theorem exec_devCtrSelWrite_selects (v : Word) :
    exec (.devCtrSelWrite fn v) s = .next (latchCounter fn { s with host := { s.host with
      ctrSel := tput s.host.ctrSel fn (BitVec.ofNat 32 (bits v.toNat 0 29)) 0#32 } }) := by
  rw [exec_devCtrSelWrite, execDevCtrSelWrite, overPcie_live hlink, selectCounter]

/-- A clear acts where the latched selection is valid; an event of that cycle counts after it. -/
theorem exec_counterClear_valid (sameCycle : Bool) (hvalid : bit (tget s.host.ctrVal fn 0#32).toNat 31 = true) :
    exec (.counterClear fn sameCycle) s = .next (latchCounter fn
      (if sameCycle then (s.setCompanion (ctrOff s fn) (ctrBit s fn) 0).raise (ctrOff s fn) (ctrBit s fn)
       else s.setCompanion (ctrOff s fn) (ctrBit s fn) 0)) := by
  rw [exec_counterClear, execCounterClear, overPcie_live hlink, clearCounter, hvalid]
  rfl

theorem exec_counterClearAll_pf :
    exec (.counterClearAll 0) s = .next { s with host := { s.host with companion := [] } } := by
  rw [exec_counterClearAll, execCounterClearAll, overPcie_live hlink]
  rfl

theorem exec_heatLookupWrite_pf (v : Word) : exec (.heatLookupWrite 0 v) s = .next (heatLookup v s) := by
  rw [exec_heatLookupWrite, execHeatLookupWrite, overPcie_live hlink]
  rfl

theorem exec_ftBlkSelWrite_pf (v : Word) : exec (.ftBlkSelWrite 0 v) s = .next (selectBlock v s) := by
  rw [exec_ftBlkSelWrite, execFtBlkSelWrite, overPcie_live hlink]
  rfl

end

theorem bit_setBits_one (v : Word) {i : Nat} (hi : i < 32) :
    bit (BitVec.ofNat 32 (setBits v.toNat i 1 1)).toNat i = true := by
  rw [bit_eq_testBit, BitVec.toNat_ofNat, Nat.testBit_mod_two_pow, testBit_setBits]
  simp [hi]

theorem exec_fabInstallCommit_installs {s : State} (v : Word) (hlink : linkLive s = true)
    (hstate : s.rd LC_STATE = 1 ∨ s.rd LC_STATE = 3) : exec (.fabInstallCommit 0 v) s =
    .next (commitInstall (s.swWrite FAB_INSTALL (BitVec.ofNat 32 (setBits v.toNat 6 1 1)) [])) := by
  have hmay : (decide (s.rd LC_STATE ≠ 1) && decide (s.rd LC_STATE ≠ 3)) = false := by
    rcases hstate with h | h <;> simp [h]
  simp only [exec_fabInstallCommit, execFabInstallCommit, overPcie_live hlink, installWrite, hmay,
    bit_setBits_one v (by decide : 6 < 32), ne_eq, not_true_eq_false, Bool.false_eq_true, if_false, if_true]

/-- The flag's counter after a clear that an event of the same cycle follows (R330). -/
theorem companionOf_clear_raise (s : State) (off b : Nat) :
    (((s.setCompanion off b 0).raise off b).companionOf off b).toNat = 1 := by
  rw [companionOf_raise_same, State.setCompanion, State.companionOf, tget_tput_same]
  rfl

theorem latchCounter_value {fn n : Nat} {s : State} (hvalid : ctrValid s fn = true)
    (hn : (s.companionOf (ctrOff s fn) (ctrBit s fn)).toNat = n) :
    (tget (latchCounter fn s).host.ctrVal fn 0#32).toNat = 2 ^ 31 + n := by
  have hbound : n < 2 ^ 16 := hn ▸ BitVec.isLt _
  simp only [latchCounter, hvalid, hn, if_true, tget_tput_same, BitVec.toNat_ofNat]
  omega

/-- The control word of vector `n` is the fourth of its entry, and only its MASK bit is held. -/
theorem msixWrite_control (fn n : Nat) (v : Word) (s : State) : msixWrite fn (0x8000 + 16 * n + 12) v s =
    sendPending fn n { s with host := { s.host with msix := tput s.host.msix (fn * 8192 + n * 4 + 3) (v &&& 1#32) 1 } } := by
  have hentry : (0x8000 + 16 * n + 12 - 0x8000) / 16 = n := by omega
  have hword : (0x8000 + 16 * n + 12) / 4 % 4 = 3 := by omega
  simp only [msixWrite, hentry, hword, if_true]

theorem exec_msixVectorUnmask_sends {fn n : Nat} {s : State} (hlink : linkLive s = true) (hn : n < 2048) :
    exec (.msixVectorUnmask fn n) s = .next
      (sendPending fn n { s with host := { s.host with msix := tput s.host.msix (fn * 8192 + n * 4 + 3) 0#32 1 } }) := by
  rw [exec_msixVectorUnmask, execMsixVectorUnmask, overPcie_live hlink, if_neg (Nat.not_le.mpr hn), msixWrite_control,
    BitVec.zero_and]

/-! ### Doorbells (R315) -/

section
variable {fn ring off w : Nat} {v : Word} {s : State}

theorem exec_bell {i : Instr} {a : BellAccess} (hi : i = .sqDoorbell fn ring off a ∨ i = .cqDoorbell fn ring off a)
    (hlink : linkLive s = true) : exec i s = .next (bellPage fn ring off a s) := by
  rcases hi with rfl | rfl
  · rw [exec_sqDoorbell, execSqDoorbell, overPcie_live hlink]
  · rw [exec_cqDoorbell, execCqDoorbell, overPcie_live hlink]

variable (hring : ring < 4096)
include hring

theorem bellPage_read : bellPage fn ring off (.read w) s = s.emit (.readData fn (ring * 0x1000 + off) 0) := by
  rw [bellPage, if_neg (Nat.not_le.mpr hring)]

theorem bellPage_sq (hok : doorbellOk s fn ring w = true) :
    bellPage fn ring 0 (.write w v) s = sqBell ring (bits v.toNat 0 17) s := by
  simp only [bellPage, Nat.not_le.mpr hring, hok, Bool.not_true, Bool.false_eq_true, if_false, if_true]

theorem bellPage_cq (hok : doorbellOk s fn ring w = true) :
    bellPage fn ring 4 (.write w v) s = cqBell ring (bits v.toNat 0 17) s := by
  simp only [bellPage, Nat.not_le.mpr hring, hok, Bool.not_true, Bool.false_eq_true, if_false, if_true]
  rfl

theorem bellPage_discards (hbad : (off ≠ 0 ∧ off ≠ 4) ∨ doorbellOk s fn ring w = false) :
    bellPage fn ring off (.write w v) s = badDoorbell fn ring w off s := by
  rcases hbad with ⟨h0, h4⟩ | hok
  · simp only [bellPage, Nat.not_le.mpr hring, h0, h4, if_false, ite_self]
  · simp only [bellPage, Nat.not_le.mpr hring, hok, Bool.not_false, if_false, if_true]

end

section
variable {ring x n d e : Nat} {s : State} (hn : n = ringSize s ring)
include hn

theorem sqBell_too_large (hx : 2 * n ≤ x) : sqBell ring x s = s.raise (RING_STATUS ring) 4 := by
  simp only [sqBell, ← hn, hx, if_true]

theorem cqBell_too_large (hx : 2 * n ≤ x) : cqBell ring x s = s.raise (RING_STATUS ring) 5 := by
  simp only [cqBell, ← hn, hx, if_true]

variable (hx : x < 2 * n)
include hx

section
variable (hd : d = (x + 2 * n - s.rd (RING_SQ_TAIL ring)) % (2 * n))
include hd

theorem sqBell_behind (h : d = 0 ∨ n < d) : sqBell ring x s = s := by
  have hback : (decide (d = 0) || decide (n < d)) = true := by simpa using h
  simp only [sqBell, ← hn, ← hd, Nat.not_le.mpr hx, hback, if_false, if_true]

variable (he : e = (x + 2 * n - s.rd (RING_SQ_HEAD ring)) % (2 * n)) (h0 : d ≠ 0) (hle : d ≤ n)
include he h0 hle

/-- A value ahead of the tail moves it, as far as the queue's entries reach. -/
theorem sqBell_ahead : sqBell ring x s =
    if e ≤ n then s.wr (RING_SQ_TAIL ring) x else s.raise (RING_STATUS ring) 4 := by
  have hahead : (decide (d = 0) || decide (n < d)) = false := by simp [h0, hle]
  simp only [sqBell, ← hn, ← hd, ← he, Nat.not_le.mpr hx, hahead, Bool.false_eq_true, if_false]

end

/-- A value of the CQ doorbell moves the head up to the tail; one behind the head is ignored. -/
theorem cqBell_in_range (hd : d = (x + 2 * n - s.rd (RING_CQ_HEAD ring)) % (2 * n))
    (he : e = (s.rd (RING_CQ_TAIL ring) + 2 * n - s.rd (RING_CQ_HEAD ring)) % (2 * n)) : cqBell ring x s =
    if d ≤ e then s.wr (RING_CQ_HEAD ring) x else if n < d then s else s.raise (RING_STATUS ring) 5 := by
  simp only [cqBell, ← hn, ← hd, ← he, Nat.not_le.mpr hx, if_false]

end

/-! ### Ring switches (R313, R314) -/

/-- A ring's word is none of the other registers that BAR0 gives a behaviour of their own. -/
theorem barWrite_ring {fn off : Nat} {s : State} (v : Word) (hlo : 0x100000 ≤ off) (hhi : off < 0x140000)
    (hv : visible s fn off = true) : barWrite fn off v s = ringWrite fn off v s := by
  have hring : isRing off = true := by simp [isRing, inRange, hlo, hhi]
  have hpod : isPodWindow off = false := by simp [isPodWindow, inRange]; omega
  have hmsix : isMsix off = false := by simp [isMsix, inRange]; omega
  have hchan : isChan off = false := by simp [isChan, inRange]; omega
  have hsel : off ≠ 0x40 := by omega
  have hval : off ≠ 0x44 := by omega
  have hctrl : off ≠ 0x48 := by omega
  have hcxl : off ≠ DEV_CXL_WINDOW := by rw [DEV_CXL_WINDOW]; omega
  simp only [barWrite, hv, hpod, hmsix, hchan, hring, hsel, hval, hctrl, hcxl, Bool.not_true, Bool.or_self,
    Bool.false_and, Bool.false_eq_true, if_false, if_true]

theorem ringCfg_eq (ring : Nat) : RING_CFG ring = 0x100000 + ring * 0x40 + 0x18 := rfl

theorem ringSwitch_cfg {fn ring : Nat} {s : State} (en : Bool) (v : Word) (hring : ring < 4096)
    (hv : visible s fn (RING_CFG ring) = true) :
    ringSwitch fn ring en v s = ringCfgWrite ring (BitVec.ofNat 32 (setBits v.toNat 8 1 (b2n en))) s := by
  have hnumber : ringOf (RING_CFG ring) = ring := by rw [ringOf, ringCfg_eq]; omega
  have hword : RING_CFG ring % 0x40 = 0x18 := by rw [ringCfg_eq]; omega
  rw [ringSwitch, if_neg (Nat.not_le.mpr hring), barWrite_ring _ (by rw [ringCfg_eq]; omega) (by rw [ringCfg_eq]; omega) hv,
    ringWrite]
  simp only [hnumber, hword, if_true]

/-- A write of RING_CFG that starts the ring: it is disabled and quiescent, its size and its bases are valid (R313). -/
structure Starts (s : State) (ring : Nat) (x : Word) : Prop where
  disabled : s.rdB (RING_ENABLE ring) = false
  quiescent : s.rdB (RING_QUIESCENT ring) = true
  size_ge : 4 ≤ bits x.toNat 0 5
  size_le : bits x.toNat 0 5 ≤ 16
  enables : bit x.toNat 8 = true
  sqBase : s.rd64 (RING_SQ_BASE ring) % 4096 = 0
  cqBase : s.rd64 (RING_CQ_BASE ring) % 4096 = 0

theorem ringCfgWrite_starts {s : State} {ring : Nat} {x : Word} (h : Starts s ring x) : ringCfgWrite ring x s =
    recheckInterrupt ring (startRing ring (s.swWrite (RING_CFG ring) x [])) := by
  simp only [ringCfgWrite, ringLocked, h.disabled, h.quiescent, h.size_ge, h.size_le, h.enables, h.sqBase, h.cqBase,
    Bool.not_true, Bool.not_false, Bool.or_self, Bool.and_false, Bool.and_self, decide_true, Bool.false_eq_true, if_false,
    if_true]

theorem ringCfgWrite_disables {s : State} {ring : Nat} {x : Word} (hsize : bits x.toNat 0 5 = s.rd (RING_SIZE ring))
    (hoff : bit x.toNat 8 = false) : ringCfgWrite ring x s =
    recheckInterrupt ring ((s.swWrite (RING_CFG ring) x []).wrB (RING_ENABLED ring) false) := by
  simp only [ringCfgWrite, hsize, hoff, ne_eq, not_true_eq_false, decide_false, Bool.false_and, Bool.false_eq_true, if_false]

theorem exec_ringEnable_starts {fn ring : Nat} {v x : Word} {s : State} (hlink : linkLive s = true) (hring : ring < 4096)
    (hv : visible s fn (RING_CFG ring) = true) (hx : x = BitVec.ofNat 32 (setBits v.toNat 8 1 1)) (h : Starts s ring x) :
    exec (.ringEnable fn ring v) s =
      .next (recheckInterrupt ring (startRing ring (s.swWrite (RING_CFG ring) x []))) := by
  rw [exec_ringEnable, execRingEnable, overPcie_live hlink, ringSwitch_cfg true v hring hv, ← ringCfgWrite_starts h, hx]
  rfl

theorem exec_ringDisable_stops {fn ring : Nat} {v x : Word} {s : State} (hlink : linkLive s = true) (hring : ring < 4096)
    (hv : visible s fn (RING_CFG ring) = true) (hx : x = BitVec.ofNat 32 (setBits v.toNat 8 1 0))
    (hsize : bits x.toNat 0 5 = s.rd (RING_SIZE ring)) (hoff : bit x.toNat 8 = false) :
    exec (.ringDisable fn ring v) s =
      .next (recheckInterrupt ring ((s.swWrite (RING_CFG ring) x []).wrB (RING_ENABLED ring) false)) := by
  rw [exec_ringDisable, execRingDisable, overPcie_live hlink, ringSwitch_cfg false v hring hv,
    ← ringCfgWrite_disables hsize hoff, hx]
  rfl

/-! ### Fetches and the coalescing timer (R316, R320) -/

/-- The ring's turn of the round-robin has come, with entries to read, and Husk fetches (R316, R401). -/
structure FetchesNow (s : State) (ring : Nat) : Prop where
  number : ring < 4096
  started : s.rdB BOOT_READY = true ∨ s.boot.recovery = true
  waiting : fetchable s ring ≠ 0
  turn : fetchTurn s ring = true

theorem FetchesNow.not_idle {s : State} {ring : Nat} (h : FetchesNow s ring) :
    (decide (4096 ≤ ring) || !(s.rdB BOOT_READY || s.boot.recovery) || decide (fetchable s ring = 0)
      || !fetchTurn s ring) = false := by
  have hstarted : (s.rdB BOOT_READY || s.boot.recovery) = true := (Bool.or_eq_true _ _).mpr h.started
  simp [h.number, hstarted, h.waiting, h.turn]

theorem exec_sqFetch_failed {s : State} {ring : Nat} (h : FetchesNow s ring) :
    exec (.sqFetch ring .failed) s = .next (fetchFails ring s) := by
  simp only [exec_sqFetch, execSqFetch, h.not_idle, Bool.false_eq_true, if_false]

theorem exec_sqFetch_entries {s : State} {ring : Nat} {es : List (BitVec 512)} (h : FetchesNow s ring) (hes : es ≠ [])
    (hfit : es.length ≤ fetchable s ring) :
    exec (.sqFetch ring (.entries es)) s = .next (rejectUndefined (acceptEntries ring es s)) := by
  have htake : (decide (es = []) || decide (fetchable s ring < es.length)) = false := by simp [hes, hfit]
  simp only [exec_sqFetch, execSqFetch, h.not_idle, htake, Bool.false_eq_true, if_false]

theorem exec_interruptCoalesceTimeout_signals {s : State} {ring : Nat} (htimer : (s.ringAux ring).coalTimer = true)
    (htime : s.rd (RING_COAL_TIME ring) ≠ 0) (hint : s.rdB (RING_INT_EN ring) = true) :
    exec (.interruptCoalesceTimeout ring) s =
      .next (signalVector (s.rd (RING_OWNER ring)) (s.rd (RING_VECTOR ring)) s) := by
  simp only [exec_interruptCoalesceTimeout, execInterruptCoalesceTimeout, htimer, htime, hint, ne_eq, not_false_eq_true,
    decide_true, Bool.and_self, if_true]

/-! ### Completion entries (R318, R319, R338) -/

@[simp] theorem logGenerate_boot (kind id len : Nat) (body : BitVec 384) (s : State) :
    (logGenerate kind id len body s).boot = s.boot := by
  simp only [logGenerate]
  split <;> rfl

@[simp] theorem trace_boot (p : Nat) (args : List Nat) (s : State) : (trace p args s).boot = s.boot := by
  simp only [trace]
  split
  · split
    · rfl
    · rw [logGenerate_boot]
      rfl
  · rfl

theorem done_eq_writeCompletion (c : Cmd) (st p d : Nat) {s : State} (hmute : s.boot.mute = false) : c.done st p d s =
    writeCompletion c.ring (entryNoInt c.e) (completionRaw st (entrySeq c.e) (entryTag c.e) p s.counter.toNat d)
      (trace (320 + entryOpcode c.e) [c.ring, entrySeq c.e, st, p] s) := by
  simp only [Cmd.done, complete, completeAt, trace_boot, hmute, Bool.false_eq_true, if_false]

theorem rdB_wrB_same (s : State) (f : Fld) (b : Bool) (hf : f.lo + f.w ≤ 32) (hw : f.w ≠ 0) : (s.wrB f b).rdB f = b := by
  have hpow : 1 < 2 ^ f.w := Nat.one_lt_two_pow hw
  rw [State.rdB, State.wrB, rd_wr_same _ _ _ hf]
  cases b
  · simp [b2n]
  · simp [b2n, Nat.mod_eq_of_lt hpow]

/-- The completion in slot `k` mod N, with the PHASE of its pass, and the count of the completions that the ring has had. -/
def enterCompletion (ring : Nat) (raw : Bool → BitVec 256) (s : State) : State :=
  let k := (s.ringAux ring).written
  let slot := k % ringSize s ring
  (s.emit (.completion (s.rd (RING_OWNER ring)) ring slot (s.rd64 (RING_CQ_BASE ring) + 32 * slot)
    (raw (decide (k / ringSize s ring % 2 = 0))))).setRingAux ring { s.ringAux ring with written := k + 1 }

/-- What a completion does to the ring's registers: CQ_TAIL moves on, INFLIGHT falls, QUIESCENT follows it. -/
def countCompletion (ring : Nat) (s : State) : State :=
  let s := s.wr (RING_CQ_TAIL ring) ((s.rd (RING_CQ_TAIL ring) + 1) % (2 * ringSize s ring))
  let s := s.wr (RING_INFLIGHT ring) (s.rd (RING_INFLIGHT ring) - 1)
  s.wrB (RING_QUIESCENT ring) (s.rd (RING_INFLIGHT ring) = 0)

theorem writeCompletion_true (ring : Nat) (raw : Bool → BitVec 256) (s : State) :
    writeCompletion ring true raw s = countCompletion ring (enterCompletion ring raw s) := rfl

theorem writeCompletion_false (ring : Nat) (raw : Bool → BitVec 256) (s : State) :
    writeCompletion ring false raw s = coalesce ring (writeCompletion ring true raw s) := rfl

theorem enterCompletion_out (ring : Nat) (raw : Bool → BitVec 256) (s : State) : (enterCompletion ring raw s).out =
    s.out ++ [.completion (s.rd (RING_OWNER ring)) ring ((s.ringAux ring).written % ringSize s ring)
      (s.rd64 (RING_CQ_BASE ring) + 32 * ((s.ringAux ring).written % ringSize s ring))
      (raw (decide (1 - (s.ringAux ring).written / ringSize s ring % 2 = 1)))] := by
  have hphase : decide ((s.ringAux ring).written / ringSize s ring % 2 = 0) =
      decide (1 - (s.ringAux ring).written / ringSize s ring % 2 = 1) := decide_eq_decide.mpr (by omega)
  rw [enterCompletion, hphase]
  rfl

/-- The completion that leaves changes no register. -/
theorem enterCompletion_rd (ring : Nat) (raw : Bool → BitVec 256) (s : State) (f : Fld) :
    (enterCompletion ring raw s).rd f = s.rd f := by
  simp only [enterCompletion, State.setRingAux, State.emit, State.rd, State.rd32, State.word]

theorem countCompletion_out (ring : Nat) (s : State) : (countCompletion ring s).out = s.out := by
  rw [countCompletion, wrB_out, wr_out, wr_out]

theorem countCompletion_ringAux (ring : Nat) (s : State) : (countCompletion ring s).ringAux ring = s.ringAux ring := by
  rw [countCompletion, State.ringAux, wrB_host, wr_host, wr_host, State.ringAux]

theorem enterCompletion_written (ring : Nat) (raw : Bool → BitVec 256) (s : State) :
    ((enterCompletion ring raw s).ringAux ring).written = (s.ringAux ring).written + 1 := by
  rw [enterCompletion, State.setRingAux, State.ringAux, tget_tput_same]

theorem countCompletion_cqTail (ring : Nat) (s : State) : (countCompletion ring s).rd (RING_CQ_TAIL ring) =
    (s.rd (RING_CQ_TAIL ring) + 1) % (2 * ringSize s ring) % 2 ^ 17 := by
  have hinflight : (RING_CQ_TAIL ring).off ≠ (RING_INFLIGHT ring).off := by simp [RING_CQ_TAIL, RING_INFLIGHT]
  have hquiescent : (RING_CQ_TAIL ring).off ≠ (RING_QUIESCENT ring).off := by simp [RING_CQ_TAIL, RING_QUIESCENT]
  have hfits : (RING_CQ_TAIL ring).lo + (RING_CQ_TAIL ring).w ≤ 32 := by simp [RING_CQ_TAIL]
  rw [countCompletion, State.wrB, rd_wr_disjoint _ _ _ _ hfits (.inl hquiescent),
    rd_wr_disjoint _ _ _ _ hfits (.inl hinflight), rd_wr_same _ _ _ hfits]
  rfl

theorem countCompletion_inflight (ring : Nat) (s : State) :
    (countCompletion ring s).rd (RING_INFLIGHT ring) = s.rd (RING_INFLIGHT ring) - 1 := by
  have hcqTail : (RING_INFLIGHT ring).off ≠ (RING_CQ_TAIL ring).off := by simp [RING_CQ_TAIL, RING_INFLIGHT]
  have hquiescent : (RING_INFLIGHT ring).off ≠ (RING_QUIESCENT ring).off := by simp [RING_INFLIGHT, RING_QUIESCENT]
  have hfits : (RING_INFLIGHT ring).lo + (RING_INFLIGHT ring).w ≤ 32 := by simp [RING_INFLIGHT]
  have hlt : s.rd (RING_INFLIGHT ring) - 1 < 2 ^ (RING_INFLIGHT ring).w := Nat.lt_of_le_of_lt (Nat.sub_le _ _) (rd_lt _ _)
  rw [countCompletion, State.wrB, rd_wr_disjoint _ _ _ _ hfits (.inl hquiescent), rd_wr_same _ _ _ hfits,
    rd_wr_disjoint _ _ _ _ hfits (.inl hcqTail), Nat.mod_eq_of_lt hlt]

theorem countCompletion_quiescent (ring : Nat) (s : State) : (countCompletion ring s).rdB (RING_QUIESCENT ring) =
    decide ((countCompletion ring s).rd (RING_INFLIGHT ring) = 0) := by
  have hquiescent : (RING_INFLIGHT ring).off ≠ (RING_QUIESCENT ring).off := by simp [RING_INFLIGHT, RING_QUIESCENT]
  have hfits : (RING_INFLIGHT ring).lo + (RING_INFLIGHT ring).w ≤ 32 := by simp [RING_INFLIGHT]
  rw [countCompletion, rdB_wrB_same _ _ _ (by simp [RING_QUIESCENT]) (by simp [RING_QUIESCENT]), State.wrB,
    rd_wr_disjoint _ _ _ _ hfits (.inl hquiescent)]

/-- The value of a field added at its bytes. -/
def packField (acc : Nat) (f : Nat × Nat × Nat) : Nat := acc + f.2.2 % 2 ^ (8 * f.2.1) * 2 ^ (8 * f.1)

theorem packBytes_eq_foldl (fs : List (Nat × Nat × Nat)) : packBytes fs = fs.foldl packField 0 := rfl

theorem packField_mk (acc o n v : Nat) : packField acc (o, n, v) = acc + v % 2 ^ (8 * n) * 2 ^ (8 * o) := rfl

/-- The entry's fields at their bytes; PHASE is the top bit of STEP. -/
theorem completionRaw_toNat (st seq tag p step d : Nat) (ph : Bool) : (completionRaw st seq tag p step d ph).toNat =
    st % 2 ^ 16 + 2 ^ 16 * (seq % 2 ^ 16) + 2 ^ 32 * (tag % 2 ^ 32) + 2 ^ 64 * (p % 2 ^ 64) + 2 ^ 128 * (step % 2 ^ 63) +
    (if ph then 2 ^ 191 else 0) + 2 ^ 192 * (d % 2 ^ 64) := by
  have hphase : (if ph then 2 ^ 191 else 0) = b2n ph * 2 ^ 191 := by cases ph <;> rfl
  have hbit : b2n ph < 2 := by cases ph <;> decide
  rw [completionRaw, BitVec.toNat_ofNat, packBytes_eq_foldl, List.foldl_cons, List.foldl_cons, List.foldl_cons,
    List.foldl_cons, List.foldl_cons, List.foldl_cons, List.foldl_nil, packField_mk, packField_mk, packField_mk,
    packField_mk, packField_mk, packField_mk, hphase]
  omega

/-! ### The statements settled -/

/-- Settles O25: each row by its law above. -/
theorem registerRowsComplete : Obligations.RegisterRowsComplete := by
  refine ⟨fun fn v s hlink => exec_devCtrSelWrite_selects hlink v, fun fn s hlink => exec_counterClear_valid hlink false, ?_,
    fun s => exec_counterClearAll_pf, fun v s hlink => ⟨_, exec_heatLookupWrite_pf hlink v, rfl⟩,
    fun v s hlink => exec_ftBlkSelWrite_pf hlink v, fun v s hlink hstate _ => exec_fabInstallCommit_installs v hlink hstate,
    fun fn n s => exec_msixVectorUnmask_sends⟩
  rintro fn s t o b hlink hvalid rfl rfl rfl
  exact ⟨exec_counterClear_valid hlink true hvalid, companionOf_clear_raise s _ _,
    fun h => latchCounter_value h (companionOf_clear_raise s _ _)⟩

/-- Settles O26: the doorbells by the arithmetic of `sqBell` and `cqBell`, the ring events and completions by their laws. -/
theorem doorbellsAndRingsComplete : Obligations.DoorbellsAndRingsComplete := by
  refine ⟨?_, ?_, ?_, ?_, ?_, ?_, ?_, ?_, fun ring s => exec_interruptCoalesceTimeout_signals,
    fun c st p d s => done_eq_writeCompletion c st p d, ?_, completionRaw_toNat⟩
  · rintro fn ring off v s n x d e i hi hlink hring hok rfl hn rfl hd he
    rw [exec_bell hi hlink, bellPage_sq hring hok]
    refine ⟨fun hx => ?_, fun hx h => ?_, fun hx h0 hle hroom => ?_, fun hx h0 hle hover => ?_⟩
    · rw [sqBell_too_large hn hx]
    · rw [sqBell_behind hn hx hd h]
    · rw [sqBell_ahead hn hx hd he h0 hle, if_pos hroom]
    · rw [sqBell_ahead hn hx hd he h0 hle, if_neg (Nat.not_le.mpr hover)]
  · rintro fn ring off v s n x d e i hi hlink hring hok rfl hn rfl hd he
    rw [exec_bell hi hlink, bellPage_cq hring hok]
    refine ⟨fun hx => ?_, fun hx hle => ?_, fun hx hpast hback => ?_, fun hx hpast hnear => ?_⟩
    · rw [cqBell_too_large hn hx]
    · rw [cqBell_in_range hn hx hd he, if_pos hle]
    · rw [cqBell_in_range hn hx hd he, if_neg (Nat.not_le.mpr hpast), if_pos hback]
    · rw [cqBell_in_range hn hx hd he, if_neg (Nat.not_le.mpr hpast), if_neg (Nat.not_lt.mpr hnear)]
  · intro fn ring off w v s i hi hlink hring hbad
    rw [exec_bell hi hlink, bellPage_discards hring hbad]
  · intro fn ring off w s hlink hring
    exact ⟨by rw [exec_bell (.inl rfl) hlink, bellPage_read hring], by rw [exec_bell (.inr rfl) hlink, bellPage_read hring]⟩
  · exact fun fn ring v s x hlink hring hv hdis hquiet hx hlo hhi hen hsq hcq =>
      exec_ringEnable_starts hlink hring hv hx ⟨hdis, hquiet, hlo, hhi, hen, hsq, hcq⟩
  · exact fun fn ring v s x => exec_ringDisable_stops
  · intro ring es s hring hstarted hturn hes hfit
    have hsome : fetchable s ring ≠ 0 := Nat.ne_of_gt (Nat.lt_of_lt_of_le (List.length_pos_iff.mpr hes) hfit)
    exact exec_sqFetch_entries ⟨hring, hstarted, hsome, hturn⟩ hes hfit
  · exact fun ring s hring hstarted hsome hturn => exec_sqFetch_failed ⟨hring, hstarted, hsome, hturn⟩
  · rintro ring raw s n k u - rfl rfl rfl
    have htail := countCompletion_cqTail ring (enterCompletion ring raw s)
    have hinflight := countCompletion_inflight ring (enterCompletion ring raw s)
    rw [ringSize, enterCompletion_rd, enterCompletion_rd, ← ringSize] at htail
    rw [enterCompletion_rd] at hinflight
    rw [writeCompletion_false, writeCompletion_true]
    refine ⟨?_, ?_, htail, hinflight, countCompletion_quiescent ring _, rfl⟩
    · rw [countCompletion_out, enterCompletion_out]
    · rw [countCompletion_ringAux, enterCompletion_written]

end Sys2Proof.Machine
end

section
/-! PROOFS. Function level resets, SR-IOV, the link and the CXL window (R304–R310), and what a channel's window does, from the
access that arrives to the one that sets out (R324–R328). -/

namespace Sys2Proof.Machine

/-! ### Functions and the link (R304, R306, R307) -/

theorem exec_vfFlr_enabled {fn : Nat} {s : State} (hfn : fn ≠ 0) (hon : s.rdB VF_ENABLE = true) (hle : fn ≤ s.rd NUM_VFS) :
    exec (.vfFlr fn) s = .next (resetFunction fn s) := by
  have hexists : (decide (fn = 0) || !hasFunction s fn) = false := by simp [hasFunction, hfn, hon, hle]
  simp only [exec_vfFlr, execVfFlr, hexists, Bool.false_eq_true, if_false]

theorem exec_vfEnableWrite_sets {n : Nat} {s : State} (hoff : s.rdB VF_ENABLE = false) (hle : n ≤ s.host.cfg.totalVfs) :
    exec (.vfEnableWrite true n) s = .next ((s.wr NUM_VFS n).wr VF_ENABLE 1) := by
  simp only [exec_vfEnableWrite, execVfEnableWrite, hoff, decide_eq_false (Nat.not_lt.mpr hle), Bool.or_self,
    Bool.false_eq_true, if_false, if_true]

/-- While VF Enable is set, NumVFs keeps its value. -/
theorem exec_vfEnableWrite_clears {n : Nat} {s : State} (hon : s.rdB VF_ENABLE = true) :
    exec (.vfEnableWrite false n) s = .next (disableVfs s) := by
  simp only [exec_vfEnableWrite, execVfEnableWrite, hon, Bool.true_or, Bool.false_eq_true, if_false, if_true]

theorem exec_pcieLinkTrained_shows {speed width : Nat} {flit cxl : Bool} {s : State} (hlo : 3 ≤ speed) (hhi : speed ≤ 6)
    (hwidth : width = 4 ∨ width = 8 ∨ width = 16) (hgood : s.pwr.good = true) :
    exec (.pcieLinkTrained speed width flit cxl) s =
      .next ((((({ s with host := { s.host with linkUp := true, perstLow := false } }.wr ⟨0x10, 0, 4⟩ speed).wr
        ⟨0x10, 4, 5⟩ width).wrB ⟨0x10, 9, 1⟩ (flit || speed = 6))).wrB ⟨0x10, 10, 1⟩ cxl) := by
  have hok : (decide (3 ≤ speed) && decide (speed ≤ 6)
      && (decide (width = 4) || decide (width = 8) || decide (width = 16))) = true := by simpa [hlo, hhi, or_assoc] using hwidth
  simp only [exec_pcieLinkTrained, execPcieLinkTrained, hok, hgood, Bool.not_true, Bool.or_self, Bool.false_eq_true, if_false]

/-! ### The CXL window (R309, R310) -/

theorem exec_cxlDecoderCommit_reserves {base off : Nat} {s t : State} (hon : cxlOn s = true)
    (hfree : s.rdB CXL_COMMITTED = false) (hsize : s.rd CXL_SIZE ≠ 0)
    (halloc : allocD (s.rd CXL_SIZE * 2 ^ 30) .cxl s = some (off, t)) :
    exec (.cxlDecoderCommit base) s = .next (refreshHeat
      (({ t with host := { t.host with cxlBase := base } }.wr CXL_COMMITTED 1).wr64 DEV_CXL_BASE off)) := by
  simp only [exec_cxlDecoderCommit, execCxlDecoderCommit, hon, hfree, hsize, halloc, Bool.not_true, Bool.or_self,
    Bool.false_eq_true, if_false]

theorem exec_cxlDecoderDecommit_frees {s : State} (hcommitted : s.rdB CXL_COMMITTED = true) :
    exec .cxlDecoderDecommit s = .next (freeWindow s) := by
  rw [exec_cxlDecoderDecommit, execCxlDecoderDecommit, if_pos hcommitted]

theorem exec_cxlMemRead_presented {hpa len : Nat} {s : State} {g : DWord} (hg : cxlAddr s hpa len = some g) :
    exec (.cxlMemRead hpa len) s =
      .next (present .cxl { who := .cxl, target := .addr g, op := .read len, cls := 2 } s) := by
  simp only [exec_cxlMemRead, execCxlMemRead, hg, cxlAccess]

theorem exec_cxlMemWrite_presented {hpa : Nat} {b : List Byte} {s : State} {g : DWord}
    (hg : cxlAddr s hpa b.length = some g) :
    exec (.cxlMemWrite hpa b) s =
      .next (present .cxl { who := .cxl, target := .addr g, op := .write b, cls := 2 } s) := by
  simp only [exec_cxlMemWrite, execCxlMemWrite, hg, cxlAccess]

/-! ### Accesses that arrive at a channel's window (R325–R327) -/

/-- An access of `n` bytes over the link, by the function that owns the channel (R324, R400). -/
structure AtWindow (s : State) (fn c n : Nat) : Prop where
  link : linkLive s = true
  channel : c < 64
  nonempty : n ≠ 0
  page : n ≤ 4096
  owner : ownsChannel s fn c = true

theorem AtWindow.not_ignored {s : State} {fn c n : Nat} (h : AtWindow s fn c n) :
    (!linkLive s || decide (64 ≤ c) || decide (n = 0) || decide (4096 < n)) = false := by
  simp [h.link, h.channel, h.nonempty, h.page]

section
variable {fn c off : Nat} {b : List Byte} {s : State} (h : AtWindow s fn c b.length)
include h

theorem exec_bdpWindowWrite_disordered (poisoned : Bool) (horder : orderOk s c off = false) :
    exec (.bdpWindowWrite fn c off b poisoned) s = .next (s.raise (BDP_STATUS c) 1) := by
  simp only [exec_bdpWindowWrite, execBdpWindowWrite, h.not_ignored, h.owner, horder, Bool.not_true, Bool.not_false,
    Bool.false_eq_true, if_false, if_true]

variable (horder : orderOk s c off = true)
include horder

theorem exec_bdpWindowWrite_poisoned :
    exec (.bdpWindowWrite fn c off b true) s = .next ((moveCursor c b.length s).raise (BDP_STATUS c) 5) := by
  simp only [exec_bdpWindowWrite, execBdpWindowWrite, h.not_ignored, h.owner, horder, Bool.not_true, Bool.false_eq_true,
    if_false, if_true]

theorem exec_bdpWindowWrite_overruns (hfull : s.rd32 (BDP_FREE c) < b.length) :
    exec (.bdpWindowWrite fn c off b false) s = .next ((moveCursor c b.length s).raise (BDP_STATUS c) 2) := by
  simp only [exec_bdpWindowWrite, execBdpWindowWrite, h.not_ignored, h.owner, horder, hfull, Bool.not_true,
    Bool.false_eq_true, if_false, if_true]

theorem exec_bdpWindowWrite_queues (hroom : b.length ≤ s.rd32 (BDP_FREE c)) :
    exec (.bdpWindowWrite fn c off b false) s =
      .next ((setBdpQueue c (bdpQueue s c ++ [atCursor s fn c b none]) (moveCursor c b.length s)).wr32 (BDP_FREE c)
        (s.rd32 (BDP_FREE c) - b.length)) := by
  simp only [exec_bdpWindowWrite, execBdpWindowWrite, h.not_ignored, h.owner, horder, Nat.not_lt.mpr hroom, Bool.not_true,
    Bool.false_eq_true, if_false]

end

section
variable {fn c off len : Nat} {s : State} (h : AtWindow s fn c len)
include h

theorem exec_bdpWindowRead_disordered (horder : orderOk s c off = false) :
    exec (.bdpWindowRead fn c off len) s = .next ((s.raise (BDP_STATUS c) 1).emit (.bdpData fn c (zeros len))) := by
  simp only [exec_bdpWindowRead, execBdpWindowRead, h.not_ignored, h.owner, horder, Bool.not_true, Bool.not_false,
    Bool.false_eq_true, if_false, if_true]

theorem exec_bdpWindowRead_queues (horder : orderOk s c off = true) :
    exec (.bdpWindowRead fn c off len) s = .next (pumpFences (kick c
      (setBdpQueue c (bdpQueue s c ++ [atCursor s fn c [] (some len)]) (moveCursor c len s)))) := by
  simp only [exec_bdpWindowRead, execBdpWindowRead, h.not_ignored, h.owner, horder, Bool.not_true, Bool.false_eq_true,
    if_false]

end

/-! ### The oldest access of a channel sets out (R199, R200, R327, R328) -/

theorem exec_bdpBufferDrain_starts {c : Nat} (s : State) (hc : c < 64) :
    exec (.bdpBufferDrain c) s = .next (pumpFences (kick c (startItem c s))) := by
  rw [exec_bdpBufferDrain, execBdpBufferDrain, if_neg (Nat.not_le.mpr hc)]

/-- The access `w` is its channel's oldest and has not set out, and no remote access of the channel is on its way. -/
structure MaySetOut (s : State) (c : Nat) (w : ChanAccess) (rest : List ChanAccess) : Prop where
  queue : bdpQueue s c = w :: rest
  unsent : w.sent = none
  alone : bdpRemote s c = false

theorem MaySetOut.not_held {s : State} {c : Nat} {w : ChanAccess} {rest : List ChanAccess} (h : MaySetOut s c w rest) :
    (w.sent.isSome || bdpRemote s c) = false := by
  rw [h.unsent, h.alone]
  rfl

/-- The access `w` goes to its tier's controller in class 2. -/
def presentItem (c : Nat) (w : ChanAccess) (rest : List ChanAccess) (s : State) : State :=
  setBdpQueue c ({ w with sent := some s.tier.nextId } :: rest)
    (present (.channel c) { who := .fn w.fn, target := w.target, op := w.op, cls := 2 } s)

section
variable {c : Nat} {w : ChanAccess} {rest : List ChanAccess} {s : State} (h : MaySetOut s c w rest)
include h

section
variable (hmode : w.mode1 = false)
include hmode

/-- A function other than the PF has no access by address (R325). -/
theorem startItem_denied (hfn : w.fn ≠ 0) :
    startItem c s = endItem c w rest RSP_DENIED 0 w.cursor (zeros (w.read.getD 0)) s := by
  simp only [startItem, h.queue, h.not_held, hmode, ne_eq, hfn, not_false_eq_true, Bool.false_eq_true, if_false, if_true]

theorem startItem_here (hfn : w.fn = 0) (hhere : s.isHere (gDevice w.cursor) = true) :
    startItem c s = presentItem c w rest s := by
  simp only [startItem, presentItem, h.queue, h.not_held, hmode, ne_eq, hfn, hhere, not_true_eq_false, Bool.not_true,
    Bool.false_eq_true, if_false]

theorem startItem_remote (hfn : w.fn = 0) (haway : s.isHere (gDevice w.cursor) = false)
    (hreach : reachable s (gDevice w.cursor) = true) : startItem c s = sendRequest (gDevice w.cursor) none
      (.bdp c w.fn (w.read.getD w.data.length) w.read.isSome) (fun p => .request p .pf w.cursor w.op)
      (popAccess c w rest s) := by
  simp only [startItem, h.queue, h.not_held, hmode, ne_eq, hfn, haway, hreach, not_true_eq_false, Bool.not_false,
    Bool.false_eq_true, if_false, if_true]

end

section
variable (hmode : w.mode1 = true)
include hmode

theorem startItem_unlocated {code : Nat} (hloc : locate s (.fn w.fn) w.target (opWrites w.op) = .fail code) :
    startItem c s = endItem c w rest code 0 (handleAddr s w code) (zeros (w.read.getD 0)) s := by
  simp only [startItem, h.queue, h.not_held, hmode, hloc, Bool.false_eq_true, if_false, if_true]

theorem startItem_handle {hd : Nat} {t : State} (hloc : ∀ code, locate s (.fn w.fn) w.target (opWrites w.op) ≠ .fail code)
    (hhd : hd = bits w.cursor.toNat 0 20) (hwait : awaitsMove s hd = false) (hgo : hostGo hd s = (.go, t)) :
    startItem c s = presentItem c w rest t := by
  cases hl : locate s (.fn w.fn) w.target (opWrites w.op)
  case fail code => exact absurd hl (hloc code)
  all_goals
    simp only [startItem, presentItem, h.queue, h.not_held, hmode, hl, ← hhd, hwait, hgo, Bool.false_eq_true, if_false, if_true]

end

end

/-! ### The statements settled -/

/-- Settles O27: the events of the functions, of the link and of the window, each by its law above. -/
theorem functionAndLinkEventsComplete : Obligations.FunctionAndLinkEventsComplete :=
  ⟨fun _ _ => exec_vfFlr_enabled, fun _ => rfl, fun _ _ => exec_vfEnableWrite_sets, fun _ _ => exec_vfEnableWrite_clears,
    fun _ _ _ _ _ => exec_pcieLinkTrained_shows, fun _ _ _ _ => exec_cxlDecoderCommit_reserves,
    fun _ => exec_cxlDecoderDecommit_frees, fun _ _ _ _ => exec_cxlMemRead_presented,
    fun _ _ _ _ => exec_cxlMemWrite_presented⟩

/-- Settles O28: an access that arrives joins the queue or is discarded, and the oldest one sets out as `startItem` says. -/
theorem bulkPortCompletes : Obligations.BulkPortCompletes := by
  refine ⟨?_, ?_, ?_, ?_, ?_, ?_, ?_, ?_, ?_⟩
  · intro fn c off b s hlink hc hb hpage howner horder
    have h : AtWindow s fn c b.length := ⟨hlink, hc, mt List.length_eq_zero_iff.mp hb, hpage, howner⟩
    exact ⟨exec_bdpWindowWrite_queues h horder, exec_bdpWindowWrite_overruns h horder, exec_bdpWindowWrite_poisoned h horder⟩
  · intro fn c off b p s hlink hc hb hpage howner horder
    exact exec_bdpWindowWrite_disordered ⟨hlink, hc, mt List.length_eq_zero_iff.mp hb, hpage, howner⟩ p horder
  · exact fun fn c off len s hlink hc hlen hpage howner => exec_bdpWindowRead_queues ⟨hlink, hc, hlen, hpage, howner⟩
  · exact fun fn c off len s hlink hc hlen hpage howner => exec_bdpWindowRead_disordered ⟨hlink, hc, hlen, hpage, howner⟩
  · intro c w rest s hc hqueue hsent halone hmode hfn hhere
    rw [exec_bdpBufferDrain_starts s hc, startItem_here ⟨hqueue, hsent, halone⟩ hmode hfn hhere, presentItem]
  · intro c w rest s hc hqueue hsent halone hmode hfn haway hreach
    rw [exec_bdpBufferDrain_starts s hc, startItem_remote ⟨hqueue, hsent, halone⟩ hmode hfn haway hreach]
  · intro c w rest s hc hqueue hsent halone hmode hfn
    rw [exec_bdpBufferDrain_starts s hc, startItem_denied ⟨hqueue, hsent, halone⟩ hmode hfn]
  · intro c w rest code s hc hqueue hsent halone hmode hloc
    rw [exec_bdpBufferDrain_starts s hc, startItem_unlocated ⟨hqueue, hsent, halone⟩ hmode hloc]
  · intro c w rest s t h hc hqueue hsent halone hmode hloc hh hwait hgo
    rw [exec_bdpBufferDrain_starts s hc, startItem_handle ⟨hqueue, hsent, halone⟩ hmode hloc hh hwait hgo, presentItem]

end Sys2Proof.Machine
end

section
/-! PROOFS. The queue's front (log entry 1), what Husk does with a command that it takes, and the order of its checks
(R336, R338, R388, R409, R414). -/

namespace Sys2Proof.Machine

/-! ### The queue -/

theorem step_cons {c : Instr} {rest : List Instr} {s : State} (h : s.pending = c :: rest) :
    step s = exec c { s with pending := rest } := by
  rw [step, h]

theorem step_nil {s : State} (h : s.pending = []) : step s = .next s := by
  rw [step, h]

/-! ### A taken command that fails a check (R336, R338) -/

/-- Whatever its body, the row carries out the command that is taken. -/
theorem hostCommand_taken {op ring : Nat} {s t : State} {c : Cmd} (body : Cmd → State → State)
    (h : taken op ring (rejectUndefined s) = some (c, t)) : hostCommand op ring body s = .next (runCmd body c t) := by
  rw [hostCommand]
  rw [taken] at h
  cases hheld : startHeld op ring (rejectUndefined s) with
  | some x =>
    rw [hheld] at h
    cases h
    rfl
  | none =>
    cases htake : takeCmd op ring (rejectUndefined s) with
    | none => simp [hheld, htake] at h
    | some x =>
      cases hwaits : groupWaits x.2 op with
      | true => simp [hheld, htake, hwaits] at h
      | false =>
        simp only [hheld, htake, hwaits, Bool.false_eq_true, if_false, Option.some.injEq, Prod.mk.injEq] at h
        obtain ⟨rfl, rfl⟩ := h
        simp only [hwaits, Bool.false_eq_true, if_false]

theorem runCmd_rejected {c : Cmd} {t : State} {f : Nat × Nat} (body : Cmd → State → State) (h : accept c t = some f) :
    runCmd body c t = c.done f.1 0 f.2 t := by
  rw [runCmd, h]

/-! ### The checks of R336, each where those before it pass -/

section
variable {c : Cmd} {s : State} {f : Nat}

theorem accept_undefined (h : opSpec (entryOpcode c.e) = none) :
    accept c s = some (ST_BAD_OPCODE, entryOpcode c.e) := by
  simp only [accept, h]

variable {o : OpSpec} (hop : opSpec (entryOpcode c.e) = some o)
include hop

theorem accept_parked (hparked : s.rdB BOOT_PARKED = true) (h : parkedOp (entryOpcode c.e) = false) :
    accept c s = some (ST_DEVICE_PARKED, 0) := by
  simp only [accept, hop, hparked, h, Bool.not_false, Bool.and_self, if_true]

variable (hpark : s.rdB BOOT_PARKED = false ∨ parkedOp (entryOpcode c.e) = true)
include hpark

omit hop in
theorem not_kept_out_by_park : (s.rdB BOOT_PARKED && !parkedOp (entryOpcode c.e)) = false := by
  rcases hpark with h | h <;> simp [h]

theorem accept_denied (h : deniedField s c (entryOpcode c.e) o = some f) :
    accept c s = some (ST_ACCESS_DENIED, f) := by
  simp only [accept, hop, not_kept_out_by_park hpark, h, Bool.false_eq_true, if_false]

variable (hmay : deniedField s c (entryOpcode c.e) o = none)
include hmay

/-- A function that may send the command meets orders 4 to 6. -/
theorem accept_allowed : accept c s =
    if !lifeAccepts (s.rd LC_STATE) (entryOpcode c.e) ||
        (!parkedOp (entryOpcode c.e) && !(tget s.host.hello c.fn {}).done) then some (ST_DEVICE_STATE, s.rd LC_STATE)
    else if isStandby s && !standbyAdmits c (entryOpcode c.e) then some (ST_TWIN_STANDBY, 0)
    else (badField c (entryOpcode c.e) o).map (fun f => (ST_BAD_PARAM, f)) := by
  simp only [accept, hop, not_kept_out_by_park hpark, hmay, Bool.false_eq_true, if_false]

theorem accept_wrongState (h : lifeAccepts (s.rd LC_STATE) (entryOpcode c.e) = false ∨
      (parkedOp (entryOpcode c.e) = false ∧ (tget s.host.hello c.fn {}).done = false)) :
    accept c s = some (ST_DEVICE_STATE, s.rd LC_STATE) := by
  have hwrong : (!lifeAccepts (s.rd LC_STATE) (entryOpcode c.e) ||
      (!parkedOp (entryOpcode c.e) && !(tget s.host.hello c.fn {}).done)) = true := by
    rcases h with h | ⟨hp, hd⟩
    · simp [h]
    · simp [hp, hd]
  simp only [accept_allowed hop hpark hmay, hwrong, if_true]

variable (hlife : lifeAccepts (s.rd LC_STATE) (entryOpcode c.e) = true)
  (hhello : parkedOp (entryOpcode c.e) = true ∨ (tget s.host.hello c.fn {}).done = true)
include hlife hhello

/-- In a state that takes the opcode, from a function that has said HELLO, orders 5 and 6 decide. -/
theorem accept_rightState : accept c s = if isStandby s && !standbyAdmits c (entryOpcode c.e) then some (ST_TWIN_STANDBY, 0)
    else (badField c (entryOpcode c.e) o).map (fun f => (ST_BAD_PARAM, f)) := by
  have hright : (!lifeAccepts (s.rd LC_STATE) (entryOpcode c.e) ||
      (!parkedOp (entryOpcode c.e) && !(tget s.host.hello c.fn {}).done)) = false := by
    rcases hhello with h | h <;> simp [hlife, h]
  simp only [accept_allowed hop hpark hmay, hright, Bool.false_eq_true, if_false]

theorem accept_standby (hstandby : isStandby s = true) (h : standbyAdmits c (entryOpcode c.e) = false) :
    accept c s = some (ST_TWIN_STANDBY, 0) := by
  simp only [accept_rightState hop hpark hmay hlife hhello, hstandby, h, Bool.not_false, Bool.and_self, if_true]

theorem accept_badField (hstandby : isStandby s = false ∨ standbyAdmits c (entryOpcode c.e) = true)
    (h : badField c (entryOpcode c.e) o = some f) : accept c s = some (ST_BAD_PARAM, f) := by
  have hgo : (isStandby s && !standbyAdmits c (entryOpcode c.e)) = false := by
    rcases hstandby with h | h <;> simp [h]
  simp only [accept_rightState hop hpark hmay hlife hhello, hgo, h, Bool.false_eq_true, if_false, Option.map_some]

end

/-! ### The statements settled -/

/-- Settles O1. -/
theorem stepRunsFrontCommand : Obligations.StepRunsFrontCommand := fun _ _ _ => step_cons rfl

/-- Settles O2. -/
theorem emptyQueueIdles : Obligations.EmptyQueueIdles := fun _ => step_nil

/-- Settles O5: a row carries out the command taken, whatever its body, and a failed check keeps the body from running. -/
theorem rejectedCommandChangesNothing : Obligations.RejectedCommandChangesNothing := by
  intro i op ring s t c f hi htaken hfails
  obtain ⟨body, hexec⟩ := exec_of_hostOp hi
  rw [hexec, hostCommand_taken body htaken, runCmd_rejected body hfails]

/-- Settles O6: each check by its law, on the cases that those before it leave. -/
theorem acceptanceOrder : Obligations.AcceptanceOrder :=
  ⟨fun _ _ => accept_undefined, fun _ _ _ => accept_parked, fun _ _ _ _ => accept_denied, fun _ _ _ => accept_wrongState,
    fun _ _ _ => accept_standby, fun _ _ _ _ => accept_badField⟩

end Sys2Proof.Machine
end

section
/-! PROOFS. The device, tenant and budget commands (R274, R286, R288, R340–R342), the tensor and F-tier commands (R238–R240,
R346–R349) and the power, life-cycle, wipe and firmware commands (R357, R405, R406, R415, R417, R431): each accepted command by
its law, then the statements they settle. -/

namespace Sys2Proof.Machine

section
variable {ring : Nat} {s t u : State} {c : Cmd}

/-! ### Device commands (R340–R342, R409) -/

theorem exec_nop_completes (h : ready 0x00 ring s c t) : exec (.nop ring) s = .next (c.done ST_OK 0 0 t) := by
  rw [exec_nop, execNop, hostCommand_ready h]

theorem exec_hello_agrees (h : ready 0x01 ring s c t)
    (hu : u = logGenerate 3 0 0 (BitVec.ofNat 384 (packBytes [(0, 1, c.fn), (1, 2, c.p 12 2), (8, 8, c.p 16 8)])) t)
    (hrecovery : u.boot.recovery = false) (hpark : u.boot.helloPark = false)
    (hpf : c.fn = 0 ∨ (tget u.host.hello 0 {}).done = true)
    (hmajor : bits (c.p 12 2) 8 8 = bits (u.rd32 DEV_IFVER) 8 8) : exec (.hello ring) s =
    .next (c.done ST_OK 0 (helloDetail u (bits (c.p 12 2) 0 8)) (helloOk c.fn (bits (c.p 12 2) 0 8) u)) := by
  have hfirst : (decide (c.fn ≠ 0) && !(tget u.host.hello 0 {}).done) = false := by
    rcases hpf with h | h <;> simp [h]
  rw [exec_hello, execHello, hostCommand_ready h]
  simp only [← hu, hrecovery, hpark, hfirst, hmajor, Bool.or_self, Bool.false_eq_true, if_false, if_true]

section
variable {b : List Byte} (h : ready 0x02 ring s c t)
include h

theorem exec_queryDevice_device (hwhat : c.p 24 1 = 0) : exec (.queryDevice ring) s =
    .next (c.done ST_OK (deviceBlock t).length 0 (dmaOut c.fn (c.p 12 8) (deviceBlock t) t)) := by
  rw [exec_queryDevice, execQueryDevice, hostCommand_ready h]
  simp only [hwhat, if_true]

theorem exec_queryDevice_tensor (hwhat : c.p 24 1 = 1) (href : hrefBad t (c.p 28 8) 28 = none)
    (hb : b = leBytes (tensorRaw (t.tensor (hrefHandle (c.p 28 8)))).toNat 64) : exec (.queryDevice ring) s =
    .next (c.done ST_OK b.length 0 (dmaOut c.fn (c.p 12 8) b t)) := by
  rw [exec_queryDevice, execQueryDevice, hostCommand_ready h]
  simp only [hwhat, href, ← hb, Nat.one_ne_zero, if_false, if_true]

theorem exec_queryDevice_hull (hwhat : c.p 24 1 = 2) (hlive : (t.hull c.hull).live = true)
    (hstays : (t.hull c.hull).destroying = false) : exec (.queryDevice ring) s =
    .next (c.done ST_OK (hullBlock t c.hull).length 0 (dmaOut c.fn (c.p 12 8) (hullBlock t c.hull) t)) := by
  rw [exec_queryDevice, execQueryDevice, hostCommand_ready h]
  simp only [hwhat, hlive, hstays, OfNat.ofNat_ne_zero, OfNat.ofNat_ne_one, Bool.not_true, Bool.or_self, Bool.false_eq_true,
    if_false]

end

section
variable {i : Nat} (h : ready 0x03 ring s c t)
include h

theorem exec_queryRequest_found (hhere : t.srv.elsewhere.contains (c.p 12 2, c.p 14 2) = false)
    (hfind : findRequest t (c.p 12 2) (c.p 14 2) = some i) : exec (.queryRequest ring) s =
    .next (completeAt c.ring c.e ST_OK (t.request i).progress (t.request i).stepVal.toNat
      (requestDetail (t.request i) + (t.request i).state * 2 ^ 8 + b2n (t.request i).paused * 2 ^ 11)
      (if c.p 16 8 = 0 then t else dmaOut c.fn (c.p 16 8)
        (if isLive (t.request i) then zeros 32 else leBytes (t.request i).finalRaw.toNat 32) t)) := by
  rw [exec_queryRequest, execQueryRequest, hostCommand_ready h]
  simp only [hhere, hfind, Bool.false_eq_true, if_false]

theorem exec_queryRequest_elsewhere (haway : t.srv.elsewhere.contains (c.p 12 2, c.p 14 2) = true) :
    exec (.queryRequest ring) s = .next (c.done ST_HULL_NOT_LEAD 0 0 t) := by
  rw [exec_queryRequest, execQueryRequest, hostCommand_ready h]
  simp only [haway, if_true]

end

/-! ### Tenants and budgets (R286, R288, R341) -/

theorem exec_tenantBind_binds {k : Nat} (h : ready 0x04 ring s c t)
    (hnew : (boundSlots t).find? (fun n => (t.slot n).identity = c.p 12 4) = none) (hfree : freeSlot t = some k) :
    exec (.tenantBind ring) s = .next (commandEpoch t (c.done ST_OK 0 k
      (t.setSlot k { bound := true, identity := c.p 12 4, owner := c.fn, since := t.sched.frame }))) := by
  rw [exec_tenantBind, execTenantBind, hostCommand_ready h]
  simp only [hnew, hfree]

theorem exec_tenantUnbind_unbinds (h : ready 0x05 ring s c t) (hbound : (t.slot c.tenant).bound = true)
    (hidle : (slotRequests t c.tenant).length = 0)
    (hnone : (handles t).any (fun h => (t.tensor h).bound && (t.tensor h).tenant = c.tenant) = false) :
    exec (.tenantUnbind ring) s = .next (commandEpoch t (c.done ST_OK 0 0 (t.setSlot c.tenant {}))) := by
  have hfree : ¬ (decide ((slotRequests t c.tenant).length ≠ 0) ||
      (handles t).any (fun h => (t.tensor h).bound && (t.tensor h).tenant = c.tenant)) = true := by
    rw [hidle, hnone]
    decide
  rw [exec_tenantUnbind, execTenantUnbind, hostCommand_ready h]
  simp only [hbound, hfree, Bool.not_true, Bool.false_eq_true, if_false]

theorem exec_budgetSet_sets (h : ready 0x06 ring s c t) (hbound : (t.slot c.tenant).bound = true) :
    exec (.budgetSet ring) s = .next (commandEpoch t (formAll (c.done ST_OK 0 0 (t.setSlot c.tenant
      (budgetSlot (t.slot c.tenant) (c.p 12 4) (c.p 16 4) (c.p 20 4) t.sched.frame))))) := by
  rw [exec_budgetSet, execBudgetSet, hostCommand_ready h]
  simp only [hbound, Bool.not_true, Bool.false_eq_true, if_false]

theorem exec_budgetQuery_answers (h : ready 0x07 ring s c t) (hbound : (t.slot c.tenant).bound = true)
    (hbuf : c.p 12 8 ≠ 0) : exec (.budgetQuery ring) s =
    .next (c.done ST_OK (levelShown (t.slot c.tenant)) (t.slot c.tenant).reserved
      (dmaOut c.fn (c.p 12 8) (budgetBlock (t.slot c.tenant)) t)) := by
  rw [exec_budgetQuery, execBudgetQuery, hostCommand_ready h]
  simp only [hbound, hbuf, Bool.not_true, Bool.false_eq_true, if_false]

/-! ### Tensors defined, freed and classed (R206, R208, R210, R214, R347) -/

/-- An option bit asks for a tenant slot, and the slot is bound, or the bit is clear. -/
theorem bind_allowed {b : Bool} {n : Nat} (h : b = false ∨ (t.slot n).bound = true) :
    (b && !(t.slot n).bound) = false := by
  rcases h with h | h <;> simp [h]

theorem exec_tensorDefine_defines {hd : Nat} {v : State} (h : ready 0x20 ring s c t)
    (hslot : bit (c.p 13 1) 2 = false ∨ (t.slot c.tenant).bound = true) (hfree : (freeHandle t).isNone = false)
    (hshape : bit (c.p 13 1) 3 = true ∨ shapeOk (c.p 12 1) (c.p 16 8) (c.p 24 8) = true)
    (hmade : (if bit (c.p 13 1) 3 then definePlainRegion (bit (c.p 13 1) 4) (c.p 16 8) t
      else defineTensor { cls := bits (c.p 13 1) 0 2, format := c.p 12 1, elem := c.p 16 8, scale := c.p 24 8 } t)
        = .inr (hd, u))
    (hv : v = if bit (c.p 13 1) 2 then u.setTensor hd { u.tensor hd with bound := true, tenant := c.tenant } else u) :
    exec (.tensorDefine ring) s = .next (commandEpoch t (c.done ST_OK 0 (hrefOf v hd) v)) := by
  have hfits : (!bit (c.p 13 1) 3 && !shapeOk (c.p 12 1) (c.p 16 8) (c.p 24 8)) = false := by
    rcases hshape with h | h <;> simp [h]
  subst hv
  rw [exec_tensorDefine, execTensorDefine, hostCommand_ready h]
  simp only [bind_allowed hslot, hfree, hfits, hmade, Bool.false_eq_true, if_false]

theorem exec_tensorFree_frees (h : ready 0x23 ring s c t) (href : hrefBad t (c.p 12 8) 12 = none)
    (hbinds : (t.tensor (hrefHandle (c.p 12 8))).binds = 0) (hidle : tensorInUse t (hrefHandle (c.p 12 8)) = false) :
    exec (.tensorFree ring) s = .next (commandEpoch t
      (pumpBaseStages (kickAll (c.done ST_OK 0 0 (freeTensor (hrefHandle (c.p 12 8)) t))))) := by
  rw [exec_tensorFree, execTensorFree, hostCommand_ready h]
  simp only [href, hbinds, hidle, ne_eq, not_true_eq_false, decide_false, Bool.or_self, Bool.false_eq_true, if_false]

theorem exec_tensorClass_sets (h : ready 0x24 ring s c t) (href : hrefBad t (c.p 12 8) 12 = none)
    (hmay : c.fn = 0 ∨ (t.tensor (hrefHandle (c.p 12 8))).readOnly = false) : exec (.tensorClass ring) s =
    .next (commandEpoch t (c.done ST_OK 0 0 (t.setTensor (hrefHandle (c.p 12 8))
      { t.tensor (hrefHandle (c.p 12 8)) with cls := c.p 20 1 }))) := by
  have hgo : (decide (c.fn ≠ 0) && (t.tensor (hrefHandle (c.p 12 8))).readOnly) = false := by
    rcases hmay with h | h <;> simp [h]
  rw [exec_tensorClass, execTensorClass, hostCommand_ready h]
  simp only [href, hgo, Bool.false_eq_true, if_false]

theorem exec_variantLoad_reads (h : ready 0x25 ring s c t)
    (hslot : bit (c.p 32 1) 0 = false ∨ (t.slot c.tenant).bound = true) : exec (.variantLoad ring) s =
    .next (dmaIn c.fn (c.p 12 8) (32 * c.p 20 4) (.command c.seqNo) (startRun (c.run (.variantList (c.p 20 4))) t)) := by
  rw [exec_variantLoad, execVariantLoad, hostCommand_ready h]
  simp only [bind_allowed hslot, Bool.false_eq_true, if_false]

/-! ### Transfers (R335, R347) -/

section
variable (h : ready 0x21 ring s c t) (hok : transferBad c true t = none)
include h hok

theorem exec_tensorWrite_starts (hdma : c.p 21 1 = 0) : exec (.tensorWrite ring) s =
    .next (pumpWrite (c.run (.tensorWrite (hrefHandle (c.p 12 8)) (bit (c.p 20 1) 0) (c.p 24 8) (c.p 40 8) 0))
      (startRun (c.run (.tensorWrite (hrefHandle (c.p 12 8)) (bit (c.p 20 1) 0) (c.p 24 8) (c.p 40 8) 0)) t)) := by
  rw [exec_tensorWrite, execTensorWrite, hostCommand_ready h]
  simp only [hok, hdma, Nat.zero_ne_one, if_false]

theorem exec_tensorWrite_channel (hchannel : c.p 21 1 = 1) :
    exec (.tensorWrite ring) s = .next (takeChannel c true t) := by
  rw [exec_tensorWrite, execTensorWrite, hostCommand_ready h]
  simp only [hok, hchannel, if_true]

end

section
variable (h : ready 0x22 ring s c t) (hok : transferBad c false t = none)
include h hok

theorem exec_tensorRead_starts (hdma : c.p 21 1 = 0) : exec (.tensorRead ring) s =
    .next (pumpRead (c.run (.tensorRead (hrefHandle (c.p 12 8)) (bit (c.p 20 1) 0) (c.p 24 8) (c.p 40 8) 0))
      (startRun (c.run (.tensorRead (hrefHandle (c.p 12 8)) (bit (c.p 20 1) 0) (c.p 24 8) (c.p 40 8) 0)) t)) := by
  rw [exec_tensorRead, execTensorRead, hostCommand_ready h]
  simp only [hok, hdma, Nat.zero_ne_one, if_false]

theorem exec_tensorRead_channel (hchannel : c.p 21 1 = 1) :
    exec (.tensorRead ring) s = .next (takeChannel c false t) := by
  rw [exec_tensorRead, execTensorRead, hostCommand_ready h]
  simp only [hok, hchannel, if_true]

end

/-! ### The F-tier written and staged from (R238–R240, R349) -/

section
variable (h : ready 0x26 ring s c t)
include h

theorem exec_variantArchive_reads (hkeep : bit (c.p 24 1) 0 = false) (hopen : t.rdB FT_RESTRICTED = false) :
    exec (.variantArchive ring) s =
    .next (dmaIn c.fn (c.p 12 8) (8 * c.p 20 4) (.command c.seqNo) (startRun (c.run (.archiveList (c.p 20 4))) t)) := by
  rw [exec_variantArchive, execVariantArchive, hostCommand_ready h]
  simp only [hkeep, hopen, Bool.false_eq_true, if_false]

theorem exec_variantArchive_removes (hremove : bit (c.p 24 1) 0 = true)
    (hlive : (tget t.flash.archives (c.p 26 2) {}).live = true) (hidle : archiveInUse t (c.p 26 2) = none) :
    exec (.variantArchive ring) s =
    .next (commandEpoch t (c.done ST_OK 0 (c.p 26 2) (removeArchive (c.p 26 2) t))) := by
  rw [exec_variantArchive, execVariantArchive, hostCommand_ready h]
  simp only [hremove, archiveRemove, hlive, hidle, Bool.not_true, Bool.false_eq_true, if_false, if_true]

end

theorem exec_baseInstall_reads (h : ready 0x27 ring s c t)
    (hunbound : (baseHandles t).any (fun h => (t.tensor h).binds ≠ 0) = false) (hsource : sourceBad t (c.p 12 8) 12 = none)
    (hscale : c.p 20 8 = 0 ∨ sourceBad t (c.p 20 8) 20 = none) (hopen : t.rdB FT_RESTRICTED = false) :
    exec (.baseInstall ring) s =
    .next (dmaIn c.fn (c.p 28 8) (32 * c.p 36 4) (.command c.seqNo) (startRun (c.run (.baseManifest (c.p 36 4))) t)) := by
  have hsecond : (if c.p 20 8 = 0 then none else sourceBad t (c.p 20 8) 20) = none :=
    ite_eq_left_iff.mpr fun hne => hscale.resolve_left hne
  rw [exec_baseInstall, execBaseInstall, hostCommand_ready h]
  simp only [hunbound, hsource, hsecond, hopen, Bool.false_eq_true, if_false]

theorem exec_baseStage_starts {hs : List Nat} (h : ready 0x28 ring s c t)
    (hhs : hs = (baseHandles t).filter (fun h => !(t.tensor h).inN && !(t.tensor h).inD)) : exec (.baseStage ring) s =
    .next (pumpBaseStage (c.run (.baseStaging hs [] 0 none)) (startRun (c.run (.baseStaging hs [] 0 none)) t)) := by
  rw [exec_baseStage, execBaseStage, hostCommand_ready h, ← hhs]

/-- With no tensor still being staged, BASE_STAGE ends, and those that stand in the D-tier count (R239). -/
theorem pumpBaseStage_finishes {r : Running} {fresh left left' : List Nat} {done : Nat} {short short' : Option Nat}
    (hkind : r.kind = .baseStaging fresh left done short) (hserves : placementOn s = true)
    (hstaged : fresh.foldl stageOne (left, short, s) = (left', short', u))
    (hnone : ∀ h ∈ left', ((u.tensor h).valid && (u.tensor h).move = MOVE_STAGE) = false) : pumpBaseStage r s =
    finishRun r (if short' = none then ST_OK else ST_NO_ROOM)
      (done + (left'.filter (fun h => (u.tensor h).valid && (u.tensor h).inD)).foldl
        (fun n h => n + scaleOff (u.tensor h) + (u.tensor h).scale) 0) (short'.getD 0) u := by
  have hstill : left'.filter (fun h => (u.tensor h).valid && (u.tensor h).move = MOVE_STAGE) = [] :=
    List.filter_eq_nil_iff.mpr fun h hh => Bool.eq_false_iff.mp (hnone h hh)
  simp only [pumpBaseStage, hkind, hserves, hstaged, hstill, List.contains_nil, Bool.not_false, Bool.true_and, decide_true,
    Bool.and_self, if_true]

/-! ### Power and life cycle (R357, R413, R415, R423, R431) -/

theorem exec_powerPolicy_writes (h : ready 0x70 ring s c t) : exec (.powerPolicy ring) s =
    .next (c.done ST_OK 0 0 (((t.wr PWR_POD_IDLE (c.p 12 1)).wr PWR_IDLE_MS (c.p 16 4)).wr PWR_CAP (c.p 20 4))) := by
  rw [exec_powerPolicy, execPowerPolicy, hostCommand_ready h]

theorem exec_rampSet_writes (h : ready 0x71 ring s c t) : exec (.rampSet ring) s = .next (c.done ST_OK 0 0
    (changeCeiling (fun s => (s.wr PWR_CEILING (c.p 12 4)).wr PWR_LOW_CEILING (c.p 16 4)) t)) := by
  rw [exec_rampSet, execRampSet, hostCommand_ready h]

theorem exec_lifecycleAdvance_resets (h : ready 0x72 ring s c t) (hconfirm : c.p 16 4 = 0x4C435943)
    (hallowed : transitionAllowed (t.rd LC_STATE) (c.p 12 1) = true) (hhulls : anyHull t = false)
    (hpair : paired t = false) : exec (.lifecycleAdvance ring) s =
    .next (resetDevice CAUSE_LIFECYCLE (c.done ST_OK 0 0
      { t.wr LC_PENDING 1 with boot := { t.boot with lcTarget := c.p 12 1 } })) := by
  rw [exec_lifecycleAdvance, execLifecycleAdvance, hostCommand_ready h]
  simp only [hconfirm, hallowed, hhulls, hpair, ne_eq, not_true_eq_false, Bool.not_true, Bool.false_eq_true, if_false]

/-! ### WIPE (R357, R417) -/

section
variable {m : Nat} (h : ready 0x73 ring s c t) (hhulls : anyHull t = false) (hm : m = c.p 12 1)
  {n d : State} (hn : n = if bit m 1 then wipeTier false (freeAllTensors t) else freeAllTensors t)
  (hd : d = if bit m 2 then wipeTier true n else n)
  (hu : u = wipeCounters (noteWipe (bit m 1) (bit m 2) (refreshHeat d)))
include h hhulls hm hn hd hu

/-- The tiers and the counters are wiped at once; a pod that is on is what WIPE still waits for. -/
theorem exec_wipe_wipes : exec (.wipe ring) s = .next (commandEpoch t
    (if bit m 0 && (List.range 80).any (domainIsOn u) then startRun (c.run .wiping) (((List.range 80).foldl
      (fun s p => if domainIsOn s p then requestRamp (.domainOff p) s else s) u).wr WIPE_ACTIVE 1)
    else c.done ST_OK 0 0 u)) := by
  subst hu hd hn hm
  rw [exec_wipe, execWipe, hostCommand_ready h]
  simp only [hhulls, Bool.false_eq_true, if_false]

theorem exec_wipe_completes (hoff : bit m 0 = false ∨ (∀ p < 80, domainIsOn u p = false)) :
    exec (.wipe ring) s = .next (commandEpoch t (c.done ST_OK 0 0 u)) := by
  have hdone : (bit m 0 && (List.range 80).any (domainIsOn u)) = false := by
    rcases hoff with h | h
    · simp [h]
    · simpa using fun _ => h
  rw [exec_wipe_wipes h hhulls hm hn hd hu, hdone]
  rfl

theorem exec_wipe_powersOff (hpods : bit m 0 = true) (hon : ∃ p < 80, domainIsOn u p = true) : exec (.wipe ring) s =
    .next (commandEpoch t (startRun (c.run .wiping) (((List.range 80).foldl
      (fun s p => if domainIsOn s p then requestRamp (.domainOff p) s else s) u).wr WIPE_ACTIVE 1))) := by
  have hwaits : (bit m 0 && (List.range 80).any (domainIsOn u)) = true := by simpa [hpods] using hon
  rw [exec_wipe_wipes h hhulls hm hn hd hu, if_pos hwaits]

end

/-! ### Firmware (R405, R406) -/

theorem exec_firmwareStage_reads {v : State} (h : ready 0x74 ring s c t) (hconfirmed : t.rdB BOOT_TRIAL = false)
    (hu : u = t.wr (FW_VALID (inactiveSlot t true)) 0) (hv : v = if u.boot.recovery then u else prefer (u.rd BOOT_SLOT) u)
    (hlen : c.p 20 4 ≠ 0) : exec (.firmwareStage ring) s =
    .next (dmaIn c.fn (c.p 12 8) (c.p 20 4) (.command c.seqNo) (startRun (c.run (.imageRead (c.p 20 4))) v)) := by
  subst hv hu
  rw [exec_firmwareStage, execFirmwareStage, hostCommand_ready h]
  simp only [hconfirmed, hlen, Bool.false_eq_true, if_false]

section
variable (h : ready 0x75 ring s c t) (hvalid : t.rdB (FW_VALID (inactiveSlot t false)) = true)
  (hsvn : t.rd MIN_SVN ≤ t.rd (FW_SVN (inactiveSlot t false)))
include h hvalid hsvn

/-- A pair's active device does not reset for an activation (R357). -/
theorem exec_firmwareActivate_prefers
    (hmay : (decide (c.p 12 1 = 1) && paired t && t.rdB TWIN_ACTIVE) = false) : exec (.firmwareActivate ring) s =
    .next (if c.p 12 1 = 1
      then resetDevice CAUSE_ACTIVATE (c.done ST_OK 0 0 (firmwareEvent false (prefer (inactiveSlot t false) t)))
      else c.done ST_OK 0 0 (firmwareEvent false (prefer (inactiveSlot t false) t))) := by
  rw [exec_firmwareActivate, execFirmwareActivate, hostCommand_ready h]
  simp only [hmay, hvalid, Nat.not_lt.mpr hsvn, Bool.not_true, decide_false, Bool.or_self,
    Bool.false_eq_true, if_false]

theorem exec_firmwareActivate_later (hlater : c.p 12 1 ≠ 1) : exec (.firmwareActivate ring) s =
    .next (c.done ST_OK 0 0 (firmwareEvent false (prefer (inactiveSlot t false) t))) := by
  rw [exec_firmwareActivate_prefers h hvalid hsvn (by simp [hlater]), if_neg hlater]

theorem exec_firmwareActivate_now (hnow : c.p 12 1 = 1) (hmay : paired t = false ∨ t.rdB TWIN_ACTIVE = false) :
    exec (.firmwareActivate ring) s = .next (resetDevice CAUSE_ACTIVATE
      (c.done ST_OK 0 0 (firmwareEvent false (prefer (inactiveSlot t false) t)))) := by
  have hgo : (decide (c.p 12 1 = 1) && paired t && t.rdB TWIN_ACTIVE) = false := by
    rcases hmay with h | h <;> simp [h]
  rw [exec_firmwareActivate_prefers h hvalid hsvn hgo, if_pos hnow]

end

end

/-! ### The statements settled -/

/-- Settles O7: each command by its law above. -/
theorem deviceCommandsComplete : Obligations.DeviceCommandsComplete :=
  ⟨fun _ _ _ _ => exec_nop_completes, fun _ _ _ _ _ => exec_hello_agrees, fun _ _ _ _ => exec_queryDevice_device,
    fun _ _ _ _ _ => exec_queryDevice_tensor, fun _ _ _ _ => exec_queryDevice_hull,
    fun _ _ _ _ _ => exec_queryRequest_found, fun _ _ _ _ => exec_queryRequest_elsewhere,
    fun _ _ _ _ _ => exec_tenantBind_binds, fun _ _ _ _ => exec_tenantUnbind_unbinds,
    fun _ _ _ _ => exec_budgetSet_sets, fun _ _ _ _ => exec_budgetQuery_answers⟩

/-- Settles O8: each command by its law above. -/
theorem tensorCommandsComplete : Obligations.TensorCommandsComplete :=
  ⟨fun _ _ _ _ _ _ _ => exec_tensorDefine_defines, fun _ _ _ _ => exec_tensorWrite_starts,
    fun _ _ _ _ => exec_tensorRead_starts, fun _ _ _ _ => exec_tensorWrite_channel,
    fun _ _ _ _ => exec_tensorRead_channel, fun _ _ _ _ => exec_tensorFree_frees,
    fun _ _ _ _ => exec_tensorClass_sets, fun _ _ _ _ => exec_variantLoad_reads⟩

/-- Settles O9: each command by its law above. -/
theorem flashCommandsComplete : Obligations.FlashCommandsComplete :=
  ⟨fun _ _ _ _ => exec_variantArchive_reads, fun _ _ _ _ => exec_variantArchive_removes,
    fun _ _ _ _ => exec_baseInstall_reads, fun _ _ _ _ _ => exec_baseStage_starts,
    fun _ _ _ _ _ _ _ _ _ => pumpBaseStage_finishes⟩

/-- Settles O13: each command by its law above. -/
theorem powerCommandsComplete : Obligations.PowerCommandsComplete :=
  ⟨fun _ _ _ _ => exec_powerPolicy_writes, fun _ _ _ _ => exec_rampSet_writes,
    fun _ _ _ _ => exec_lifecycleAdvance_resets,
    fun _ _ _ _ _ _ _ _ h hhulls hm hn hd hu =>
      ⟨exec_wipe_completes h hhulls hm hn hd hu, exec_wipe_powersOff h hhulls hm hn hd hu⟩,
    fun _ _ _ _ _ _ => exec_firmwareStage_reads,
    fun _ _ _ _ h hvalid hsvn => ⟨exec_firmwareActivate_later h hvalid hsvn, exec_firmwareActivate_now h hvalid hsvn⟩⟩

end Sys2Proof.Machine
end

section
/-! PROOFS. What the recorder does with an event and with a clear (R440–R443), the log ring, traces, telemetry and sampling
(R449–R458), the responders of the sideband (R408, R437) and the guardian's sample (R426–R428). -/

namespace Sys2Proof.Machine

/-! ### Register fields across writes elsewhere -/

theorem rd_of_word_eq {s t : State} {f : Fld} (h : s.word f.off = t.word f.off) : s.rd f = t.rd f := by
  rw [State.rd, State.rd, State.rd32, State.rd32, h]

theorem rd_wr32_ne (s : State) {off : Nat} (v : Nat) {f : Fld} (h : f.off ≠ off) : (s.wr32 off v).rd f = s.rd f :=
  rd_of_word_eq (by rw [wr32_word, if_neg h])

theorem rd_addSat_ne (s : State) {off : Nat} (n : Nat) {f : Fld} (h : f.off ≠ off) : (s.addSat off n).rd f = s.rd f :=
  rd_wr32_ne s _ h

theorem rd_wr64_ne (s : State) {off : Nat} (v : Nat) {f : Fld} (hlo : f.off ≠ off) (hhi : f.off ≠ off + 4) :
    (s.wr64 off v).rd f = s.rd f :=
  rd_of_word_eq (wr64_word_ne s off v f.off hlo hhi)

theorem rd_raise_disjoint (s : State) (off b : Nat) (f : Fld) (hf : f.lo + f.w ≤ 32)
    (h : f.off ≠ off ∨ f.lo + f.w ≤ b ∨ b + 1 ≤ f.lo) : (s.raise off b).rd f = s.rd f :=
  rd_wr_disjoint s ⟨off, b, 1⟩ f 1 hf h

/-- A signal changes pending bits, the rings' coalescing and what has left, and nothing that a register word shows. -/
theorem signalVector_frame (fn vec : Nat) (s : State) :
    ∃ h o, signalVector fn vec s = { s with host := h, out := o } := by
  rw [signalVector, State.signalMsi]
  split <;> exact ⟨_, _, rfl⟩

/-! ### The recorder (R440–R443, R447, R448) -/

/-- The record takes its place, COUNT counts it, and the last place stops the recorder (R441). -/
def storeRecord (r : Record) (s : State) : State :=
  let t := State.wr { s with obs := { s.obs with
    records := s.obs.records ++ [r]
    perCode := tput s.obs.perCode r.code (tget s.obs.perCode r.code 0 + 1) 0 } } EVR_COUNT (s.rd EVR_COUNT + 1)
  if s.rd EVR_COUNT + 1 = 4096 then (t.wr EVR_STOPPED 1).raise EVR_STATUS 1 else t

/-- What a record of a code sets off: its trigger and its interrupt (R447, R448). -/
def afterRecord (code : Nat) (s : State) : State :=
  let t :=
    if s.rdB EVR_TRIG_EN && s.rd EVR_TRIG_CODE = code then
      let t := (s.raise EVR_STATUS 2).wr EVR_TRIG_EN 0
      if t.rdB EVR_TRIG_STOP && t.rdB SMP_RUNNING then t.endSampling.raise SMP_STATUS 3 else t
    else s
  if t.rdB EVR_INT_EN && bit (t.rd EVR_INT_CLASSES) (code / 256) then signalVector 0 (t.rd EVR_INT_VECTOR) t else t

theorem writeRecord_eq (r : Record) (s : State) : writeRecord r s = afterRecord r.code (storeRecord r s) := rfl

theorem afterRecord_obs (code : Nat) (s : State) : (afterRecord code s).obs = s.obs := by
  have htrigger : ∀ t : State, (if t.rdB EVR_INT_EN && bit (t.rd EVR_INT_CLASSES) (code / 256)
      then signalVector 0 (t.rd EVR_INT_VECTOR) t else t).obs = t.obs := by
    intro t
    split
    · obtain ⟨h, o, e⟩ := signalVector_frame 0 (t.rd EVR_INT_VECTOR) t
      rw [e]
    · rfl
  rw [afterRecord, htrigger]
  split
  · dsimp only
    split <;> rfl
  · rfl

/-- Trigger and interrupt change the recorder's registers only in the trigger's own flag and enable, and end a session. -/
theorem afterRecord_rd (code : Nat) (s : State) (f : Fld) (hf : f.lo + f.w ≤ 32)
    (hflag : f.off ≠ EVR_STATUS ∨ f.lo + f.w ≤ 2) (htrig : f.off ≠ EVR_TRIG_EN.off) (hsmp : f.off ≠ SMP_STATUS) :
    (afterRecord code s).rd f = s.rd f := by
  have hinterrupt : ∀ t : State, (if t.rdB EVR_INT_EN && bit (t.rd EVR_INT_CLASSES) (code / 256)
      then signalVector 0 (t.rd EVR_INT_VECTOR) t else t).rd f = t.rd f := by
    intro t
    split
    · obtain ⟨h, o, e⟩ := signalVector_frame 0 (t.rd EVR_INT_VECTOR) t
      rw [e]
      rfl
    · rfl
  have hfired : ((s.raise EVR_STATUS 2).wr EVR_TRIG_EN 0).rd f = s.rd f := by
    rw [rd_wr_disjoint _ _ _ _ hf (.inl htrig), rd_raise_disjoint _ _ _ _ hf (hflag.imp id .inl)]
  have hended : ∀ t : State, (t.endSampling.raise SMP_STATUS 3).rd f = t.rd f := by
    intro t
    rw [rd_raise_disjoint _ _ _ _ hf (.inl hsmp), State.endSampling, rd_wr_disjoint _ _ _ _ hf (.inl hsmp)]
  rw [afterRecord, hinterrupt]
  split
  · dsimp only
    split
    · rw [hended, hfired]
    · exact hfired
  · rfl

theorem storeRecord_obs (r : Record) (s : State) : (storeRecord r s).obs = { s.obs with
    records := s.obs.records ++ [r]
    perCode := tput s.obs.perCode r.code (tget s.obs.perCode r.code 0 + 1) 0 } := by
  rw [storeRecord]
  split <;> rfl

theorem storeRecord_count (r : Record) {s : State} (h : s.rd EVR_COUNT < 4096) :
    (storeRecord r s).rd EVR_COUNT = s.rd EVR_COUNT + 1 := by
  have hwrite : ∀ t : State, (t.wr EVR_COUNT (s.rd EVR_COUNT + 1)).rd EVR_COUNT = s.rd EVR_COUNT + 1 := by
    intro t
    rw [rd_wr_same _ _ _ (by decide)]
    exact Nat.mod_eq_of_lt (by simp only [EVR_COUNT] at h ⊢; omega)
  rw [storeRecord]
  split
  · rw [rd_raise_disjoint _ _ _ _ (by decide) (.inl (by decide)), rd_wr_disjoint _ _ _ _ (by decide) (.inl (by decide)),
      hwrite]
  · exact hwrite _

theorem storeRecord_stops (r : Record) {s : State} (h : s.rd EVR_COUNT = 4095) :
    (storeRecord r s).rdB EVR_STOPPED = true := by
  rw [storeRecord, h, if_pos rfl, State.rdB, rd_raise_disjoint _ _ _ _ (by decide) (.inr (.inl (by decide))),
    rd_wr_same _ _ _ (by decide)]
  rfl

section
variable {st : DWord} {code : Nat} {h te : Option Nat} {pl : BitVec 768} {s : State}

theorem recordEvent_loaded (hloaded : s.obs.loaded = true) :
    recordEvent code h te pl s = recordAt s.counter code h te pl s := by
  rw [recordEvent, if_pos hloaded]

theorem recordAt_masked (hmask : bit (s.rd64 EVR_MASK) (code / 256) = false) :
    recordAt st code h te pl s = s.addSat EVR_MASKED 1 := by
  rw [recordAt, hmask]
  rfl

variable (hmask : bit (s.rd64 EVR_MASK) (code / 256) = true)
include hmask

theorem recordAt_suppressed (hmany : 16 ≤ tget s.obs.perCode code 0) :
    recordAt st code h te pl s = s.addSat EVR_SUPPRESSED 1 := by
  simp only [recordAt, hmask, hmany, Bool.not_true, Bool.false_eq_true, if_false, if_true]

variable (hfew : tget s.obs.perCode code 0 < 16)
include hfew

theorem recordAt_lost (hfull : 4096 ≤ s.rd EVR_COUNT) : recordAt st code h te pl s =
    (if s.rd32 EVR_LOST = 0 then s.wr64 EVR_FIRST_LOST (code + 65536 * (st.toNat % 2 ^ 48)) else s).addSat EVR_LOST 1 := by
  simp only [recordAt, hmask, Nat.not_le.mpr hfew, hfull, Bool.not_true, Bool.false_eq_true, if_false, if_true]

theorem recordAt_written (hroom : s.rd EVR_COUNT < 4096) : recordAt st code h te pl s =
    writeRecord ⟨st, code, s.rd EVR_COUNT, h, te, s.deviceByte, s.rd32 EVR_GEN, pl⟩ s := by
  simp only [recordAt, hmask, Nat.not_le.mpr hfew, Nat.not_le.mpr hroom, Bool.not_true, Bool.false_eq_true, if_false]

end

theorem writeRecord_count (r : Record) {s : State} (h : s.rd EVR_COUNT < 4096) :
    (writeRecord r s).rd EVR_COUNT = s.rd EVR_COUNT + 1 := by
  rw [writeRecord_eq, afterRecord_rd _ _ _ (by decide) (.inl (by decide)) (by decide) (by decide), storeRecord_count r h]

theorem writeRecord_stops (r : Record) {s : State} (h : s.rd EVR_COUNT = 4095) :
    (writeRecord r s).rdB EVR_STOPPED = true := by
  rw [writeRecord_eq, State.rdB, afterRecord_rd _ _ _ (by decide) (.inr (by decide)) (by decide) (by decide)]
  exact storeRecord_stops r h

theorem writeRecord_obs (r : Record) (s : State) : (writeRecord r s).obs = { s.obs with
    records := s.obs.records ++ [r]
    perCode := tput s.obs.perCode r.code (tget s.obs.perCode r.code 0 + 1) 0 } := by
  rw [writeRecord_eq, afterRecord_obs, storeRecord_obs]

theorem writeRecord_records (r : Record) (s : State) : (writeRecord r s).obs.records = s.obs.records ++ [r] := by
  rw [writeRecord_obs]

theorem writeRecord_perCode (r : Record) (s : State) :
    tget (writeRecord r s).obs.perCode r.code 0 = tget s.obs.perCode r.code 0 + 1 := by
  simp only [writeRecord_obs, tget_tput_same]

/-- COUNT is the number of records, and the recorder holds at most 4,096 (R441). -/
def RecordsCounted (s : State) : Prop := s.rd EVR_COUNT = s.obs.records.length ∧ s.obs.records.length ≤ 4096

theorem recordAt_keeps_counted {s : State} (hs : RecordsCounted s) (st : DWord) (code : Nat) (h te : Option Nat)
    (pl : BitVec 768) : RecordsCounted (recordAt st code h te pl s) := by
  have hkeep : ∀ (t : State) {off : Nat} (n : Nat), RecordsCounted t → EVR_COUNT.off ≠ off → RecordsCounted (t.addSat off n) :=
    fun t off n ht hoff => ⟨(rd_addSat_ne t n hoff).trans ht.1, ht.2⟩
  cases hmask : bit (s.rd64 EVR_MASK) (code / 256) with
  | false =>
    rw [recordAt_masked hmask]
    exact hkeep s 1 hs (by decide)
  | true =>
    rcases Nat.lt_or_ge (tget s.obs.perCode code 0) 16 with hfew | hmany
    · rcases Nat.lt_or_ge (s.rd EVR_COUNT) 4096 with hroom | hfull
      · rw [recordAt_written hmask hfew hroom]
        rw [RecordsCounted, writeRecord_count _ hroom, writeRecord_records, List.length_append, List.length_singleton]
        obtain ⟨hcount, _⟩ := hs
        omega
      · rw [recordAt_lost hmask hfew hfull]
        refine hkeep _ 1 ?_ (by decide)
        split
        · exact ⟨(rd_wr64_ne s _ (by decide) (by decide)).trans hs.1, hs.2⟩
        · exact hs
    · rw [recordAt_suppressed hmask hmany]
      exact hkeep s 1 hs (by decide)

/-! ### The recorder's clear (R441, R443) -/

theorem clearRecorder_count (s : State) : (clearRecorder s).rd EVR_COUNT = 0 := by
  rw [clearRecorder, rd_wr64_ne _ _ (by decide) (by decide), rd_wr32_ne _ _ (by decide), State.addWrap,
    rd_wr32_ne _ _ (by decide), rd_wr_disjoint _ _ _ _ (by decide) (.inl (by decide)), rd_wr_same _ _ _ (by decide)]
  rfl

theorem clearRecorder_stopped (s : State) : (clearRecorder s).rdB EVR_STOPPED = false := by
  rw [State.rdB, clearRecorder, rd_wr64_ne _ _ (by decide) (by decide), rd_wr32_ne _ _ (by decide), State.addWrap,
    rd_wr32_ne _ _ (by decide), rd_wr_same _ _ _ (by decide)]
  rfl

theorem clearRecorder_lost (s : State) :
    (clearRecorder s).rd32 EVR_LOST = 0 ∧ (clearRecorder s).rd64 EVR_FIRST_LOST = 0 := by
  refine ⟨?_, rd64_wr64_same _ _ _⟩
  rw [clearRecorder, State.rd32, wr64_word_ne _ _ _ _ (by decide) (by decide), ← State.rd32, rd32_wr32, if_pos rfl]
  rfl

theorem clearRecorder_gen (s : State) : (clearRecorder s).rd32 EVR_GEN = (s.rd32 EVR_GEN + 1) % 2 ^ 32 := by
  have hbefore : ∀ t : State, ((t.wr EVR_COUNT 0).wr EVR_STOPPED 0).rd32 EVR_GEN = t.rd32 EVR_GEN := by
    intro t
    rw [State.rd32, wr_word_ne _ _ _ _ (by decide), wr_word_ne _ _ _ _ (by decide), ← State.rd32]
  rw [clearRecorder, State.rd32, wr64_word_ne _ _ _ _ (by decide) (by decide), ← State.rd32, rd32_wr32, if_neg (by decide),
    State.addWrap, rd32_wr32, if_pos rfl, hbefore]
  rfl

section
variable {s : State}

theorem clearRecords_obs : (clearRecords s).obs.copy = [] ∧
    (clearRecords s).obs.records = if s.obs.loaded then [] else s.obs.records := by
  rw [clearRecords]
  cases s.obs.loaded <;> exact ⟨rfl, rfl⟩

/-- With the records loaded, the clear acts on the register words as the recorder's own does. -/
theorem clearRecords_word_loaded (h : s.obs.loaded = true) (o : Nat) :
    (clearRecords s).word o = (clearRecorder s).word o := by
  rw [clearRecords_word, if_pos h]

theorem clearRecords_keeps_counted (hs : RecordsCounted s) : RecordsCounted (clearRecords s) := by
  rw [RecordsCounted, clearRecords_obs.2]
  cases h : s.obs.loaded with
  | true => exact ⟨(rd_of_word_eq (clearRecords_word_loaded h _)).trans (clearRecorder_count s), Nat.zero_le _⟩
  | false =>
    refine ⟨(rd_of_word_eq ?_).trans hs.1, hs.2⟩
    rw [clearRecords_word, h]
    rfl

theorem clearRecords_registers (h : s.obs.loaded = true) : (clearRecords s).rd EVR_COUNT = 0 ∧
    (clearRecords s).rdB EVR_STOPPED = false ∧ (clearRecords s).rd32 EVR_LOST = 0 ∧
    (clearRecords s).rd64 EVR_FIRST_LOST = 0 ∧ (clearRecords s).rd32 EVR_GEN = (s.rd32 EVR_GEN + 1) % 2 ^ 32 := by
  have hrd : ∀ f : Fld, (clearRecords s).rd f = (clearRecorder s).rd f :=
    fun f => rd_of_word_eq (clearRecords_word_loaded h _)
  have hrd32 : ∀ o, (clearRecords s).rd32 o = (clearRecorder s).rd32 o :=
    fun o => congrArg BitVec.toNat (clearRecords_word_loaded h o)
  refine ⟨(hrd _).trans (clearRecorder_count s), ?_, (hrd32 _).trans (clearRecorder_lost s).1, ?_,
    (hrd32 _).trans (clearRecorder_gen s)⟩
  · rw [State.rdB, hrd]
    exact clearRecorder_stopped s
  · rw [State.rd64, hrd32, hrd32]
    exact (clearRecorder_lost s).2

end

/-! ### Recorder, trace and telemetry commands (R440, R441, R443, R453, R455) -/

section
variable {ring : Nat} {s t : State} {c : Cmd}

theorem exec_recorderArm_masks (h : ready 0x60 ring s c t) :
    exec (.recorderArm ring) s = .next (c.done ST_OK 0 0 (t.wr64 EVR_MASK (c.p 12 8))) := by
  rw [exec_recorderArm, execRecorderArm, hostCommand_ready h]

theorem exec_recorderClear_clears (h : ready 0x61 ring s c t) :
    exec (.recorderClear ring) s = .next (c.done ST_OK 0 0 (clearRecords t)) := by
  rw [exec_recorderClear, execRecorderClear, hostCommand_ready h]

theorem exec_eventPersist_copies (h : s.obs.loaded = true) : exec .eventPersist s = .next { s with obs := { s.obs with
    copy := s.obs.records, savedLost := s.rd32 EVR_LOST, savedFirst := BitVec.ofNat 64 (s.rd64 EVR_FIRST_LOST)
    savedGen := s.rd32 EVR_GEN } } := by
  rw [exec_eventPersist, execEventPersist, h]
  rfl

theorem exec_traceMask_sets (h : ready 0x62 ring s c t) : exec (.traceMask ring) s = .next (c.done ST_OK 0 0
    ((List.range (c.p 14 2)).foldl (fun s i => s.wr (TRC_ENABLE (c.p 12 2 + i)) (c.p 16 1)) t)) := by
  rw [exec_traceMask, execTraceMask, hostCommand_ready h]

theorem exec_telemetryRead_writes {size n : Nat} {body : List Byte} (h : ready 0x65 ring s c t)
    (hpage : telemetryPage t (c.p 24 1) = some (size, n, body)) (hfits : size ≤ c.p 20 4) :
    exec (.telemetryRead ring) s = .next (c.done ST_OK size 0 (dmaOut c.fn (c.p 12 8)
      ((fieldBytes 64 [(0, 8, t.counter.toNat), (8, 1, c.p 24 1), (12, 4, n)] ++ body ++ zeros size).take size) t)) := by
  rw [exec_telemetryRead, execTelemetryRead, hostCommand_ready h]
  simp only [hpage, Nat.not_lt.mpr hfits, if_false]

/-! ### The log ring (R449, R450) -/

theorem exec_logEnable_starts (hlink : linkLive s = true) (hoff : s.rdB LOG_ENABLE = false) :
    exec (.logEnable 0) s = .next (((s.wr LOG_HEAD 0).wr LOG_TAIL 0).wr LOG_ENABLE 1) := by
  rw [exec_logEnable, execLogEnable, overPcie_live hlink, if_neg (by decide), enableLog, hoff]
  rfl

theorem exec_logTailWrite_moves {v : Word} (hlink : linkLive s = true)
    (hused : (bits v.toNat 0 11 + 2048 - s.rd LOG_TAIL) % 2048 ≤ (s.rd LOG_HEAD + 2048 - s.rd LOG_TAIL) % 2048) :
    exec (.logTailWrite 0 v) s = .next (s.wr LOG_TAIL (bits v.toNat 0 11)) := by
  rw [exec_logTailWrite, execLogTailWrite, overPcie_live hlink, if_neg (by decide), reportTail]
  simp only [hused, if_true]

theorem exec_logEntryWrite_writes {e : LogEntry} {u : State} (hon : s.rdB LOG_ENABLE = true)
    (hroom : (s.rd LOG_HEAD + 2048 - s.rd LOG_TAIL) % 2048 < 1024) (hnext : nextLog s = some (e, u)) :
    exec (.logEntryWrite false) s = .next (dmaOut 0 (s.rd64 LOG_BASE + 64 * (s.rd LOG_HEAD % 1024))
      (logBytes e (bits u.fresh.1.toNat 0 2) (s.rd LOG_HEAD < 1024))
      (u.fresh.2.wr LOG_HEAD ((s.rd LOG_HEAD + 1) % 2048))) := by
  simp only [exec_logEntryWrite, execLogEntryWrite, hon, Nat.not_le.mpr hroom, hnext, Bool.not_true, decide_false,
    Bool.or_self, Bool.false_eq_true, if_false]

/-! ### Queue-depth sampling (R456, R457) -/

theorem exec_sampleStart_starts (h : ready 0x63 ring s c t) : exec (.sampleStart ring) s =
    .next (c.done ST_OK (if t.rdB SMP_RUNNING then t.obs.sample.pos else 0) 0 ((({ t with obs := { t.obs with
      sample := { buf := c.p 12 8, len := c.p 20 4, mask := c.p 28 10, period := c.p 24 4 } } }.wr64 SMP_BYTES 0).wr32
        SMP_SAMPLES 0).wr SMP_RUNNING 1)) := by
  rw [exec_sampleStart, execSampleStart, hostCommand_ready h]

theorem exec_sampleStop_stops (h : ready 0x64 ring s c t) (hrunning : t.rdB SMP_RUNNING = true) :
    exec (.sampleStop ring) s = .next (c.done ST_OK t.obs.sample.pos 0 t.endSampling) := by
  rw [exec_sampleStop, execSampleStop, hostCommand_ready h, if_pos hrunning]

theorem exec_sampleStop_idle (h : ready 0x64 ring s c t) (hidle : t.rdB SMP_RUNNING = false) :
    exec (.sampleStop ring) s = .next (c.done ST_OK 0 0 t) := by
  rw [exec_sampleStop, execSampleStop, hostCommand_ready h, hidle]
  rfl

end

section
variable {s u : State} {m : Sample} {ps : List Nat} (hrunning : s.rdB SMP_RUNNING = true) (hm : m = s.obs.sample)
  (hps : ps = (List.range 80).filter (fun p => bit m.mask p))
include hrunning hm hps

theorem exec_sampleCapture_writes (hfits : m.pos + 4096 * ps.length ≤ m.len)
    (hu : u = (ps.zip (List.range ps.length)).foldl (fun t (x : Nat × Nat) =>
      dmaOut 0 (m.buf + m.pos + 4096 * x.2) (podSample t x.1 m.taken) t) s) : exec (.sampleCapture .written) s =
    .next ((State.wr64 { u with obs := { u.obs with
      sample := { m with pos := m.pos + 4096 * ps.length, taken := m.taken + 1 } } } SMP_BYTES
        (u.rd64 SMP_BYTES + 4096 * ps.length)).addSat SMP_SAMPLES 1) := by
  subst hu
  simp only [exec_sampleCapture, execSampleCapture, hrunning, ← hm, ← hps, Nat.not_lt.mpr hfits, Bool.not_true,
    Bool.false_eq_true, if_false]
  rfl

theorem exec_sampleCapture_full (hfull : m.len < m.pos + 4096 * ps.length) :
    exec (.sampleCapture .written) s = .next (s.endSampling.raise SMP_STATUS 1) := by
  simp only [exec_sampleCapture, execSampleCapture, hrunning, ← hm, ← hps, hfull, Bool.not_true, Bool.false_eq_true,
    if_false, if_true]

theorem exec_sampleCapture_error (hfits : m.pos + 4096 * ps.length ≤ m.len) : exec (.sampleCapture .writeError) s =
    .next (dmaErrorEvent (m.buf + m.pos) 0 2 (s.endSampling.raise SMP_STATUS 2)) := by
  simp only [exec_sampleCapture, execSampleCapture, hrunning, ← hm, ← hps, Nat.not_lt.mpr hfits, Bool.not_true,
    Bool.false_eq_true, if_false]

omit hps in
theorem exec_sampleCapture_skips (htaken : m.taken ≠ 0) :
    exec (.sampleCapture .skipped) s = .next (s.addSat SMP_SKIPPED 1) := by
  simp only [exec_sampleCapture, execSampleCapture, hrunning, ← hm, htaken, Bool.not_true, Bool.false_eq_true, if_false]

end

/-! ### The sideband and the DOE mailbox (R408, R437) -/

section
variable {s : State}

theorem exec_spdmRequest_answers (req : SpdmReq) (hgood : s.pwr.good = true) (hstarted : 5 ≤ s.boot.done)
    (hnormal : s.boot.recovery = false) :
    exec (.spdmRequest req) s = .next ((spdmAnswer req s).2.emit (.spdm (spdmAnswer req s).1)) := by
  simp only [exec_spdmRequest, execSpdmRequest, hgood, Nat.not_lt.mpr hstarted, hnormal, Bool.not_true, decide_false,
    Bool.or_self, Bool.false_eq_true, if_false]

variable (hgood : s.pwr.good = true) (hright : s.pwr.reversed = false)
include hgood hright

theorem exec_i3cRead_answers (off : Nat) : exec (.i3cRead off) s = .next (s.emit (.i3c (i3cWord off s))) := by
  simp only [exec_i3cRead, execI3cRead, hgood, hright, Bool.not_true, Bool.or_self, Bool.false_eq_true, if_false]

/-- The TAP takes a named instruction in every life-cycle state; IDCODE puts the code out. -/
theorem exec_boundaryScan_named {i : TapInstr} (hnamed : ∀ code, i ≠ .other code) :
    exec (.boundaryScanInstruction i) s = .next (if i = .idcode
      then { s with pwr := { s.pwr with tap := i } }.emit (.tdo 0x126409AF#32) else { s with pwr := { s.pwr with tap := i } }) := by
  cases i with
  | other code => exact absurd rfl (hnamed code)
  | _ =>
    simp only [exec_boundaryScanInstruction, execBoundaryScanInstruction, hgood, hright]
    rfl

theorem exec_boundaryScan_private (code : Nat) (hfactory : s.rd LC_STATE = 0) :
    exec (.boundaryScanInstruction (.other code)) s = .refused .privateTapInstruction := by
  simp only [exec_boundaryScanInstruction, execBoundaryScanInstruction, hgood, hright, hfactory, Bool.not_true, Bool.or_self,
    Bool.false_eq_true, if_false, if_true]

end

theorem exec_boundaryScan_ignored {s : State} (code : Nat) (hleft : s.rd LC_STATE ≠ 0) :
    exec (.boundaryScanInstruction (.other code)) s = .next s := by
  simp only [exec_boundaryScanInstruction, execBoundaryScanInstruction, hleft, if_false, ite_self]

/-! ### The guardian's sample (R426–R428) -/

section
variable {g : GuardSample} {s t u v : State} (hgood : s.pwr.good = true)
  (ht : t = railFaults g (noteInput g (noteReadings g s)))
include hgood ht

/-- After the readings, the input and the rails, a sensor over the trip temperature trips, or the slower rows act. -/
theorem exec_guardianSample_acts
    (hu : (tripSensor g t = none ∧ u = t) ∨ (∃ r, tripSensor g t = some r ∧ u = trip r.sensor (tempBits r.temp) t))
    (hv : v = refreshThrottle (guardBreaches (if u.pwr.tripped then u
      else inputLimits g (thermalStacks g (thermalPods g (sensorFaults g u)))))) :
    exec (.guardianSample g) s = .next (if v.rdB GRD_ACTIVE then v.addSat GRD_THROTTLE_US 10 else v) := by
  subst hv
  rw [exec_guardianSample, execGuardianSample, hgood]
  rcases hu with ⟨hcool, rfl⟩ | ⟨r, hhot, rfl⟩
  · simp only [← ht, hcool, Bool.not_true, Bool.false_eq_true, if_false]
  · simp only [← ht, hhot, Bool.not_true, Bool.false_eq_true, if_false]

end

/-! ### The statements settled -/

/-- Settles O29: each command by its law above; an event by the tests of `recordAt`, and COUNT by what keeps it. -/
theorem observationCompletes : Obligations.ObservationCompletes := by
  refine ⟨fun _ _ _ _ => exec_recorderArm_masks, fun _ _ _ _ => exec_recorderClear_clears, fun _ => exec_eventPersist_copies,
    fun _ _ _ _ => exec_traceMask_sets, fun _ => exec_logEnable_starts, fun _ _ => exec_logTailWrite_moves,
    fun _ _ _ => exec_logEntryWrite_writes, fun ring s c t size n body => exec_telemetryRead_writes,
    fun _ _ _ _ => exec_sampleStart_starts, fun _ _ _ _ => exec_sampleStop_stops, fun _ _ _ _ => exec_sampleStop_idle,
    ?_, fun _ _ _ _ _ => recordEvent_loaded, fun _ _ _ _ _ _ => ⟨recordAt_masked, recordAt_suppressed, recordAt_lost⟩,
    ?_, ?_, ?_⟩
  · exact fun s m ps u hrunning hm hps => ⟨exec_sampleCapture_writes hrunning hm hps,
      exec_sampleCapture_full hrunning hm hps, exec_sampleCapture_error hrunning hm hps, exec_sampleCapture_skips hrunning hm⟩
  · rintro st code h te pl s u hmask hfew hroom rfl
    rw [recordAt_written hmask hfew hroom]
    exact ⟨writeRecord_records _ s, writeRecord_perCode _ s, writeRecord_count _ hroom, writeRecord_stops _⟩
  · rintro s u hcount hmost (⟨st, code, h, te, pl, rfl⟩ | rfl)
    · exact recordAt_keeps_counted ⟨hcount, hmost⟩ st code h te pl
    · exact clearRecords_keeps_counted ⟨hcount, hmost⟩
  · rintro s u hloaded rfl
    obtain ⟨hcopy, hrecords⟩ := clearRecords_obs (s := s)
    exact ⟨hrecords.trans (if_pos hloaded), hcopy, clearRecords_registers hloaded⟩

/-- Settles O20: the responders answer as their maps say, and the TAP takes the named instructions. -/
theorem sidebandCompletes : Obligations.SidebandCompletes := by
  refine ⟨fun req _ => exec_spdmRequest_answers req, ?_, ?_, ?_, fun _ code => exec_boundaryScan_ignored code⟩
  · intro s hgood hright
    have hread := exec_i3cRead_answers hgood hright
    exact ⟨hread 0x00, hread 0x04, hread 0x08, hread 0x1C, hread 0x10, hread 0x14, hread 0x18, hread 0x20⟩
  · intro s hgood hright
    refine ⟨?_, ?_, ?_, ?_⟩ <;> rw [exec_boundaryScan_named hgood hright (by intro code; nofun)] <;> rfl
  · exact fun s code hgood hright => exec_boundaryScan_private hgood hright code

/-- Settles O19. -/
theorem guardianSampleCompletes : Obligations.GuardianSampleCompletes := fun _ _ _ _ _ => exec_guardianSample_acts

end Sys2Proof.Machine
end

section
/-! PROOFS. What a reset leaves (R396, R398, R399, R402, R416, R418), the events that reset the device (R396, R420, R427, R432,
R435) and the steps of the boot (R239, R400, R404, R417, R443). -/

namespace Sys2Proof.Machine

/-! ### What the operations around a reset leave -/

theorem driveAlert_frame (s : State) :
    ∃ a o, driveAlert s = { s with pwr := { s.pwr with alertLow := a }, out := o } := by
  rw [driveAlert]
  split
  · exact ⟨_, _, rfl⟩
  · dsimp only
    split <;> exact ⟨_, _, rfl⟩

theorem setTwa_frame (code : Nat) (s : State) :
    ∃ n o, setTwa code s = { s with twin := { s.twin with twaOut := n }, out := o } := by
  rw [setTwa]
  split
  · exact ⟨_, _, rfl⟩
  · dsimp only
    split <;> exact ⟨_, _, rfl⟩

theorem raise_frame (s : State) (off b : Nat) :
    ∃ w x, s.raise off b = { s with bar := w, host := { s.host with companion := x } } := ⟨_, _, rfl⟩

theorem syncFrame_word_ne (s : State) {o : Nat} (hslot : o ≠ CYC_SLOT.off) (hlo : o ≠ CYC_FRAME) (hhi : o ≠ CYC_FRAME + 4) :
    (syncFrame s).word o = s.word o := by
  rw [syncFrame]
  exact (wr64_word_ne _ _ _ _ hlo hhi).trans (wr_word_ne _ _ _ _ hslot)

/-! ### A reset of any cause (R396, R398, R399, R416) -/

/-- The state cleared and set to run its boot ROM: the counter starts anew at power-on alone (R398). -/
def resetCore (cause : Nat) (s : State) : State :=
  let now : DWord := if cause = CAUSE_POWER_ON then 0 else (clearDevice cause s).counter
  { clearDevice cause s with
    counter := now
    boot := { (clearDevice cause s).boot with prevTime := s.rd ⟨PWR_BOOT_TIME, 0, 16⟩, since := now.toNat, done := 1 }
    pwr := { (clearDevice cause s).pwr with alertLow := s.pwr.alertLow } }

/-- A flag raised where a condition holds. -/
def raiseIf (c : Prop) [Decidable c] (off b : Nat) (s : State) : State := if c then s.raise off b else s

/-- A device that has tripped a second time stays parked (R427). -/
def stayParked (s : State) : State := if s.pwr.secondTrip then s.wr BOOT_PARKED 1 else s

/-- The registers of a reset: the cause and the count, and the flags of a watchdog, a trip and a second trip. -/
def noteReset (cause : Nat) (s : State) : State :=
  stayParked (raiseIf (cause = CAUSE_TRIP) GRD_STATUS 4 (raiseIf (cause = CAUSE_WATCHDOG) PWR_BOOT_STATUS 15
    ((s.wr PWR_RESET_CAUSE cause).addSat PWR_RESET_COUNT 1)))

theorem resetDevice_eq (cause : Nat) (s : State) :
    resetDevice cause s = driveAlert (setTwa 4 (clearDue (syncFrame (noteReset cause (resetCore cause s))))) := by
  unfold resetDevice noteReset stayParked raiseIf resetCore
  with_reducible rfl

theorem raiseIf_frame (c : Prop) [Decidable c] (off b : Nat) (s : State) :
    ∃ w x, raiseIf c off b s = { s with bar := w, host := { s.host with companion := x } } := by
  rw [raiseIf]
  split <;> exact ⟨_, _, rfl⟩

theorem stayParked_frame (s : State) : ∃ w, stayParked s = { s with bar := w } := by
  rw [stayParked]
  split <;> exact ⟨_, rfl⟩

theorem noteReset_frame (cause : Nat) (s : State) :
    ∃ w x, noteReset cause s = { s with bar := w, host := { s.host with companion := x } } := by
  rw [noteReset]
  obtain ⟨_, _, hwatchdog⟩ := raiseIf_frame (cause = CAUSE_WATCHDOG) PWR_BOOT_STATUS 15
    ((s.wr PWR_RESET_CAUSE cause).addSat PWR_RESET_COUNT 1)
  rw [hwatchdog]
  obtain ⟨_, _, htrip⟩ := raiseIf_frame (cause = CAUSE_TRIP) GRD_STATUS 4
    { (s.wr PWR_RESET_CAUSE cause).addSat PWR_RESET_COUNT 1 with bar := _, host := _ }
  rw [htrip]
  obtain ⟨_, hpark⟩ := stayParked_frame { s with bar := _, host := _ }
  exact ⟨_, _, hpark⟩

theorem raiseIf_rd (c : Prop) [Decidable c] {off : Nat} (b : Nat) {f : Fld} (s : State) (hf : f.lo + f.w ≤ 32)
    (h : f.off ≠ off) : (raiseIf c off b s).rd f = s.rd f := by
  rw [raiseIf]
  split
  · exact rd_raise_disjoint _ _ _ _ hf (.inl h)
  · rfl

theorem stayParked_rd {f : Fld} (s : State) (hf : f.lo + f.w ≤ 32) (h : f.off ≠ BOOT_PARKED.off) :
    (stayParked s).rd f = s.rd f := by
  rw [stayParked]
  split
  · exact rd_wr_disjoint _ _ _ _ hf (.inl h)
  · rfl

theorem noteReset_cause {cause : Nat} (s : State) (hcause : cause ≤ 8) : (noteReset cause s).rd PWR_RESET_CAUSE = cause := by
  rw [noteReset, stayParked_rd _ (by decide) (by decide), raiseIf_rd _ _ _ (by decide) (by decide),
    raiseIf_rd _ _ _ (by decide) (by decide), rd_addSat_ne _ _ (by decide), rd_wr_same _ _ _ (by decide)]
  exact Nat.mod_eq_of_lt (by simp only [PWR_RESET_CAUSE]; omega)

theorem keptHost_running (cause : Nat) (h : HostState) : (keptHost cause h).running = [] := by
  rw [keptHost]
  dsimp only
  split <;> rfl

theorem keptHost_husk (cause : Nat) (h : HostState) : (keptHost cause h).husk = [] := by
  rw [keptHost]
  dsimp only
  split <;> rfl

/-- Beside the state cleared, a reset sets registers, flags' counters, the schedule's place, and the outputs. -/
theorem resetDevice_frame (cause : Nat) (s : State) : ∃ w x c a n o, resetDevice cause s = { resetCore cause s with
    bar := w, host := { keptHost cause s.host with companion := x }, sched := c
    pwr := { (resetCore cause s).pwr with alertLow := a }, twin := { (resetCore cause s).twin with twaOut := n }, out := o } := by
  obtain ⟨w, x, hnote⟩ := noteReset_frame cause (resetCore cause s)
  obtain ⟨n, o, htwa⟩ := setTwa_frame 4 (clearDue (syncFrame (noteReset cause (resetCore cause s))))
  obtain ⟨a, p, halert⟩ := driveAlert_frame (setTwa 4 (clearDue (syncFrame (noteReset cause (resetCore cause s)))))
  rw [resetDevice_eq, halert, htwa, hnote]
  exact ⟨_, _, _, _, _, _, rfl⟩

theorem resetDevice_word (cause : Nat) (s : State) {o : Nat} (hslot : o ≠ CYC_SLOT.off) (hlo : o ≠ CYC_FRAME)
    (hhi : o ≠ CYC_FRAME + 4) : (resetDevice cause s).word o = (noteReset cause (resetCore cause s)).word o := by
  obtain ⟨n, p, htwa⟩ := setTwa_frame 4 (clearDue (syncFrame (noteReset cause (resetCore cause s))))
  obtain ⟨a, q, halert⟩ := driveAlert_frame (setTwa 4 (clearDue (syncFrame (noteReset cause (resetCore cause s)))))
  rw [resetDevice_eq, halert, htwa]
  exact syncFrame_word_ne _ hslot hlo hhi

theorem resetDevice_reversed (cause : Nat) (s : State) : (resetDevice cause s).pwr.reversed = s.pwr.reversed := by
  obtain ⟨w, x, c, a, n, o, h⟩ := resetDevice_frame cause s
  rw [h]
  rfl

/-! ### The loss of power (R420) -/

theorem losePower_frame (s : State) : ∃ o, losePower s = { clearDevice CAUSE_POWER_ON s with
    pwr := { keptPower s.pwr with good := false, budget := 0, alertLow := false }
    boot := { keptBoot CAUSE_POWER_ON s.boot with done := 0, prevTime := s.rd ⟨PWR_BOOT_TIME, 0, 16⟩ }
    twin := { twaOut := 0, twaIn := s.twin.twaIn }, out := o } := by
  rw [losePower]
  dsimp only
  split
  · exact ⟨_, rfl⟩
  · split <;> split <;> exact ⟨_, rfl⟩

/-! ### The events that reset the device (R396, R420, R427, R432, R435) -/

section
variable {s t : State}

theorem exec_powerGood_starts (hoff : s.pwr.good = false) (hright : s.pwr.reversed = false)
    (ht : t = resetDevice CAUSE_POWER_ON { s with pwr := { s.pwr with
      good := true, shorted := false, present := true, budget := 20000000, budgetAt := 0, secondTrip := false,
      lastTrip := none, resetLow := none } }) : exec .powerGood s =
    .next (State.emit { t with boot := { t.boot with prevTime := s.boot.prevTime } } (.pwrOk true)) := by
  have hout : t.pwr.reversed = false := by rw [ht, resetDevice_reversed, hright]
  rw [exec_powerGood, execPowerGood, hoff]
  simp only [← ht, hout, Bool.false_eq_true, if_false]

theorem exec_tripRecovery_resets (hgood : s.pwr.good = true) (htripped : s.pwr.tripped = true)
    (hcool : s.pwr.temps.all (fun x => signed x.2 16 ≤ 85 * 16) = true) :
    exec .tripRecovery s = .next (resetDevice 8 s) := by
  simp only [exec_tripRecovery, execTripRecovery, hgood, htripped, hcool, Bool.and_self, if_true]
  rfl

section
variable (hgood : s.pwr.good = true)
include hgood

theorem exec_inputOutOfRange_losesPower : exec .inputOutOfRange s = .next (losePower s) := by
  rw [exec_inputOutOfRange, execInputOutOfRange, if_pos hgood]

theorem exec_inputShort_opens : ∃ t, exec .inputShort s = .next t ∧ t.pwr.shorted = true ∧ t.pwr.good = false ∧
    t.bar = (losePower s).bar ∧ t.tiles = [] ∧ t.pods = [] := by
  obtain ⟨o, h⟩ := losePower_frame s
  refine ⟨{ losePower s with pwr := { (losePower s).pwr with shorted := true } }, ?_, rfl, ?_, rfl, ?_, ?_⟩
  · rw [exec_inputShort, execInputShort, hgood]
    rfl
  all_goals simp only [h, clearDevice]

theorem exec_perstAssert_resets : exec .perstAssert s = .next (resetDevice 1 s) := by
  rw [exec_perstAssert, execPerstAssert, hgood]
  rfl

theorem exec_hotReset_resets (hlink : s.host.linkUp = true) : exec .hotReset s = .next (resetDevice 2 s) := by
  rw [exec_hotReset, execHotReset, hgood, hlink]
  rfl

theorem exec_pcieLinkDown_resets (hlink : s.host.linkUp = true) : exec .pcieLinkDown s = .next (resetDevice 3 s) := by
  rw [exec_pcieLinkDown, execPcieLinkDown, hgood, hlink]
  rfl

theorem exec_mgmtWatchdogExpiry_resets (harmed : 5 ≤ s.boot.done) (hnormal : s.boot.recovery = false) :
    exec .mgmtWatchdogExpiry s = .next (resetDevice 6 s) := by
  simp only [exec_mgmtWatchdogExpiry, execMgmtWatchdogExpiry, hgood, harmed, hnormal, decide_true, Bool.not_false,
    Bool.and_self, if_true]
  rfl

variable (hright : s.pwr.reversed = false)
include hright

theorem exec_resetReq_first (hfirst : s.pwr.resetLow = none) : exec .resetReq s =
    .next (resetDevice 7 { s with pwr := { s.pwr with resetLow := some s.counter.toNat } }) := by
  simp only [exec_resetReq, execResetReq, hgood, hright, hfirst, Bool.not_true, Bool.or_self, Bool.false_eq_true, if_false,
    if_true]
  rfl

/-- A request within 110 ms of the last finds the line still low (R435, log 25). -/
theorem exec_resetReq_stuck {n : Nat} (hlast : s.pwr.resetLow = some n) (hsoon : s.counter.toNat < n + 110000000) :
    exec .resetReq s =
      .next (State.raise { s with pwr := { s.pwr with resetLow := some s.counter.toNat } } PWR_SB_STATUS 2) := by
  have hlow : mayHaveRisen s = false := by simp only [mayHaveRisen, hlast, Nat.not_le.mpr hsoon, decide_false]
  simp only [exec_resetReq, execResetReq, hgood, hright, hlast, hlow, Bool.not_true, Bool.or_self, Bool.false_and,
    Bool.false_eq_true, reduceCtorEq, if_false]

end

end

/-! ### What traces and events leave of the boot's registers and the power (R443, R454) -/

theorem logGenerate_pwr (kind id len : Nat) (body : BitVec 384) (s : State) :
    (logGenerate kind id len body s).pwr = s.pwr := by
  rw [logGenerate]
  dsimp only
  split <;> rfl

theorem trace_pwr (p : Nat) (args : List Nat) (s : State) : (trace p args s).pwr = s.pwr := by
  rw [trace]
  split
  · dsimp only
    split
    · rfl
    · rw [logGenerate_pwr]
      rfl
  · rfl

theorem enterPhase_pwr (n d : Nat) (s : State) : (enterPhase n d s).pwr = s.pwr := by
  rw [enterPhase, trace_pwr]
  rfl

section
variable {o : Nat} (h : o < 0x600000)
include h

theorem afterRecord_word_below (code : Nat) (s : State) : (afterRecord code s).word o = s.word o := by
  have hinterrupt : ∀ t : State, (if t.rdB EVR_INT_EN && bit (t.rd EVR_INT_CLASSES) (code / 256)
      then signalVector 0 (t.rd EVR_INT_VECTOR) t else t).word o = t.word o := by
    intro t
    split
    · obtain ⟨x, y, e⟩ := signalVector_frame 0 (t.rd EVR_INT_VECTOR) t
      rw [e]
      rfl
    · rfl
  have hfired : ((s.raise EVR_STATUS 2).wr EVR_TRIG_EN 0).word o = s.word o := by
    rw [wr_word_ne _ _ _ _ (by simp only [EVR_TRIG_EN]; omega), raise_word_ne _ _ _ _ (by simp only [EVR_STATUS]; omega)]
  rw [afterRecord, hinterrupt]
  split
  · dsimp only
    split
    · rw [raise_word_ne _ _ _ _ (by simp only [SMP_STATUS]; omega), State.endSampling,
        wr_word_ne _ _ _ _ (by simp only [SMP_RUNNING]; omega), hfired]
    · exact hfired
  · rfl

theorem storeRecord_word_below (r : Record) (s : State) : (storeRecord r s).word o = s.word o := by
  have hcount : ∀ (t : State) (n : Nat), (t.wr EVR_COUNT n).word o = t.word o :=
    fun t n => wr_word_ne _ _ _ _ (by simp only [EVR_COUNT]; omega)
  rw [storeRecord]
  split
  · rw [raise_word_ne _ _ _ _ (by simp only [EVR_STATUS]; omega), wr_word_ne _ _ _ _ (by simp only [EVR_STOPPED]; omega), hcount]
    rfl
  · rw [hcount]
    rfl

/-- An event changes no register below the observability block. -/
theorem recordAt_word_below (st : DWord) (code : Nat) (hu te : Option Nat) (pl : BitVec 768) (s : State) :
    (recordAt st code hu te pl s).word o = s.word o := by
  have hadd : ∀ (t : State) {off : Nat}, 0x600000 ≤ off → (t.addSat off 1).word o = t.word o := by
    intro t off hoff
    rw [State.addSat, wr32_word, if_neg (by omega)]
  rw [recordAt]
  split
  · exact hadd s (by decide)
  · split
    · exact hadd s (by decide)
    · split
      · rw [hadd _ (by decide)]
        split
        · exact wr64_word_ne _ _ _ _ (by simp only [EVR_FIRST_LOST]; omega) (by simp only [EVR_FIRST_LOST]; omega)
        · rfl
      · rw [writeRecord_eq, afterRecord_word_below h, storeRecord_word_below h]

theorem recordEvent_word_below (code : Nat) (hu te : Option Nat) (pl : BitVec 768) (s : State) :
    (recordEvent code hu te pl s).word o = s.word o := by
  rw [recordEvent]
  split
  · exact recordAt_word_below h _ _ _ _ _ s
  · rfl

end

/-! ### The steps of the boot (R400, R404) -/

section
variable {s t : State}

/-- The flag and the trace of an image chosen in another's place (R404). -/
def noteFallback (c : ImageChoice) (s : State) : State :=
  if c.fallback then traceIn 16 64 [(s.counter.toNat - s.boot.since) / 1000] (s.raise PWR_BOOT_STATUS 13) else s

/-- What the choice of the image leaves in the boot's flags (R404). -/
def noteChoice (c : ImageChoice) (s : State) : State :=
  if c.rejected then (noteFallback c s).raise PWR_BOOT_STATUS 14 else noteFallback c s

/-- The ROM runs, with the input enabled and the budget for the F-tier's step there: `u` is the state with the budget risen
to now, and `t` the state with the F-tier on and the choice's flags set. -/
structure ImageChosen (s u t : State) (c : ImageChoice) : Prop where
  good : s.pwr.good = true
  first : s.boot.done = 1
  present : s.pwr.present = true
  accrued : u = accrue s
  budget : rampReady (.domainOn 98) u = true
  choice : c = chooseImage u
  flags : t = noteChoice c (flashOn u)

section
variable {u : State} {c : ImageChoice} (h : ImageChosen s u t c)
include h

theorem ImageChosen.not_held : (!s.pwr.good || decide (s.boot.done ≠ 1) || !s.pwr.present ||
    !rampReady (.domainOn 98) u) = false := by
  rw [h.good, h.first, h.present, h.budget]
  rfl

theorem exec_imageVerify_boots {n : Nat} (hslot : c.slot = some n) : exec .imageVerify s =
    .next (enterPhase 1 4 (((t.setImage n { t.image n with
      failures := (t.image n).failures + 1, tried := (t.image n).tried || !t.rdB (FW_CONFIRMED n) }).wr BOOT_SLOT n).wrB
      BOOT_TRIAL (!t.rdB (FW_CONFIRMED n)))) := by
  have hflags := h.flags
  unfold noteChoice noteFallback at hflags
  simp only [exec_imageVerify, execImageVerify, h.not_held, ← h.accrued, ← h.choice, ← hflags, hslot, Bool.false_eq_true,
    if_false]

theorem exec_imageVerify_recovers (hslot : c.slot = none) : exec .imageVerify s =
    .next (enterPhase 9 4 (State.wr { t with boot := { t.boot with recovery := true } } BOOT_PARKED 1)) := by
  have hflags := h.flags
  unfold noteChoice noteFallback at hflags
  simp only [exec_imageVerify, execImageVerify, h.not_held, ← h.accrued, ← h.choice, ← hflags, hslot, Bool.false_eq_true,
    if_false]

end

section
variable (hgood : s.pwr.good = true)
include hgood

theorem exec_huskStart_starts {u : State} (hdone : s.boot.done = 4) (hnormal : s.boot.recovery = false)
    (hu : u = enterPhase 2 5 (s.wr32 DEV_IFVER (s.rd (FW_VERSION (s.rd BOOT_SLOT)))))
    (ht : t = recordEvent 0x0801 none none (payload [(32, 1, u.rd PWR_RESET_CAUSE), (34, 2, u.boot.prevTime)]) u)
    (hclean : bits (t.rd32 PWR_BOOT_STATUS) 13 2 = 0) : exec .huskStart s = .next t := by
  simp only [exec_huskStart, execHuskStart, hgood, hdone, hnormal, ← hu, ← ht, hclean, ne_eq, not_true_eq_false, Bool.not_true,
    decide_false, Bool.or_self, Bool.false_eq_true, if_false]

theorem exec_systemLoad_loads (hdone : s.boot.done = 5) (ht : t = finishTransition s) : exec .systemLoad s =
    .next (enterPhase 3 6 (wantDomain 99 (enterPort 17 1 (enterPort 16 1
      (reloadRecorder (loadInstall (t.wrB FT_BASE_VALID (t.flash.base ≠ [])))))))) := by
  simp only [exec_systemLoad, execSystemLoad, hgood, hdone, ← ht, not_true_eq_false, Bool.not_true, decide_false,
    Bool.or_self, Bool.false_eq_true, if_false, ne_eq]

theorem exec_dramTrain_asks (hdone : s.boot.done = 6) : exec .dramTrain s =
    .next (enterPhase 4 7 ((List.range 14).foldl (fun s i => wantDomain (84 + i) s) s)) := by
  simp only [exec_dramTrain, execDramTrain, hgood, hdone, ne_eq, not_true_eq_false, Bool.not_true, decide_false,
    Bool.or_self, Bool.false_eq_true, if_false]

theorem exec_bootWipe_wipes (hdone : s.boot.done = 7)
    (hon : (List.range 14).all (fun i => domainIsOn s (84 + i)) = true) : exec .bootWipe s =
    .next (enterPhase 5 8 (wipeCounters (noteWipe true true (wipeTier true (wipeTier false s))))) := by
  simp only [exec_bootWipe, execBootWipe, hgood, hdone, hon, ne_eq, not_true_eq_false, Bool.not_true, decide_false,
    Bool.or_self, Bool.false_eq_true, if_false]

theorem exec_tensorRegistration_registers (hdone : s.boot.done = 8) (hbase : s.rdB FT_BASE_VALID = true) :
    exec .tensorRegistration s =
    .next (enterPhase 6 9 (refreshHeat (registerArchives (registerBase s.flash.base s).2))) := by
  simp only [exec_tensorRegistration, execTensorRegistration, hgood, hdone, hbase, ne_eq, not_true_eq_false, Bool.not_true,
    decide_false, Bool.or_self, Bool.false_eq_true, if_false, if_true]

theorem exec_bootReady_readies (hdone : s.boot.done = 9) (hone : s.pwr.secondTrip = false)
    (ht : t = s.setImage (s.rd BOOT_SLOT) { s.image (s.rd BOOT_SLOT) with failures := 0 }) : exec .bootReady s =
    .next (enterPhase 7 10 ((t.wr BOOT_READY 1).wr ⟨PWR_BOOT_TIME, 0, 16⟩
      (min 65535 ((s.counter.toNat - s.boot.since) / 1000000)))) := by
  have hsecond : ∀ n, (enterPhase 7 10 ((t.wr BOOT_READY 1).wr ⟨PWR_BOOT_TIME, 0, 16⟩ n)).pwr.secondTrip = false := by
    intro n
    rw [enterPhase_pwr, ht]
    exact hone
  have hsame : t.counter = s.counter ∧ t.boot.since = s.boot.since := by
    rw [ht]
    exact ⟨rfl, rfl⟩
  simp only [exec_bootReady, execBootReady, hgood, hdone, ← ht, hsame, hsecond, ne_eq, not_true_eq_false, Bool.not_true,
    decide_false, Bool.or_self, Bool.false_eq_true, if_false]

end

/-! ### A TRIAL image is confirmed (R404) -/

theorem firmwareEvent_rd (confirmed : Bool) (u : State) (f : Fld) (h : f.off < 0x600000) :
    (firmwareEvent confirmed u).rd f = u.rd f :=
  rd_of_word_eq (recordEvent_word_below h _ _ _ _ _)

theorem confirmImage_minSvn (htrial : s.rdB BOOT_TRIAL = true) :
    (confirmImage s).rd MIN_SVN = max (s.rd MIN_SVN) (s.rd (FW_SVN (s.rd BOOT_SLOT))) := by
  have hmin : s.rd MIN_SVN < 2 ^ 6 := rd_lt s MIN_SVN
  have hsvn : s.rd (FW_SVN (s.rd BOOT_SLOT)) < 2 ^ 6 := rd_lt s (FW_SVN _)
  rw [confirmImage, htrial]
  simp only [Bool.not_true, Bool.false_eq_true, if_false]
  rw [firmwareEvent_rd _ _ _ (by decide), rd_wr_disjoint _ _ _ _ (by decide) (.inr (.inl (by decide))),
    rd_wr_same _ _ _ (by decide)]
  exact Nat.mod_eq_of_lt (Nat.max_lt.mpr ⟨hmin, hsvn⟩)

theorem confirmImage_confirmed (hconfirmed : s.rdB BOOT_TRIAL = false) : confirmImage s = s := by
  rw [confirmImage, hconfirmed]
  rfl

end

/-! ### The statements settled -/

/-- Settles O15: the fields of the cleared state, which nothing after the clear touches. -/
theorem resetClearsAndKeeps : Obligations.ResetClearsAndKeeps := by
  intro cause s
  obtain ⟨w, x, c, a, n, o, h⟩ := resetDevice_frame cause s
  rw [h]
  exact ⟨rfl, rfl, rfl, rfl, rfl, rfl, keptHost_running cause s.host, keptHost_husk cause s.host, rfl, rfl, rfl, rfl, rfl⟩

/-- Settles O16: no register written after the cause shares its word. -/
theorem resetCauseRecorded : Obligations.ResetCauseRecorded := by
  intro cause s hcause
  rw [rd_of_word_eq (resetDevice_word cause s (by decide) (by decide) (by decide))]
  exact noteReset_cause _ hcause

/-- Settles O14: each event by its law above. -/
theorem resetEventsComplete : Obligations.ResetEventsComplete :=
  ⟨fun _ _ => exec_powerGood_starts, fun _ => exec_inputOutOfRange_losesPower, fun _ => exec_inputShort_opens,
    fun _ => exec_perstAssert_resets, fun _ => exec_hotReset_resets, fun _ => exec_pcieLinkDown_resets,
    fun _ => exec_mgmtWatchdogExpiry_resets, fun _ => exec_resetReq_first,
    fun _ _ hgood hright hlast => exec_resetReq_stuck hgood hright hlast, fun _ => exec_tripRecovery_resets⟩

/-- Settles O17: each step of the boot by its law above. -/
theorem bootStepsComplete : Obligations.BootStepsComplete := by
  refine ⟨?_, fun _ _ hgood hdone hnormal => exec_huskStart_starts hgood hdone hnormal rfl,
    fun _ _ => exec_systemLoad_loads, fun _ => exec_dramTrain_asks,
    fun _ => exec_bootWipe_wipes, fun _ => exec_tensorRegistration_registers, fun _ _ => exec_bootReady_readies,
    fun _ => confirmImage_minSvn, fun _ => confirmImage_confirmed⟩
  rintro s u c v t hgood hfirst hpresent hu hbudget hc rfl ht
  have h : ImageChosen s u t c := ⟨hgood, hfirst, hpresent, hu, hbudget, hc, ht⟩
  exact ⟨fun n => exec_imageVerify_boots h, exec_imageVerify_recovers h⟩

end Sys2Proof.Machine
end

section
/-! PROOFS. The ports' events (R360, R362–R364), then the link layer, the routes, the slices and the domain's counter (R366,
R373, R375, R379, R381, R383): each by its law, then the two statements that they settle. -/

namespace Sys2Proof.Machine

/-! ### A port's states (R362–R364) -/

section
variable {p l n lanes polarity : Nat} {clean reversed : Bool} {peer : PeerInfo} {f : BitVec 4352} {s t u v : State}

theorem leaveNoId_ne (h : s.rd (PORT_STATE p) ≠ 10) (peer : PeerInfo) : leaveNoId p peer s = s := by
  rw [leaveNoId, decide_eq_false h]
  rfl

section
variable (hport : isPort p = true)
include hport

theorem exec_portDetect_sees (hstate : s.rd (PORT_STATE p) = 1) :
    exec (.portDetect p .receiver) s = .next (enterPort p 3 s) ∧
    exec (.portDetect p .transmitter) s = .next (enterPort p 2 s) := by
  constructor <;> simp [exec_portDetect, execPortDetect, hport, hstate]

theorem exec_portTrainingDone_locks (hstate : s.rd (PORT_STATE p) = 3)
    (hlanes : lanes % 16 ≠ 0) (ht : t = s.addSat (portBlock p + 0x28) 1) :
    exec (.portTrainingDone p (.locked lanes reversed polarity)) s = .next (enterPort p 4
      (((t.setPort p { t.port p with trainFails := 0, clean := [], lanes := lanes % 16 }).wrB ⟨portBlock p, 19, 1⟩ reversed).wr
        ⟨portBlock p, 20, 4⟩ polarity)) := by
  simp [exec_portTrainingDone, execPortTrainingDone, hport, hstate, hlanes, ← ht]

theorem exec_portTrainingDone_fails (hstate : s.rd (PORT_STATE p) = 3) (ht : t = s.addSat (portBlock p + 0x28) 1) :
    exec (.portTrainingDone p .failed) s =
      .next (if 2 ≤ (t.port p).trainFails then enterPort p 1 (t.setPort p { t.port p with trainFails := 0 })
        else t.setPort p { t.port p with trainFails := (t.port p).trainFails + 1 }) := by
  simp [exec_portTrainingDone, execPortTrainingDone, hport, hstate, ← ht]

theorem exec_linkRetrainTimer_trains (hstate : s.rd (PORT_STATE p) = 7) :
    exec (.linkRetrainTimer p) s = .next (enterPort p 3 s) := by
  simp [exec_linkRetrainTimer, execLinkRetrainTimer, hport, hstate]

theorem exec_crossedRecheck_detects (hstate : s.rd (PORT_STATE p) = 2) :
    exec (.crossedRecheck p true) s = .next (enterPort p 1 s) := by
  simp [exec_crossedRecheck, execCrossedRecheck, hport, hstate]

theorem exec_cableRemoved_detects (hstate : s.rd (PORT_STATE p) = 8 ∨ s.rd (PORT_STATE p) = 9) :
    exec (.cableRemoved p) s = .next (enterPort p 1 s) := by
  simp [exec_cableRemoved, execCableRemoved, hport, hstate]

theorem exec_linkDownDetect_downs (hup : portUp s p = true) : exec (.linkDownDetect p) s = .next (downPort p s) := by
  simp [exec_linkDownDetect, execLinkDownDetect, hport, hup]

/-! #### The check of a peer (R360, R362) -/

/-- In PEER_CHECK the peer is noted, and what it says of itself decides. -/
theorem exec_peerCheck_checks (hstate : s.rd (PORT_STATE p) = 4)
    (ht : t = (s.wr (PORT_PEER p) peer.id).wr (PORT_PEER_PORT p) peer.port) : exec (.peerCheck p peer) s =
    (if !peer.idValid || !t.rdB FAB_VALID then .next (enterPort p 10 t)
     else if peer.id = t.rd FAB_DEVICE then .next (enterPort p 9 t)
     else if !peerFits t p peer then .next (enterPort p 8 t)
     else .next (raisePort p (if isTwinPort p then { t with twin := { t.twin with partner := some peer.id } } else t))) := by
  have hstays : leaveNoId p peer s = s := leaveNoId_ne (by rw [hstate]; decide) peer
  simp only [exec_peerCheck, execPeerCheck, hport, if_true, hstays, hstate, ← ht, Bool.not_true, Bool.false_or,
    ne_eq, not_true_eq_false, decide_false, Bool.false_eq_true, if_false]

theorem exec_peerCheck_noId (hstate : s.rd (PORT_STATE p) = 4)
    (ht : t = (s.wr (PORT_PEER p) peer.id).wr (PORT_PEER_PORT p) peer.port)
    (hid : peer.idValid = false ∨ t.rdB FAB_VALID = false) : exec (.peerCheck p peer) s = .next (enterPort p 10 t) := by
  rw [exec_peerCheck_checks hport hstate ht, if_pos (by simp [hid])]

theorem exec_peerCheck_staysNoId (hstate : s.rd (PORT_STATE p) = 10)
    (hid : peer.idValid = false ∨ s.rdB FAB_VALID = false) : exec (.peerCheck p peer) s = .next s := by
  have hstays : leaveNoId p peer s = s := by
    rw [leaveNoId, if_neg]
    rcases hid with h | h <;> simp [h]
  simp only [exec_peerCheck, execPeerCheck, hport, if_true, hstays, hstate]
  rfl

section
variable (hstate : s.rd (PORT_STATE p) = 4)
  (ht : t = (s.wr (PORT_PEER p) peer.id).wr (PORT_PEER_PORT p) peer.port)
  (hpeer : peer.idValid = true) (hown : t.rdB FAB_VALID = true)
include hstate ht hpeer hown

theorem exec_peerCheck_conflict (hid : peer.id = t.rd FAB_DEVICE) :
    exec (.peerCheck p peer) s = .next (enterPort p 9 t) := by
  rw [exec_peerCheck_checks hport hstate ht, if_neg (by simp [hpeer, hown]), if_pos hid]

section
variable (hid : peer.id ≠ t.rd FAB_DEVICE)
include hid

theorem exec_peerCheck_miswired (hfits : peerFits t p peer = false) :
    exec (.peerCheck p peer) s = .next (enterPort p 8 t) := by
  rw [exec_peerCheck_checks hport hstate ht, if_neg (by simp [hpeer, hown]), if_neg hid, if_pos (by simp [hfits])]

theorem exec_peerCheck_raises (hfits : peerFits t p peer = true) : exec (.peerCheck p peer) s =
    .next (raisePort p (if isTwinPort p then { t with twin := { t.twin with partner := some peer.id } } else t)) := by
  rw [exec_peerCheck_checks hport hstate ht, if_neg (by simp [hpeer, hown]), if_neg hid, if_neg (by simp [hfits])]

end

end

/-! #### Lanes (R364) -/

section
variable (hlane : l < 4) (hup : portUp s p = true)
include hlane hup

theorem exec_laneLockLoss_loses (hon : bit (s.rd (PORT_LANES p)) l = true)
    (ht : t = (s.wr ⟨portBlock p, 4 + l, 1⟩ 0).raise (portBlock p + 4) 0)
    (hu : u = t.setPort p { t.port p with clean := tdel (t.port p).clean l }) :
    (u.rd (PORT_LANES p) = 0 → exec (.laneLockLoss p l) s = .next (downPort p u)) ∧
    (u.rd (PORT_LANES p) ≠ 0 → exec (.laneLockLoss p l) s = .next (if isTwinPort p then replayPort p (enterPort p 6 u)
      else linksChanged (replayPort p (enterPort p 6 u)))) := by
  have hlanes : decide (4 ≤ l) = false := decide_eq_false (by omega)
  constructor <;> intro hleft <;>
    simp only [exec_laneLockLoss, execLaneLockLoss, hport, hlanes, hup, hon, ← ht, ← hu, hleft, Bool.not_true, Bool.or_self,
      Bool.false_eq_true, if_false, if_true]

section
variable (hoff : bit (s.rd (PORT_LANES p)) l = false) (ht : t = s.addSat (portBlock p + 0x28) 1)
include hoff ht

theorem exec_laneRetrain_counts (hn : n = (if clean then tget (t.port p).clean l 0 + 1 else 0))
    (hfew : n < 3) : exec (.laneRetrain p l clean) s =
    .next (t.setPort p { t.port p with clean := tput (t.port p).clean l n 0 }) := by
  have hlanes : decide (4 ≤ l) = false := decide_eq_false (by omega)
  simp only [exec_laneRetrain, execLaneRetrain, hport, hlanes, hup, hoff, ← ht, ← hn, hfew, Bool.not_true, Bool.or_self,
    Bool.false_eq_true, if_false, if_true]

theorem exec_laneRetrain_readmits (hthree : 3 ≤ tget (t.port p).clean l 0 + 1)
    (hu : u = ((t.setPort p { t.port p with clean := tdel (t.port p).clean l }).wr ⟨portBlock p, 4 + l, 1⟩ 1).raise
      (portBlock p + 4) 1)
    (hv : v = replayPort p (if u.rd (PORT_LANES p) = 15 then enterPort p 5 u else u)) :
    exec (.laneRetrain p l true) s = .next (if isTwinPort p then v else linksChanged v) := by
  have hlanes : decide (4 ≤ l) = false := decide_eq_false (by omega)
  simp only [exec_laneRetrain, execLaneRetrain, hport, hlanes, hup, hoff, ← ht, ← hu, ← hv, Nat.not_lt.mpr hthree,
    Bool.not_true, Bool.or_self, Bool.false_eq_true, if_false, if_true]

end

end

/-! ### The link layer (R366) -/

section
variable (hup : portUp s p = true)
include hup

theorem exec_fabricFlitReceive_bad (hbad : flitGood f = false) : exec (.fabricFlitReceive p f) s =
    .next (nakFlit p ((noteFec p s).addSat (portBlock p + 0xC) 1)) := by
  simp only [exec_fabricFlitReceive, execFabricFlitReceive, hport, hup, hbad, Bool.not_true, Bool.not_false, Bool.or_self,
    Bool.false_eq_true, if_false, if_true]

theorem exec_ackTimer_sends (hdue : (s.port p).ackDue = true) : exec (.ackTimer p) s =
    .next ((s.setPort p { s.port p with ackDue := false, owed := owedAfter (s.port p) }).emit
      (.linkAck p (((s.port p).rxSeq + 4095) % 4096) false (creditsOwed (s.port p)))) := by
  simp only [exec_ackTimer, execAckTimer, hport, hup, hdue, Bool.not_true, Bool.or_self, Bool.false_eq_true, if_false]

section
variable (hgood : flitGood f = true) (ht : t = takeAck p f (noteFec p s)) (hstays : portUp t p = true)
include hgood ht hstays

theorem exec_fabricFlitReceive_takes (hseq : fb f 0 2 % 4096 = (t.port p).rxSeq) : exec (.fabricFlitReceive p f) s =
    .next (takeTime p f ((t.setPort p { t.port p with
      rxSeq := ((t.port p).rxSeq + 1) % 4096, ackDue := true,
      owed := tput (t.port p).owed (bits (fb f 4 1) 0 3) (tget (t.port p).owed (bits (fb f 4 1) 0 3) 0 + 1) 0 }).add64
        (portBlock p + 0x20) 512)) := by
  simp only [exec_fabricFlitReceive, execFabricFlitReceive, hport, hup, hgood, ← ht, hstays, hseq, ne_eq, not_true_eq_false,
    Bool.not_true, Bool.or_self, Bool.false_eq_true, if_false]

theorem exec_fabricFlitReceive_outOfSequence (hseq : fb f 0 2 % 4096 ≠ (t.port p).rxSeq) :
    exec (.fabricFlitReceive p f) s = .next (nakFlit p t) := by
  simp only [exec_fabricFlitReceive, execFabricFlitReceive, hport, hup, hgood, ← ht, hstays, hseq, ne_eq, not_false_eq_true,
    Bool.not_true, Bool.or_self, Bool.false_eq_true, if_false, if_true]

end

end

end

end

/-! ### Routes, slices and the domain's counter (R373, R375, R379, R381, R383) -/

section
variable {ring : Nat} {s t u : State} {c : Cmd}

theorem exec_routeUpdate_keeps {r : RouteUpdate} (hvalid : s.rdB FAB_VALID = true) (horigin : r.origin ≠ s.rd FAB_DEVICE)
    (hnew : reportOf s r.origin = none) : exec (.routeUpdate r) s =
    .next (settleSync (recompute (flood (.routeUpdate r) { s with fab := { s.fab with
      reports := s.fab.reports.filter (fun (o : RouteUpdate) => o.origin ≠ r.origin) ++ [r] } }))) := by
  simp only [exec_routeUpdate, execRouteUpdate, hvalid, horigin, hnew, decide_false, Bool.not_true, Bool.or_self,
    Bool.false_eq_true, if_false]

theorem exec_routeQuery_reports (h : ready 0x51 ring s c t) : exec (.routeQuery ring) s =
    .next (c.done ST_OK 1112 0 (dmaOut c.fn (c.p 12 8) (routeReport t) t)) := by
  rw [exec_routeQuery, execRouteQuery, hostCommand_ready h]

theorem no_multi_hull (h : ∀ k < 128, (t.hull k).live = false ∨ (t.hull k).multi = false) :
    (List.range 128).any (fun k => (t.hull k).live && (t.hull k).multi) = false := by
  refine List.any_eq_false.mpr fun k hk => ?_
  rcases h k (List.mem_range.mp hk) with hk | hk <;> simp [hk]

theorem exec_sliceSet_sets (h : ready 0x50 ring s c t) (hfree : ∀ k < 128, (t.hull k).live = false ∨ (t.hull k).multi = false)
    (hu : u = linksChanged (t.wr FAB_SLICE (c.p 12 1))) :
    (u.rdB FAB_VALID = true → exec (.sliceSet ring) s = .next (startRun (c.run (.slicing u.counter.toNat)) u)) ∧
    (u.rdB FAB_VALID = false → exec (.sliceSet ring) s = .next (c.done ST_OK 0 0 u)) := by
  constructor <;> intro hvalid <;>
    simp only [exec_sliceSet, execSliceSet, hostCommand_ready h, no_multi_hull hfree, ← hu, hvalid, Bool.false_eq_true, if_false,
      if_true]

section
variable (h : ready 0x54 ring s c t)
include h

theorem exec_counterSync_rootless (haction : c.p 12 1 = 0) (hparent : parentPort t = none) :
    exec (.counterSync ring) s = .next (c.done ST_OK 0 0 t) := by
  simp [exec_counterSync, execCounterSync, hostCommand_ready h, haction, hparent]

theorem exec_counterSync_asks (haction : c.p 12 1 = 0) (hparent : (parentPort t).isSome = true) :
    exec (.counterSync ring) s = .next (startRun (c.run .syncing) (askTime t)) := by
  simp [exec_counterSync, execCounterSync, hostCommand_ready h, haction, hparent]

theorem exec_counterSync_dithers (haction : c.p 12 1 ≠ 0) :
    exec (.counterSync ring) s = .next (c.done ST_OK 0 0 (t.wr FAB_DITHER (c.p 16 4))) := by
  simp [exec_counterSync, execCounterSync, hostCommand_ready h, haction]

end

theorem exec_timestampExchange_applies {x : TimeExchange} (hvalid : s.rdB FAB_VALID = true) (hroot : s.rdB TIME_ROOT = false)
    (hlink : ∃ p < 16, portUp s p = true) : exec (.timestampExchange x) s =
    .next (askTime (finishRuns (fun r => r.kind == .syncing) ST_OK 0
      (applyOffset (((x.t2 : Int) - x.t1) - ((x.t4 : Int) - x.t3)) s))) := by
  obtain ⟨p, hp, hup⟩ := hlink
  have hany : (List.range 16).any (portUp s) = true := List.any_eq_true.mpr ⟨p, List.mem_range.mpr hp, hup⟩
  simp only [exec_timestampExchange, execTimestampExchange, hvalid, hroot, hany, Bool.not_true, Bool.or_self, Bool.false_eq_true,
    if_false]

end

/-! ### The statements -/

/-- Settles O42: each event by its law; the peer's place decides by `peerFits`, on a twin port by the port alone. -/
theorem portEventsComplete : Obligations.PortEventsComplete := by
  refine ⟨fun _ _ => exec_portDetect_sees, fun _ _ _ _ _ _ => exec_portTrainingDone_locks,
    fun _ _ _ => exec_portTrainingDone_fails, ?_, fun _ _ _ => exec_peerCheck_staysNoId,
    fun _ _ => exec_linkRetrainTimer_trains, fun _ _ => exec_crossedRecheck_detects, fun _ _ => exec_cableRemoved_detects,
    fun _ _ => exec_linkDownDetect_downs, fun _ _ _ _ _ => exec_laneLockLoss_loses,
    fun _ _ _ _ _ _ => exec_laneRetrain_counts, fun _ _ _ _ _ _ => exec_laneRetrain_readmits⟩
  intro p peer s t hport hstate ht
  refine ⟨exec_peerCheck_noId hport hstate ht, fun hpeer hown => ⟨exec_peerCheck_conflict hport hstate ht hpeer hown, ?_⟩⟩
  have hmiswired := exec_peerCheck_miswired hport hstate ht hpeer hown
  have hraises := exec_peerCheck_raises hport hstate ht hpeer hown
  refine ⟨fun hid htwin hmap => ?_, fun hid htwin hmap => ?_, fun hid htwin hplace => ?_, fun hid htwin hplace => ?_⟩
  · exact hmiswired hid (by simp [peerFits, htwin, hmap])
  · simpa [htwin] using hraises hid (by simp [peerFits, htwin, hmap])
  · exact hmiswired hid (by simp [peerFits, htwin, hplace])
  · simpa [htwin] using hraises hid (by simp [peerFits, htwin, hplace])

/-- Settles O43: each event and command by its law above. -/
theorem linkLayerAndRoutesComplete : Obligations.LinkLayerAndRoutesComplete :=
  ⟨fun _ _ _ _ => exec_fabricFlitReceive_takes, fun _ _ _ => exec_fabricFlitReceive_bad,
    fun _ _ _ _ => exec_fabricFlitReceive_outOfSequence, fun _ _ => exec_ackTimer_sends, fun _ _ => exec_routeUpdate_keeps,
    fun _ _ _ _ => exec_routeQuery_reports, fun _ _ _ _ _ => exec_sliceSet_sets,
    fun _ _ _ _ h => ⟨exec_counterSync_rootless h, exec_counterSync_asks h, exec_counterSync_dithers h⟩,
    fun _ _ => exec_timestampExchange_applies⟩

end Sys2Proof.Machine
end

section
/-! PROOFS. Twin pairs (R384–R394, R399, R436): the arm, the standby's epochs, the active's acknowledgements, heartbeats and
takeovers, the exchange of roles and the loss of a device of a hull, each by its law, then the statement that they settle. -/

namespace Sys2Proof.Machine

section
variable {ring n : Nat} {s t u : State} {c : Cmd}

/-! ### Arming (R384) -/

section
variable (h : ready 0x52 ring s c t)
include h

theorem exec_twinArm_disarms (haction : c.p 12 1 = 0) : exec (.twinArm ring) s = .next (c.done ST_OK 0 0 (disarm true t)) := by
  simp only [exec_twinArm, execTwinArm, hostCommand_ready h, haction, if_true]

theorem exec_twinArm_waits (haction : c.p 12 1 = 1)
    (hu : u = startRun (c.run (.arming true (t.rd TWIN_STATE) false))
      (sendTwin (.arm true (twinFuse t) (ifMajor t) (ifMinor t)) t))
    (hfresh : mirroring u = false) (hnone : u.twin.armed = none) : exec (.twinArm ring) s = .next (u.wr TWIN_STATE 1) := by
  have harmed : (u.wr TWIN_STATE 1).twin.armed = none := hnone
  simp only [exec_twinArm, execTwinArm, hostCommand_ready h, haction, Nat.one_ne_zero, OfNat.one_ne_ofNat, decide_false,
    Bool.false_and, decide_true, ← hu, hfresh, harmed, Bool.false_eq_true, if_false]

end

theorem exec_complementaryArm_disarms (role : Bool) (major minor : Nat) :
    exec (.complementaryArm .disarm role major minor) s = .next (disarm false s) := by
  simp only [exec_complementaryArm, execComplementaryArm, if_true]

section
variable {a : ArmAction} {role : Bool} {major minor : Nat} {r : Running} (haction : a ≠ .disarm)
include haction

theorem exec_complementaryArm_keeps (hrun : armRun s = none) : exec (.complementaryArm a role major minor) s =
    .next { s with twin := { s.twin with armed := some (decide (a = .active), role, major, minor) } } := by
  simp only [exec_complementaryArm, execComplementaryArm, haction, hrun, if_false]

theorem exec_complementaryArm_pairs {active : Bool} {was : Nat} (hrun : armRun s = some r)
    (hkind : r.kind = .arming active was false) : exec (.complementaryArm a role major minor) s =
    .next (pairUp r active (decide (a = .active), role, major, minor) s) := by
  simp only [exec_complementaryArm, execComplementaryArm, haction, hrun, hkind, if_false]

end

theorem exec_twinArmTimeout_fails {r : Running} (hrun : armRun s = some r) :
    exec .twinArmTimeout s = .next (failArm r ST_TWIN_NO_PARTNER 0 s) := by
  simp only [exec_twinArmTimeout, execTwinArmTimeout, hrun]

/-! ### The standby's epochs (R386) -/

section
variable (hstandby : isStandby s = true)
include hstandby

section
variable {hdr : EpochHdr} {body : List MirrorRec}

theorem exec_epochReceive_snapshot (hkind : hdr.kind = 2) : exec (.epochReceive hdr body) s =
    .next ({ s with twin := { s.twin with
      staged := [{ hdr := hdr, body := body }], snapEpoch := none, expect := hdr.epoch + 1 } }.wr TWIN_STATE 2) := by
  simp only [exec_epochReceive, execEpochReceive, hstandby, hkind, Bool.not_true, Bool.false_eq_true, if_false, if_true]

theorem exec_epochReceive_stages (hkind : hdr.kind ≠ 2) (hsnap : lacksSnapshot s = false)
    (hnext : hdr.epoch = s.twin.expect) : exec (.epochReceive hdr body) s =
    .next { s with twin := { s.twin with
      staged := s.twin.staged ++ [{ hdr := hdr, body := body }], expect := hdr.epoch + 1 } } := by
  simp only [exec_epochReceive, execEpochReceive, hstandby, hkind, hsnap, hnext, ne_eq, not_true_eq_false, Bool.not_true,
    Bool.false_eq_true, if_false]

end

theorem exec_epochMarkerReceive_marks {e : Staged} {crc : DWord} (hsnap : lacksSnapshot s = false)
    (hfind : s.twin.staged.find? (fun (e : Staged) => e.hdr.epoch = n && !e.marked) = some e) (hkind : e.hdr.kind ≠ 2)
    (hcrc : crc.toNat = epochCrc e.hdr e.body)
    (ht : t = sendTwin (.ack n) { s with twin := { s.twin with staged := s.twin.staged.map (fun (x : Staged) =>
      if x.hdr.epoch = n then { x with marked := true } else x) } }) : exec (.epochMarkerReceive n false crc) s =
    .next (if t.rd TWIN_STATE = 3 then applyMarked t.twin.staged.length t else t) := by
  simp only [exec_epochMarkerReceive, execEpochMarkerReceive, hstandby, hsnap, hfind, hkind, hcrc, ← ht, ne_eq,
    not_true_eq_false, Bool.not_true, Bool.or_self, Bool.false_eq_true, if_false]

theorem exec_snapshotApplied_readies (hsnap : s.twin.snapEpoch = some n)
    (ht : t = { s with twin := { s.twin with snapEpoch := none } }) : exec .snapshotApplied s =
    .next ((sendTwin (.ack n) (applyMarked t.twin.staged.length t)).wr TWIN_STATE 3) := by
  subst ht
  simp only [exec_snapshotApplied, execSnapshotApplied, hstandby, hsnap, Bool.not_true, Bool.false_eq_true, if_false]

end

/-! ### The active's acknowledgements (R386, R387) -/

section
variable (hmirror : mirroring s = true)
include hmirror

theorem exec_epochAckReceive_releases (ht : t = noteWait n (s.wr64 TWIN_ACKED (max n (s.rd64 TWIN_ACKED))))
    (hsnap : t.twin.snapEpoch ≠ some n) : exec (.epochAckReceive n) s = .next (releaseSteps t) := by
  simp only [exec_epochAckReceive, execEpochAckReceive, hmirror, ← ht, hsnap, decide_false, Bool.false_and, Bool.not_true,
    Bool.false_eq_true, if_false]

theorem exec_newSnapshotRequest_sends (cause : Nat) :
    exec (.newSnapshotRequest n cause) s = .next (releaseSteps (sendSnapshot (twinResync n cause s))) := by
  simp only [exec_newSnapshotRequest, execNewSnapshotRequest, hmirror, Bool.not_true, Bool.false_eq_true, if_false]

theorem exec_twinHeartbeatTimeout_loses : exec .twinHeartbeatTimeout s = .next (loseTwin s) := by
  simp only [exec_twinHeartbeatTimeout, execTwinHeartbeatTimeout, hmirror, if_true]

end

/-! ### Heartbeats and takeovers (R389, R399, R436) -/

theorem exec_twinHeartbeatSend_one (hready : s.rdB BOOT_READY = true) (hup : portUp s 16 = true)
    (ht : t = sendOn 16 none (.twin .heartbeat) s) (hdown : portUp t 17 = false) :
    exec .twinHeartbeatSend s = .next t := by
  simp only [exec_twinHeartbeatSend, execTwinHeartbeatSend, List.foldl_cons, List.foldl_nil, hready, hup, ← ht, hdown,
    Bool.and_self, Bool.and_false, Bool.false_eq_true, if_false, if_true]

section
variable (hmirror : mirroring s = false) (hstandby : isStandby s = true)
include hmirror hstandby

theorem exec_twinHeartbeatTimeout_takesOver (hstate : s.rd TWIN_STATE = 3) (hsilent : s.twin.twaIn ≠ 1) :
    exec .twinHeartbeatTimeout s = .next (takeover s) := by
  simp only [exec_twinHeartbeatTimeout, execTwinHeartbeatTimeout, hmirror, hstandby, hstate, hsilent, ne_eq, not_false_eq_true,
    decide_true, Bool.and_self, Bool.not_true, Bool.false_eq_true, if_false, if_true]

theorem exec_twinHeartbeatTimeout_parks (hstays : s.rd TWIN_STATE ≠ 3 ∨ s.twin.twaIn = 1) :
    exec .twinHeartbeatTimeout s = .next (twinPark s) := by
  have hno : (decide (s.rd TWIN_STATE = 3) && decide (s.twin.twaIn ≠ 1)) = false := by
    rcases hstays with h | h <;> simp [h]
  simp only [exec_twinHeartbeatTimeout, execTwinHeartbeatTimeout, hmirror, hstandby, hno, Bool.not_true, Bool.false_eq_true,
    if_false]

end

theorem exec_takingOverAnnounce_notes (ht : t = { s with twin := { s.twin with seenTakeover := true } }) :
    exec .takingOverAnnounce s = .next (if t.rd TWIN_STATE = 6 && twinFuse t then twinPark t else t) := by
  rw [exec_takingOverAnnounce, execTakingOverAnnounce, ← ht]
  exact (apply_ite Host.Outcome.next _ _ _).symm

section
variable (hright : s.pwr.reversed = false)
include hright

theorem exec_twaFault_reads (hcode : n < 5) :
    exec (.twaFault n) s = .next { s with twin := { s.twin with twaIn := n } } := by
  simp only [exec_twaFault, execTwaFault, hright, Nat.not_le.mpr hcode, Bool.false_eq_true, if_false]

theorem exec_twaFault_faults (hcode : 5 ≤ n) :
    exec (.twaFault n) s = .next ({ s with twin := { s.twin with twaIn := 0 } }.raise PWR_SB_STATUS 4) := by
  simp only [exec_twaFault, execTwaFault, hright, hcode, Bool.false_eq_true, if_false, if_true]

end

/-! ### TWIN_SWITCH (R392) -/

theorem exec_twinSwitch_drains {hs left : List Nat} (h : ready 0x53 ring s c t) (hactive : t.rdB TWIN_ACTIVE = true)
    (hstate : t.rd TWIN_STATE = 3) (hidle : hullCommands t = false)
    (hhs : hs = (tkeys t.srv.hulls).filter (fun h => (t.hull h).live && (t.hull h).fault.isNone && !(t.hull h).awaiting))
    (hleft : left = hs.filter (fun h => !(t.hull h).drained)) (hu : u = startRun (c.run (.switching left hs)) t) :
    exec (.twinSwitch ring) s = .next (if left = [] then finishSwitch (c.run (.switching left hs)) hs u
      else left.foldl (fun (s : State) h => beginQuiesce h (beginHalt h s)) u) := by
  simp only [exec_twinSwitch, execTwinSwitch, hostCommand_ready h, hactive, hstate, hidle, ← hhs, ← hleft, ← hu, ne_eq,
    not_true_eq_false, decide_false, Bool.not_true, Bool.or_self, Bool.false_eq_true, if_false]

theorem exec_twinSwitchSaveBlocks_restores {blocks : List (Nat × List (Nat × List Byte))} (hstandby : isStandby s = true)
    (hstate : s.rd TWIN_STATE = 3) (ht : t = applyMarked s.twin.staged.length s)
    (hu : u = takeRings (blocks.foldl restoreBlocks t)) : exec (.twinSwitchSaveBlocks blocks) s =
    .next (formAll (setTwa 1 ((State.wr64 { u with twin := { u.twin with
      nextEpoch := u.twin.expect, staged := [], rings := [], cq := [], outputs := [] } } TWIN_ACKED
        (u.twin.expect - 1)).wr TWIN_ACTIVE 1))) := by
  simp only [exec_twinSwitchSaveBlocks, execTwinSwitchSaveBlocks, hstandby, hstate, ← ht, ← hu, ne_eq, not_true_eq_false,
    decide_false, Bool.not_true, Bool.or_self, Bool.false_eq_true, if_false]

/-! ### A device of a hull is lost (R399) -/

theorem exec_hullPeerLoss_faults {d h : Nat} {a b : Word × State}
    (hreport : s.fab.reports.any (fun u => u.standsFor = some d) = false)
    (halias : s.rdB FAB_ALIAS_VALID = false ∨ s.rd FAB_ALIAS ≠ d)
    (hhulls : (tkeys s.srv.hulls).filter (fun h => (s.hull h).live && (s.hull h).multi && (s.hull h).fault.isNone
      && (s.hull h).devices.contains d) = [h])
    (ht : t = (hullRequests s h).foldl (fun (s : State) i => finishRuns (fun r => r.kind == .cancelling i)
      ST_NOTHING_TO_CANCEL 0 (failRequest i ST_FABRIC_UNREACHABLE (some d) s)) s)
    (ha : a = t.fresh) (hb : b = a.2.fresh) :
    exec (.hullPeerLoss d) s = .next (commandEpoch s (foreignFault h (b.1 ++ a.1) b.2)) := by
  have hnoAlias : (s.rdB FAB_ALIAS_VALID && decide (s.rd FAB_ALIAS = d)) = false := by
    rcases halias with h | h <;> simp [h]
  simp only [exec_hullPeerLoss, execHullPeerLoss, hreport, hnoAlias, hhulls, List.foldl_cons, List.foldl_nil, ← ht, ← ha, ← hb,
    Bool.or_self, Bool.false_eq_true, if_false]

end

/-! ### The statement -/

/-- Settles O45: each event and command by its law above. -/
theorem twinEventsComplete : Obligations.TwinEventsComplete :=
  ⟨fun _ _ _ _ => exec_twinArm_disarms, fun _ _ _ _ _ h haction _ _ => exec_twinArm_waits h haction,
    fun _ _ _ _ _ _ _ => exec_twinSwitch_drains, fun role major minor _ => exec_complementaryArm_disarms role major minor,
    fun _ _ _ _ _ => exec_complementaryArm_keeps, fun _ _ _ _ _ _ _ _ h => exec_complementaryArm_pairs h,
    fun _ _ => exec_twinArmTimeout_fails, fun _ _ _ h => exec_epochReceive_snapshot h,
    fun _ _ _ h => exec_epochReceive_stages h, fun _ _ _ _ _ h => exec_epochMarkerReceive_marks h,
    fun _ _ _ => exec_snapshotApplied_readies, fun _ _ _ => exec_epochAckReceive_releases,
    fun _ cause _ h => exec_newSnapshotRequest_sends h cause, fun _ _ => exec_twinHeartbeatSend_one,
    fun _ => ⟨exec_twinHeartbeatTimeout_loses, exec_twinHeartbeatTimeout_takesOver, exec_twinHeartbeatTimeout_parks⟩,
    fun _ _ => exec_takingOverAnnounce_notes, fun _ _ h => ⟨exec_twaFault_reads h, exec_twaFault_faults h⟩,
    fun _ _ _ _ => exec_twinSwitchSaveBlocks_restores, fun _ _ _ _ _ _ => exec_hullPeerLoss_faults⟩

end Sys2Proof.Machine
end

section
/-! PROOFS. Every command in every state answers a next state, but the instructions of the TAP that R437 leaves open. -/

namespace Sys2Proof.Machine

theorem isNext_next (t : State) : isNext (.next t) = true := rfl

theorem isNext_ite (p : Prop) [Decidable p] (a b : Result) :
    isNext (if p then a else b) = if p then isNext a else isNext b := apply_ite ..

/-- Whether its command is held, waits, is carried out or is not next at all (R250, R337). -/
theorem isNext_hostCommand (op ring : Nat) (body : Cmd → State → State) (s : State) :
    isNext (hostCommand op ring body s) = true := by
  unfold hostCommand
  dsimp only
  (repeat' split) <;> rfl

theorem isNext_registerWrite (agent : Agent) (off : Nat) (wide : Bool) (value : DWord) (setNow : List (Nat × Nat)) (s : State) :
    isNext (execRegisterWrite agent off wide value setNow s) = true := by
  cases agent <;> rfl

theorem isNext_boundaryScan_named {i : TapInstr} (hnamed : ∀ code, i ≠ .other code) (s : State) :
    isNext (execBoundaryScanInstruction i s) = true := by
  unfold execBoundaryScanInstruction
  rw [isNext_ite, isNext_next]
  cases i with
  | other code => exact absurd rfl (hnamed code)
  | _ => exact ite_self _

/-- By the shape of the row: a command of a ring; an event that always acts in one way, that acts where tests hold, or that
looks something up first. -/
theorem exec_isNext {c : Instr} (hnamed : ∀ code, c ≠ .boundaryScanInstruction (.other code)) (s : State) :
    isNext (exec c s) = true := by
  cases c <;> dsimp only [exec]
  case nop | hello | queryDevice | queryRequest | tenantBind | tenantUnbind | budgetSet | budgetQuery | hullCreate |
    hullResize | hullDestroy | hullDrain | hullRestore | shellLoad | shellSelect | tensorDefine | tensorWrite | tensorRead |
    tensorFree | tensorClass | variantLoad | variantArchive | baseInstall | baseStage | runGraph | generate | cancel | fence |
    cycleTableWrite | cycleTableArm | prioritySet | sliceSet | routeQuery | twinArm | twinSwitch | counterSync | recorderArm |
    recorderClear | traceMask | sampleStart | sampleStop | telemetryRead | powerPolicy | rampSet | lifecycleAdvance | wipe |
    firmwareStage | firmwareActivate =>
    exact isNext_hostCommand ..
  case sqDoorbell | cqDoorbell | ringEnable | ringDisable | msixVectorUnmask | vfFlr | pfFlr | devCtrSelWrite | counterClear |
    counterClearAll | cxlDecoderDecommit | bar0LowHalfRead | bar0HighHalfRead | bar0LowHalfWrite | bar0HighHalfWrite |
    bar0BadAccess | heatLookupWrite | ftBlkSelWrite | fabInstallCommit | evrWindowAutoRead | logEnable | logTailWrite |
    streamStop | endOp | repeatOp | waitOp | inGraphFence | sop | vint | vfp | vxlane | vcvt | vload | vstore | vpush | vpop |
    vsfu | hullFaultHandling | frameBoundary | stepCommit | linkRetrainTimer | crossedRecheck | cableRemoved | linkDownDetect
    | faultNotice | twinHeartbeatSend | inputOutOfRange | perstAssert | hotReset | pcieLinkDown | mgmtWatchdogExpiry |
    tripRecovery | vfEnableWrite =>
    rfl
  case interruptCoalesceTimeout | bdpWindowWrite | bdpWindowRead | bdpBufferDrain | spdmRequest | i3cRead | quiescenceReached
    | ceWriteback | perBankRefresh | calibrationWindow | calOverdue | scrubRead | slotBoundary | ftEraseDone | ftScrub |
    ftChannelFailure | boundaryReport | startNotice | kvAdmission | fabricFlitReceive | ackTimer | laneLockLoss | laneRetrain
    | peerCheck | routeUpdate | pathChangeRelease | remoteRequest | queueOpen | queueCredit | timestampExchange |
    twinHeartbeatTimeout | takingOverAnnounce | epochReceive | epochAckReceive | twaFault | hullPeerLoss | powerGood |
    inputUndervoltage | resetReq | huskStart | systemLoad | dramTrain | bootWipe | tensorRegistration | bootReady |
    guardianSample | guardianRestore | podPointChangeDone | domainPowerUpDone | podIdleTimeout | inputShort | prsntBreak |
    storageLowAssert | storageLowRelease | sidebandReversed | eventPersist | pcieLinkTrained | newSnapshotRequest |
    twinSwitchSaveBlocks =>
    simp only [execInterruptCoalesceTimeout, execBdpWindowWrite, execBdpWindowRead, execBdpBufferDrain, execSpdmRequest,
      execI3cRead, execQuiescenceReached, execCeWriteback, execPerBankRefresh, execCalibrationWindow, execCalOverdue,
      execScrubRead, execSlotBoundary, execFtEraseDone, execFtScrub, execFtChannelFailure, execBoundaryReport,
      execStartNotice, execKvAdmission, execFabricFlitReceive, execAckTimer, execLaneLockLoss, execLaneRetrain, execPeerCheck,
      execRouteUpdate, execPathChangeRelease, execRemoteRequest, execQueueOpen, execQueueCredit, execTimestampExchange,
      execTwinHeartbeatTimeout, execTakingOverAnnounce, execEpochReceive, execEpochAckReceive, execTwaFault, execHullPeerLoss,
      execPowerGood, execInputUndervoltage, execResetReq, execHuskStart, execSystemLoad, execDramTrain, execBootWipe,
      execTensorRegistration, execBootReady, execGuardianSample, execGuardianRestore, execPodPointChangeDone,
      execDomainPowerUpDone, execPodIdleTimeout, execInputShort, execPrsntBreak, execStorageLowAssert, execStorageLowRelease,
      execSidebandReversed, execEventPersist, execPcieLinkTrained, execNewSnapshotRequest, execTwinSwitchSaveBlocks,
      ↓isNext_ite, ↓isNext_next, ite_self]
  case scanOutDone | streamOp | dataFlitArrive | creditFlitArrive | chunkResponse | expertDispatch | snapshotApplied |
    hostDmaCompletion =>
    dsimp only [execScanOutDone, execStreamOp, execDataFlitArrive, execCreditFlitArrive, execChunkResponse,
      execExpertDispatch, execSnapshotApplied, execHostDmaCompletion]
    split <;> simp only [↓isNext_ite, ↓isNext_next, ite_self]
  case sqFetch | cxlDecoderCommit | cxlMemRead | cxlMemWrite | logEntryWrite | shellLoadDone | scanInDone | planeRun |
    stepStart | stepBoundaryReached | queueEntrySend | creditReturnSend | meshFlitForward | sfuGrant | sfuResultWrite | stall
    | chunkIssue | streamResume | descriptorComplete | tierAccess | arbiterGrant | tierAccessEnd | recoveryComplete |
    accessDeadlineExpiry | promotionStart | moveComplete | ftChunkRead | ftProgramDone | blockRelocationDone | compaction |
    staticLevelling | emitEntry | servingPortEntry | portDetect | portTrainingDone | remoteResponse | fabricTimeout |
    queueGrant | queueEntry | epochMarkerReceive | twinArmTimeout | imageVerify | rampGrant | sampleCapture | complementaryArm
    =>
    dsimp only [execSqFetch, execCxlDecoderCommit, execCxlMemRead, execCxlMemWrite, execLogEntryWrite, execShellLoadDone,
      execScanInDone, execPlaneRun, execStepStart, execStepBoundaryReached, execQueueEntrySend, execCreditReturnSend,
      execMeshFlitForward, execSfuGrant, execSfuResultWrite, execStall, execChunkIssue, execStreamResume,
      execDescriptorComplete, execTierAccess, execArbiterGrant, execTierAccessEnd, execRecoveryComplete,
      execAccessDeadlineExpiry, execPromotionStart, execMoveComplete, execFtChunkRead, execFtProgramDone,
      execBlockRelocationDone, execCompaction, execStaticLevelling, execEmitEntry, execServingPortEntry, execPortDetect,
      execPortTrainingDone, execRemoteResponse, execFabricTimeout, execQueueGrant, execQueueEntry, execEpochMarkerReceive,
      execTwinArmTimeout, execImageVerify, execRampGrant, execSampleCapture, execComplementaryArm]
    (repeat' split) <;> rfl
  case registerWrite => exact isNext_registerWrite ..
  case boundaryScanInstruction i =>
    exact isNext_boundaryScan_named (fun code hi => hnamed code (congrArg _ hi)) s

theorem exec_boundaryScan_open {s : State} (hopen : ¬(s.rd LC_STATE = 0 ∧ s.pwr.good = true ∧ s.pwr.reversed = false))
    (code : Nat) : exec (.boundaryScanInstruction (.other code)) s = .next s := by
  rw [exec_boundaryScanInstruction, execBoundaryScanInstruction]
  split
  · rfl
  next hpowered =>
    refine if_neg fun hfactory => hopen ⟨hfactory, ?_⟩
    simpa using hpowered

/-- Settles O3: by the row's shape, and for a private instruction of the TAP by the state that R437 asks for. -/
theorem everyCommandAnswers : Obligations.EveryCommandAnswers := by
  intro c s
  by_cases hprivate : ∃ code, c = .boundaryScanInstruction (.other code)
  · obtain ⟨code, rfl⟩ := hprivate
    by_cases hacts : s.rd LC_STATE = 0 ∧ s.pwr.good = true ∧ s.pwr.reversed = false
    · obtain ⟨hfactory, hgood, hright⟩ := hacts
      exact .inr ⟨code, rfl, hfactory, hgood, hright, exec_boundaryScan_private hgood hright code hfactory⟩
    · exact .inl (by rw [exec_boundaryScan_open hacts, isNext_next])
  · exact .inl (exec_isNext (not_exists.mp hprivate) s)

end Sys2Proof.Machine
end
